-- ==== Sys2Proof/Word.lean ====
section
/-! DEFINITION. The words of the device: R40 (32-bit instruction words), R41 (64-bit deck-core registers),
R42 (32-bit loop registers, 72-bit accumulators), R5 and R6 (bit and byte numbering). -/

namespace Sys2Proof

/-- One byte of a memory. -/
abbrev Byte := BitVec 8
/-- A deck-core register, a special register or a die register (R41, R618). -/
abbrev Word := BitVec 64
/-- A loop-engine register, and one instruction word (R40, R42). -/
abbrev Word32 := BitVec 32
/-- A loop-engine accumulator: a Q10.62 sum (R42, R95). -/
abbrev Acc := BitVec 72

/-- A sparse table: keys strictly rising, and no entry equal to what an unlisted key reads as (the canonical form
`Tbl.Canon` of Machine/Ops.lean). Every memory and every indexed group of State is one. -/
abbrev Tbl (α : Type) := List (Nat × α)

end Sys2Proof
end

