-- ==== Sys2Proof/Syntax.lean ====
section
/-! DEFINITION. The commands the block takes: one constructor per row of spec/opcode_table.json, with the row's
operands. An instruction of the Prievel set names the agent that executes it and its fields (R46); a hardware event
names where it happens and the physical outcome the spec does not compute (a measured speed, a decoder's result,
the bytes a host or a disc supplies). -/

namespace Sys2Proof

/-- Who executes an instruction that both profiles have: deck core `c` (its s.coreid[4:0], R69) or loop engine `e`
(physical number 0 to 8, 8 the spare) of slice `k` (R41, R42). -/
inductive Agent where
  | deck (c : Nat)
  | loop (k e : Nat)
  deriving DecidableEq, Repr

/-- A JTAG instruction (R546, R547): the unlock instruction stands for all of them; halting and resuming a deck core are
named because they change it. -/
inductive Jtag where
  | idcode | bypass | sample | unlock
  | halt (c : Nat) | resume (c : Nat)
  | read (c addr n : Nat) | write (c addr : Nat) (data : List Byte)
  | other (n : Nat)
  deriving DecidableEq, Repr, Inhabited

/-- A resampled symbol of a beam: its value, and whether a conversion it comes from is clipped at the ADC; none where the beam's sample
lane has failed (R20, R302, R317). -/
abbrev Sample := Option (Int × Bool)
/-- A beam's resampled symbols over a frame and the windows of its marks: symbol n of the frame position at place n + 2,048. -/
abbrev Stream := List Sample

/-- The commands of the block: one constructor per row of spec/opcode_table.json, in the table's order. -/
inductive Instr where
  /-- ADD (R52): Adds two registers modulo the register width; in the loop profile it acts on 32 bits (R100). -/
  | add (a : Agent) (rd ra rb : BitVec 5) (pred : BitVec 3) (pneg : Bool)
  /-- SUB (R52): Subtracts rb from ra modulo the register width. -/
  | sub (a : Agent) (rd ra rb : BitVec 5) (pred : BitVec 3) (pneg : Bool)
  /-- AND (R52): Bitwise AND of two registers. -/
  | and (a : Agent) (rd ra rb : BitVec 5) (pred : BitVec 3) (pneg : Bool)
  /-- OR (R52): Bitwise OR of two registers. -/
  | or (a : Agent) (rd ra rb : BitVec 5) (pred : BitVec 3) (pneg : Bool)
  /-- XOR (R52): Bitwise XOR of two registers. -/
  | xor (a : Agent) (rd ra rb : BitVec 5) (pred : BitVec 3) (pneg : Bool)
  /-- ANDN (R52): ANDs ra with the complement of rb. -/
  | andn (a : Agent) (rd ra rb : BitVec 5) (pred : BitVec 3) (pneg : Bool)
  /-- SLL (R52): Shifts ra left logically by rb. -/
  | sll (a : Agent) (rd ra rb : BitVec 5) (pred : BitVec 3) (pneg : Bool)
  /-- SRL (R52): Shifts ra right logically by rb. -/
  | srl (a : Agent) (rd ra rb : BitVec 5) (pred : BitVec 3) (pneg : Bool)
  /-- SRA (R52): Shifts ra right arithmetically by rb. -/
  | sra (a : Agent) (rd ra rb : BitVec 5) (pred : BitVec 3) (pneg : Bool)
  /-- ROR (R52): Rotates ra right by rb[5:0]; full profile only. -/
  | ror (c : Nat) (rd ra rb : BitVec 5) (pred : BitVec 3) (pneg : Bool)
  /-- MIN (R52): Writes the signed minimum of ra and rb. -/
  | min (a : Agent) (rd ra rb : BitVec 5) (pred : BitVec 3) (pneg : Bool)
  /-- MAX (R52): Writes the signed maximum of ra and rb. -/
  | max (a : Agent) (rd ra rb : BitVec 5) (pred : BitVec 3) (pneg : Bool)
  /-- MINU (R52): Writes the unsigned minimum of ra and rb. -/
  | minu (a : Agent) (rd ra rb : BitVec 5) (pred : BitVec 3) (pneg : Bool)
  /-- MAXU (R52): Writes the unsigned maximum of ra and rb. -/
  | maxu (a : Agent) (rd ra rb : BitVec 5) (pred : BitVec 3) (pneg : Bool)
  /-- SEL (R52): Selects ra or rb by a predicate, and always executes. -/
  | sel (a : Agent) (rd ra rb : BitVec 5) (pred : BitVec 3) (pneg : Bool)
  /-- CLZ (R52): Counts the leading zero bits of ra. -/
  | clz (a : Agent) (rd ra : BitVec 5) (pred : BitVec 3) (pneg : Bool)
  /-- CTZ (R52): Counts the trailing zero bits of ra. -/
  | ctz (c : Nat) (rd ra : BitVec 5) (pred : BitVec 3) (pneg : Bool)
  /-- POPC (R52): Counts the one bits of ra. -/
  | popc (c : Nat) (rd ra : BitVec 5) (pred : BitVec 3) (pneg : Bool)
  /-- SEXTB (R52): Sign-extends the low byte of ra. -/
  | sextb (c : Nat) (rd ra : BitVec 5) (pred : BitVec 3) (pneg : Bool)
  /-- SEXTH (R52): Sign-extends the low halfword of ra. -/
  | sexth (c : Nat) (rd ra : BitVec 5) (pred : BitVec 3) (pneg : Bool)
  /-- SEXTW (R52): Sign-extends the low word of ra. -/
  | sextw (c : Nat) (rd ra : BitVec 5) (pred : BitVec 3) (pneg : Bool)
  /-- ZEXTW (R52): Zero-extends the low word of ra. -/
  | zextw (c : Nat) (rd ra : BitVec 5) (pred : BitVec 3) (pneg : Bool)
  /-- MUL (R53): Writes the low part of ra times rb; takes 2 cycles in the loop profile. -/
  | mul (a : Agent) (rd ra rb : BitVec 5) (pred : BitVec 3) (pneg : Bool)
  /-- MULHS (R53): Writes the high 64 bits of the signed product. -/
  | mulhs (c : Nat) (rd ra rb : BitVec 5) (pred : BitVec 3) (pneg : Bool)
  /-- MULHU (R53): Writes the high 64 bits of the unsigned product. -/
  | mulhu (c : Nat) (rd ra rb : BitVec 5) (pred : BitVec 3) (pneg : Bool)
  /-- DIVS (R53): Signed division that never traps. -/
  | divs (c : Nat) (rd ra rb : BitVec 5) (pred : BitVec 3) (pneg : Bool)
  /-- DIVU (R53): Unsigned division that never traps. -/
  | divu (c : Nat) (rd ra rb : BitVec 5) (pred : BitVec 3) (pneg : Bool)
  /-- REMS (R53): Signed remainder that never traps. -/
  | rems (c : Nat) (rd ra rb : BitVec 5) (pred : BitVec 3) (pneg : Bool)
  /-- REMU (R53): Unsigned remainder that never traps. -/
  | remu (c : Nat) (rd ra rb : BitVec 5) (pred : BitVec 3) (pneg : Bool)
  /-- CMPEQ (R54): Sets a predicate to ra equal to rb. -/
  | cmpeq (a : Agent) (pd : BitVec 3) (ra rb : BitVec 5) (pred : BitVec 3) (pneg : Bool)
  /-- CMPNE (R54): Sets a predicate to ra not equal to rb. -/
  | cmpne (a : Agent) (pd : BitVec 3) (ra rb : BitVec 5) (pred : BitVec 3) (pneg : Bool)
  /-- CMPLT (R54): Sets a predicate to ra less than rb, signed. -/
  | cmplt (a : Agent) (pd : BitVec 3) (ra rb : BitVec 5) (pred : BitVec 3) (pneg : Bool)
  /-- CMPLTU (R54): Sets a predicate to ra less than rb, unsigned. -/
  | cmpltu (a : Agent) (pd : BitVec 3) (ra rb : BitVec 5) (pred : BitVec 3) (pneg : Bool)
  /-- CMPGE (R54): Sets a predicate to ra at least rb, signed. -/
  | cmpge (a : Agent) (pd : BitVec 3) (ra rb : BitVec 5) (pred : BitVec 3) (pneg : Bool)
  /-- CMPGEU (R54): Sets a predicate to ra at least rb, unsigned. -/
  | cmpgeu (a : Agent) (pd : BitVec 3) (ra rb : BitVec 5) (pred : BitVec 3) (pneg : Bool)
  /-- PAND (R54): ANDs two predicates. -/
  | pand (a : Agent) (pd pa pb : BitVec 3) (pred : BitVec 3) (pneg : Bool)
  /-- POR (R54): ORs two predicates. -/
  | por (a : Agent) (pd pa pb : BitVec 3) (pred : BitVec 3) (pneg : Bool)
  /-- PXOR (R54): XORs two predicates. -/
  | pxor (a : Agent) (pd pa pb : BitVec 3) (pred : BitVec 3) (pneg : Bool)
  /-- PANDN (R54): ANDs a predicate with the complement of another. -/
  | pandn (a : Agent) (pd pa pb : BitVec 3) (pred : BitVec 3) (pneg : Bool)
  /-- JMPR (R55): Jumps to a register address and links pc plus 4 into rd. -/
  | jmpr (c : Nat) (rd ra : BitVec 5) (pred : BitVec 3) (pneg : Bool)
  /-- AMOADD (R58): Atomically adds rb to memory and returns the old value. -/
  | amoadd (c : Nat) (rd ra rb : BitVec 5) (pred : BitVec 3) (pneg : Bool) (dbl aq rl : Bool)
  /-- AMOSWAP (R58): Atomically swaps rb with memory. -/
  | amoswap (c : Nat) (rd ra rb : BitVec 5) (pred : BitVec 3) (pneg : Bool) (dbl aq rl : Bool)
  /-- AMOCAS (R58): Atomic compare-and-swap of memory against rd. -/
  | amocas (c : Nat) (rd ra rb : BitVec 5) (pred : BitVec 3) (pneg : Bool) (dbl aq rl : Bool)
  /-- ADDI (R56): Adds a sign-extended immediate. -/
  | addi (a : Agent) (rd ra : BitVec 5) (imm : BitVec 16)
  /-- ANDI (R56): ANDs a zero-extended immediate. -/
  | andi (a : Agent) (rd ra : BitVec 5) (imm : BitVec 16)
  /-- ORI (R56): ORs a zero-extended immediate. -/
  | ori (a : Agent) (rd ra : BitVec 5) (imm : BitVec 16)
  /-- XORI (R56): XORs a zero-extended immediate. -/
  | xori (a : Agent) (rd ra : BitVec 5) (imm : BitVec 16)
  /-- SLLI (R56): Shifts left by an immediate. -/
  | slli (a : Agent) (rd ra : BitVec 5) (sh : BitVec 6)
  /-- SRLI (R56): Shifts right logically by an immediate. -/
  | srli (a : Agent) (rd ra : BitVec 5) (sh : BitVec 6)
  /-- SRAI (R56): Shifts right arithmetically by an immediate. -/
  | srai (a : Agent) (rd ra : BitVec 5) (sh : BitVec 6)
  /-- MOVI (R56): Loads a sign-extended immediate. -/
  | movi (a : Agent) (rd : BitVec 5) (imm : BitVec 16)
  /-- MOVK (R56): Inserts a 16-bit immediate into one halfword of rd. -/
  | movk (a : Agent) (rd : BitVec 5) (h : BitVec 2) (imm : BitVec 16)
  /-- CMPEQI (R56): Sets a predicate to ra equal to an immediate. -/
  | cmpeqi (a : Agent) (pd : BitVec 3) (ra : BitVec 5) (imm : BitVec 16)
  /-- CMPLTI (R56): Sets a predicate to ra less than an immediate, signed. -/
  | cmplti (a : Agent) (pd : BitVec 3) (ra : BitVec 5) (imm : BitVec 16)
  /-- CMPLTUI (R56): Sets a predicate to ra less than an immediate, unsigned. -/
  | cmpltui (a : Agent) (pd : BitVec 3) (ra : BitVec 5) (imm : BitVec 16)
  /-- LD (R57): Loads 1 to 8 aligned bytes from memory into a register, subject to region, map and ECC checks. -/
  | ld (c : Nat) (rd ra : BitVec 5) (size : BitVec 2) (uns : Bool) (off : BitVec 13)
  /-- ST (R57): Stores 1 to 8 aligned bytes of a register to memory, including register-page stores. -/
  | st (c : Nat) (rs ra : BitVec 5) (size : BitVec 2) (off : BitVec 13)
  /-- BR (R49): Predicated PC-relative branch, optionally linking into g31. -/
  | br (c : Nat) (pred : BitVec 3) (pneg : Bool) (link : Bool) (disp : BitVec 21)
  /-- MFS (R69): Reads a special register into rd, in either profile. ra is the field MFS does not use. -/
  | mfs (a : Agent) (rd ra : BitVec 5) (sreg : BitVec 12)
  /-- MTS (R68): Writes a special register, taking effect before the next fetch. rd is the field MTS does not use. -/
  | mts (a : Agent) (rd ra : BitVec 5) (sreg : BitVec 12)
  /-- ERET (R75): Returns from an event, restoring level and status from s.estatus. rd, ra and sreg are fields ERET does not use. -/
  | eret (c : Nat) (rd ra : BitVec 5) (sreg : BitVec 12)
  /-- ECALL (R67): Raises synchronous event 0x0B with s.einfo set to n. -/
  | ecall (c : Nat) (n : BitVec 12)
  /-- EBREAK (R67): Raises synchronous event 0x0C. -/
  | ebreak (c : Nat)
  /-- WFE (R67): Stalls until an enabled event is pending. rd, ra and sreg are fields WFE does not use. -/
  | wfe (c : Nat) (rd ra : BitVec 5) (sreg : BitVec 12)
  /-- FENCE (R61): Orders earlier against later accesses of the selected kinds. -/
  | fence (c : Nat) (form : BitVec 4)
  /-- FENCE_I (R66): Discards the instruction cache and refetches. -/
  | fenceI (c : Nat)
  /-- TAKE_ASYNC_EVENT (R72): The core takes the lowest pending enabled asynchronous event between instructions and enters its handler. -/
  | takeAsyncEvent (c : Nat)
  /-- LDL (R93): Loop-profile load from the engine's data memory. -/
  | ldl (k e : Nat) (rd ra : BitVec 5) (size : BitVec 2) (uns : Bool) (off : BitVec 13)
  /-- STL (R93): Loop-profile store to the engine's data memory, journalled for the checkpoint. -/
  | stl (k e : Nat) (rs ra : BitVec 5) (size : BitVec 2) (off : BitVec 13)
  /-- QADD (R100): Saturating Q1.31 add. -/
  | qadd (k e : Nat) (rd ra rb : BitVec 5) (pred : BitVec 3) (pneg : Bool)
  /-- QSUB (R100): Saturating Q1.31 subtract. -/
  | qsub (k e : Nat) (rd ra rb : BitVec 5) (pred : BitVec 3) (pneg : Bool)
  /-- QNEG (R100): Saturating negate. -/
  | qneg (k e : Nat) (rd ra : BitVec 5) (pred : BitVec 3) (pneg : Bool)
  /-- QABS (R100): Saturating absolute value. -/
  | qabs (k e : Nat) (rd ra : BitVec 5) (pred : BitVec 3) (pneg : Bool)
  /-- QMUL (R100): Rounded, saturating Q1.31 multiply. -/
  | qmul (k e : Nat) (rd ra rb : BitVec 5) (pred : BitVec 3) (pneg : Bool)
  /-- QSHL (R100): Saturating left shift. -/
  | qshl (k e : Nat) (rd ra rb : BitVec 5) (pred : BitVec 3) (pneg : Bool)
  /-- ACLR (R100): Clears an accumulator. -/
  | aclr (k e : Nat) (ak : BitVec 2) (pred : BitVec 3) (pneg : Bool)
  /-- ALD (R100): Loads a register into an accumulator, with its binary point at bit 62. -/
  | ald (k e : Nat) (ak : BitVec 2) (ra : BitVec 5) (pred : BitVec 3) (pneg : Bool)
  /-- QMAC (R100): Multiply-accumulates into an accumulator. -/
  | qmac (k e : Nat) (ak : BitVec 2) (ra rb : BitVec 5) (pred : BitVec 3) (pneg : Bool)
  /-- QMSU (R100): Multiply-subtracts from an accumulator. -/
  | qmsu (k e : Nat) (ak : BitVec 2) (ra rb : BitVec 5) (pred : BitVec 3) (pneg : Bool)
  /-- QRND (R100): Rounds and saturates an accumulator into a register. -/
  | qrnd (k e : Nat) (rd : BitVec 5) (ak : BitVec 2) (pred : BitVec 3) (pneg : Bool)
  /-- BIQ (R99): Runs one Direct Form I biquad step on a data-memory block. -/
  | biq (k e : Nat) (rd ra rb : BitVec 5) (pred : BitVec 3) (pneg : Bool)
  /-- REPEAT (R97): Repeats the next len instructions n times. The two fields as encoded: n - 1 and len - 1. -/
  | repeat (k e : Nat) (n : BitVec 8) (len : BitVec 5)
  /-- SAMPLE (R98): Reads a slot input channel, stalling until its value arrives. -/
  | sample (k e : Nat) (rd : BitVec 5) (ch : BitVec 8)
  /-- SAMPLE_STALE (R202): A SAMPLE reaches its stall bound, completes with the previous latch and increases the stale count. -/
  | sampleStale (k e : Nat) (rd : BitVec 5) (ch : BitVec 8)
  /-- EMIT (R98): Places a value in an output channel for commit at that channel's commit phase. -/
  | emit (k e : Nat) (ch : BitVec 8) (ra : BitVec 5)
  /-- SLOTEND (R98): Ends the engine's slot; the supervision word is taken and the engine idles until its next slot. -/
  | slotend (k e : Nat)
  /-- BALLOC (R113): Takes the lowest free buffer on a C-die, optionally zero-filled. -/
  | balloc (c : Nat) (rd ra rb : BitVec 5) (xmod : BitVec 6)
  /-- BSHARE (R113): Adds a named owner to a buffer. -/
  | bshare (c : Nat) (rd ra rb : BitVec 5) (xmod : BitVec 6)
  /-- BRELEASE (R113): Removes the caller from a buffer's owners. -/
  | brelease (c : Nat) (rd ra rb : BitVec 5) (xmod : BitVec 6)
  /-- BFREE (R113): Frees a buffer whose sole owner is the caller, and advances its generation. -/
  | bfree (c : Nat) (rd ra rb : BitVec 5) (xmod : BitVec 6)
  /-- QTAKE (R119): Delivers the eligible command with the earliest dispatch key and writes its record. -/
  | qtake (c : Nat) (rd ra rb : BitVec 5) (xmod : BitVec 6)
  /-- QDONE_DATA (R120): Starts a DATA-form transfer between host memory and listed buffers, without posting. xmod[5:1] is `xhi`. -/
  | qdoneData (c : Nat) (rd ra rb : BitVec 5) (xhi : BitVec 5)
  /-- QDONE_POST (R120): Starts a POST-form QDONE that moves any listed data and then posts the completion. xmod[5:1] is `xhi`. -/
  | qdonePost (c : Nat) (rd ra rb : BitVec 5) (xhi : BitVec 5)
  /-- QDONE_END (R120): A QDONE's transfer ends; the result is written, any completion is posted, and the tag is queued for cause 0x22. Transfer `n` of those in progress; whether the host transfer failed, the blocks moved when it stopped, the host's data. -/
  | qdoneEnd (n : Nat) (err : Bool) (moved : Nat) (data : List Byte)
  /-- QDEFER (R123): Returns a started command to the dispatch queue with a not-before time. -/
  | qdefer (c : Nat) (rd ra rb : BitVec 5) (xmod : BitVec 6)
  /-- DEFER_TIME_REACHED (R123): A deferred command's not-before time arrives, and the command becomes takeable again. -/
  | deferTimeReached (slot : Nat)
  /-- GRANT_IMMEDIATE (R124): Grants a pennant count now or returns 0x18. -/
  | grantImmediate (c : Nat) (rd ra rb : BitVec 5) (xhi : BitVec 5)
  /-- GRANT_QUEUED (R124): Enters a pennant request into the arbiter's key order and returns a ticket. -/
  | grantQueued (c : Nat) (rd ra rb : BitVec 5) (xhi : BitVec 5)
  /-- GRETURN (R124): Returns pennants held by a tag to the pools. -/
  | greturn (c : Nat) (rd ra rb : BitVec 5) (xmod : BitVec 6)
  /-- SNAP_LOCAL (R125): Schedules a local bunting snapshot at a device time. xmod[5:1] is `xhi`. -/
  | snapLocal (c : Nat) (rd ra rb : BitVec 5) (xhi : BitVec 5)
  /-- SNAP_RING (R572): Schedules a ring-wide snapshot and broadcasts a SNAP frame. -/
  | snapRing (c : Nat) (rd ra rb : BitVec 5) (xhi : BitVec 5)
  /-- SNAPSHOT_LATCH (R573): At the scheduled LOOP tick, every counter unit latches into its shadow with the snapshot's epoch. -/
  | snapshotLatch
  /-- SNAPRD (R126): Copies a counter unit's shadow indivisibly, checking the epoch if asked. -/
  | snaprd (c : Nat) (rd ra rb : BitVec 5) (xmod : BitVec 6)
  /-- CINV_R (R127): Invalidates a GDDR6 range in the staging cache. -/
  | cinvR (c : Nat) (rd ra rb : BitVec 5) (xmod : BitVec 6)
  /-- CCLEAN_R (R127): Writes back the dirty lines of a range, which stay valid. -/
  | ccleanR (c : Nat) (rd ra rb : BitVec 5) (xhi : BitVec 5)
  /-- CCLEAN_INV_R (R127): Cleans and invalidates the lines of a range. -/
  | ccleanInvR (c : Nat) (rd ra rb : BitVec 5) (xhi : BitVec 5)
  /-- CLOCKW_UNLOCK (R130): Unlocks a scratchpad or range-locked way. xmod[5:2] is `xhi`. -/
  | clockwUnlock (c : Nat) (rd ra rb : BitVec 5) (xhi : BitVec 4)
  /-- CLOCKW_SCRATCHPAD (R130): Turns a way into a scratchpad window. -/
  | clockwScratchpad (c : Nat) (rd ra rb : BitVec 5) (xhi : BitVec 4)
  /-- CLOCKW_RANGE_LOCK (R130): Locks a way to hold a 2 MiB GDDR6 range. -/
  | clockwRangeLock (c : Nat) (rd ra rb : BitVec 5) (xhi : BitVec 4)
  /-- MAPLOOK (R132): Resolves a logical block and version to a physical frame address. -/
  | maplook (c : Nat) (rd ra rb : BitVec 5) (xmod : BitVec 6)
  /-- MAPCOMMIT (R133): Commits a durable-ready version into the map and returns its delta sequence number. -/
  | mapcommit (c : Nat) (rd ra rb : BitVec 5) (xmod : BitVec 6)
  /-- CHOP_READ (R136): Accepts a READ channel operation into the drive's channel queue. -/
  | chopRead (c : Nat) (rd ra rb : BitVec 5) (xmod : BitVec 6)
  /-- CHOP_WRITE (R346): Accepts a WRITE whose hoists pass the area and burn-record tests. -/
  | chopWrite (c : Nat) (rd ra rb : BitVec 5) (xmod : BitVec 6)
  /-- CHOP_VERIFY (R354): Accepts a VERIFY channel operation. -/
  | chopVerify (c : Nat) (rd ra rb : BitVec 5) (xmod : BitVec 6)
  /-- CHOP_SEEK (R136): Accepts a SEEK channel operation. -/
  | chopSeek (c : Nat) (rd ra rb : BitVec 5) (xmod : BitVec 6)
  /-- CHOP_START (R237): A queued CHOP reaches the head of its queue and starts, or ends at once with cstat 0x07 when focus, layer or spindle is not ready. Drive, and the time in ns until the first frame passes the head's angle. -/
  | chopStart (k ahead : Nat)
  /-- POSITIONING_END (R245): The engine acknowledges landed or failed, or the positioning bound passes, and the CHOP proceeds, retries or ends. -/
  | positioningEnd (k ahead : Nat)
  /-- CHOP_READ_END (R339): A READ ends and fills its descriptor end fields. -/
  | chopReadEnd (k : Nat)
  /-- CHOP_WRITE_END (R352): A WRITE ends; its hoists become burnt, durable-ready or lost, and the burn record is updated. Hoists begun, and the frame stop lies at, of a burn that was stopped. -/
  | chopWriteEnd (k begun off : Nat)
  /-- CHOP_VERIFY_END (R354): A VERIFY ends, passing or at the first failing hoist. -/
  | chopVerifyEnd (k : Nat)
  /-- CHOP_SEEK_END (R245): A SEEK ends once the head is positioned. -/
  | chopSeekEnd (k : Nat)
  /-- LOADL (R139): Checks a loop image and schedules it on a logical engine. -/
  | loadl (c : Nat) (rd ra rb : BitVec 5) (xmod : BitVec 6)
  /-- XFER_MANUAL (R140): Moves a loop to manual with a held output. xmod[5:1] is `xhi`. -/
  | xferManual (c : Nat) (rd ra rb : BitVec 5) (xhi : BitVec 5)
  /-- XFER_AUTO (R140): Moves a loop to automatic without a step. -/
  | xferAuto (c : Nat) (rd ra rb : BitVec 5) (xhi : BitVec 5)
  /-- RINGSEND (R141): Queues a ring message for sending. -/
  | ringsend (c : Nat) (rd ra rb : BitVec 5) (xmod : BitVec 6)
  /-- RINGRECV (R142): Pops the oldest received ring message. -/
  | ringrecv (c : Nat) (rd ra rb : BitVec 5) (xmod : BitVec 6)
  /-- RETAIN (R143): Copies a section into retained SRAM and optionally starts the shadow update. -/
  | retain (c : Nat) (rd ra rb : BitVec 5) (xmod : BitVec 6)
  /-- RETAIN_SHADOW_DONE (R593): An SPI NOR shadow update ends and the header's shadow sequence is written. -/
  | retainShadowDone
  /-- MEASURE (R531): Extends the open Ensign record with a digest. -/
  | measure (c : Nat) (rd ra rb : BitVec 5) (xmod : BitVec 6)
  /-- SEAL (R86): Makes the protection set-up read-only, digests it into the boot record and locks debug. -/
  | seal (c : Nat) (rd ra rb : BitVec 5) (xmod : BitVec 6)
  /-- IDENT_VALUE (R146): Returns the identity register value. xmod is 0. -/
  | identValue (c : Nat) (rd ra rb : BitVec 5)
  /-- IDENT_PLACE (R146): Returns the issuer's C-die number, lead flag and slice count. xmod is 1. -/
  | identPlace (c : Nat) (rd ra rb : BitVec 5)
  /-- DOORBELL_SEND (R73): A write to db.send rings another deck core by setting its db.pend bit. -/
  | doorbellSend (c : Nat) (own : Bool) (target : BitVec 5)
  /-- DOORBELL_CLEAR (R73): A W1C write by core c to db.pend[c] clears served bits. -/
  | doorbellClear (c : Nat) (own : Bool) (mask : BitVec 32)
  /-- COMPLETION_QUEUE_POP (R621): A read of cq.head by its own core pops one completion tag and admits a waiting tag. -/
  | completionQueuePop (c : Nat) (own : Bool) (rd : BitVec 5)
  /-- CER_CLEAR (R655): A write of 1 to cer pend clears the corrected-error report. -/
  | cerClear (c : Nat) (own : Bool)
  /-- FAULT_ACK (R610): A write to flt.ack by its own core acknowledges fault records up to a sequence number. -/
  | faultAck (c : Nat) (own : Bool) (seq : BitVec 32)
  /-- NOTICE_POP (R483): A read of ab.ntc pops the oldest budget or thermal notice. -/
  | noticePop (c : Nat) (own : Bool) (rd : BitVec 5)
  /-- REGISTER_WRITE (R7): A doubleword store to a register that has no behaviour of its own, under its access code. The core whose store it is, the page (an F-die's, and of which die) and the offset. -/
  | registerWrite (c : Nat) (own fdie : Bool) (d : Nat) (off : BitVec 20) (v : BitVec 64)
  /-- SLOT_START (R198): An engine's slot begins: inputs latch, control blocks are rewritten and pending loads, transfers and parameters take effect. Slice, physical engine, and by channel what arrives there: µV or nA, one value a conversion; or the number reported, the symbol count, or the word the program's observer publishes. -/
  | slotStart (k e : Nat) (given : List (Nat × List Int))
  /-- OUTPUT_COMMIT (R200): At an engine's commit phase the F-die commits the emitted or held output values. -/
  | outputCommit (k e : Nat)
  /-- PARAM_POST (R213): Writing post captures the 2 KiB staging area and sets ppend. Slice and logical engine. -/
  | paramPost (k l : Nat)
  /-- HOLD_RELEASE (R226): Writing release ends an act 2 output hold at the next slot. -/
  | holdRelease (k l : Nat)
  /-- ENGINE_FAULT (R218): A lockstep mismatch or an uncorrectable memory error is detected in a loop engine. Whether the cause is an uncorrectable memory error. -/
  | engineFault (k e : Nat) (memory : Bool)
  /-- SLOTEND_DEADLINE_MISS (R218): A SLOTEND not completed by its limit is treated as an engine fault. -/
  | slotendDeadlineMiss (k e : Nat)
  /-- SPARE_START (R220): The spare starts at the faulted engine's next slot boundary from the checkpoint. -/
  | spareStart (k : Nat) (given : List (Nat × List Int))
  /-- SPARE_SELF_TEST_MISMATCH (R223): The idle spare's self-test mismatches; spare_fault is set. -/
  | spareSelfTestMismatch (k : Nat)
  /-- HOLD_LIMIT_EXPIRY (R224): The F-die receives no committed value within the hold limit and starts the safety sequence. -/
  | holdLimitExpiry (k l : Nat)
  /-- SPINDLE_RUN (R264): The spindle program serves op 1, run at target, from the mailbox. -/
  | spindleRun (k : Nat)
  /-- SPINDLE_STOP (R272): The spindle program serves op 2, decelerating then short-braking to STOPPED. -/
  | spindleStop (k : Nat)
  /-- SPINDLE_COAST (R264): The spindle program serves op 3, turning the bridge off. -/
  | spindleCoast (k : Nat)
  /-- CATCH_MEASUREMENT_END (R270): The CATCH measurement ends, and the program acts on the measured speed and direction. -/
  | catchMeasurementEnd (k speed : Nat) (back : Bool)
  /-- ALIGN_END (R271): The alignment time ends and the forced-angle OPEN stage starts. -/
  | alignEnd (k : Nat)
  /-- OPEN_LOOP_HANDOVER (R271): The observer has matched the forced speed for 10 ms and the program moves to RAMP. -/
  | openLoopHandover (k speed : Nat)
  /-- FAILED_START (R271): The forced speed reaches 600 rpm without handover, and the bridge goes off. -/
  | failedStart (k speed : Nat)
  /-- SPEED_SETTLED (R262): Speed has held within 0.1 % of the target for 20 ms, and the spindle enters RUN. -/
  | speedSettled (k speed : Nat)
  /-- BRAKE_SAFE_SPEED_REACHED (R272): DECEL or COAST falls to 1,200 rpm, and short braking begins. -/
  | brakeSafeSpeedReached (k speed : Nat)
  /-- SPINDLE_AT_REST (R272): Speed falls below 60 rpm, and the program enters STOPPED, FAULT or ALIGN as its path gives. -/
  | spindleAtRest (k speed : Nat)
  /-- LOSS_OF_SYNCHRONISM (R273): Three implausible current-loop slots raise write inhibit, and the program starts a re-catch. -/
  | lossOfSynchronism (k : Nat)
  /-- RECATCH_END (R274): A re-catch resumes PWM, or fails, and after two failures the spindle heads to FAULT. -/
  | recatchEnd (k speed : Nat) (found : Bool)
  /-- LOCKED_ROTOR (R275): No sector crossing for 250 ms under current, so the program enters FAULT with reason 1. -/
  | lockedRotor (k : Nat)
  /-- VDS_TRIP (R261): A drain-source over-current turns every gate off and clears en. -/
  | vdsTrip (k phase : Nat)
  /-- OVER_VOLTAGE_TRIP (R261): VIN reaches 19.5 V; every gate turns off and ov is set. -/
  | overVoltageTrip (k : Nat)
  /-- GATE_ENABLE (R261): A write of en to fe.sp.ctl enables the gates unless VIN or the clamp interlock forbids it. -/
  | gateEnable (k : Nat) (on : Bool)
  /-- SPEED_CEILING_UPDATE (R265): Every 100 µs the speed ceiling and wok are computed from mean VIN. The mean VIN of the last 1 ms, in mV. -/
  | speedCeilingUpdate (k mv : Nat)
  /-- STEPPER_MOVE (R284): The engine 5 program serves op 1, a move to target. Slice and axis. -/
  | stepperMove (k a : Nat)
  /-- STEPPER_HOME (R290): The engine 5 program serves op 2 and homes an axis. -/
  | stepperHome (k a : Nat)
  /-- STEPPER_SET_POSITION (R284): The engine 5 program serves op 3 and sets an axis's position. -/
  | stepperSetPosition (k a : Nat)
  /-- SLED_MOVE_FORM (R283): Engine 5 reads a new move form on crossbar word 0xC0 or 0xC1 and starts a relative sled move. -/
  | sledMoveForm (k h : Nat)
  /-- STEPPER_MOVE_END (R282): A stepper profile reaches its end, and the axis goes idle and acknowledges. -/
  | stepperMoveEnd (k a : Nat)
  /-- STEPPER_STALL (R289): A stall is detected; the position is frozen and reported, or the corrector re-homes. -/
  | stepperStall (k a : Nat)
  /-- HOMING_END (R290): Homing ends at the stop, or fails when no stop lies within the travel. -/
  | homingEnd (k a : Nat)
  /-- WRITE_INHIBIT_COMPARATOR (R231): An enabled servo-monitor comparator raises the head's write inhibit. -/
  | writeInhibitComparator (k h : Nat) (tm fm sm : Int)
  /-- WI_STAT_CLEAR (R350): A W1C write to fe.wi.stat clears latched sources whose condition has ended. The bits written, and the conditions that hold. -/
  | wiStatClear (k h : Nat) (mask still : BitVec 10)
  /-- FOCUS_OK (R234): Focus conditions have held for 64 µs, and fok sets. Measured codes. -/
  | focusOk (k h : Nat) (fm sm : Int)
  /-- TRACK_OK (R234): Track conditions have held for 64 µs, and tok sets. -/
  | trackOk (k h : Nat) (tm : Int) (ahead : Nat)
  /-- FOCUS_LOST (R234): A focus condition has failed for 2 µs, and fok and tok clear. -/
  | focusLost (k h : Nat) (fm sm : Int)
  /-- TRACK_LOST (R234): A track condition has failed for 2 µs, and tok clears. -/
  | trackLost (k h : Nat) (tm : Int)
  /-- READ_LOSS_TIMEOUT (R254): The 10 ms for recovery passes, and the held operation ends with cstat 0x07. -/
  | readLossTimeout (k : Nat)
  /-- SHOCK_COMPARATOR (R181): An analogue shock axis exceeds its limit and raises write inhibit. -/
  | shockComparator (k : Nat) (radial focus : Int)
  /-- DIGITAL_SHOCK_POLL (R182): The accelerometer port polls the sensor and compares the axis words with dlim. -/
  | digitalShockPoll (k : Nat) (bytes : List (BitVec 8))
  /-- BRIDGE_OVERCURRENT (R178): A bridge over 125 % for 2 µs goes high-impedance, and its trip is logged. -/
  | bridgeOvercurrent (k b : Nat)
  /-- BRIDGE_ENABLE (R623): A write to fe.br.ctl enables bridges, ignored within 1 ms of a trip. -/
  | bridgeEnable (k : Nat) (ven : BitVec 6) (sen : BitVec 8)
  /-- WOBBLE_ACQUISITION_START (R296): fok and tm have held together for 16 µs, and the wobble loop presets and starts acquisition. -/
  | wobbleAcquisitionStart (k h : Nat) (tm : Int)
  /-- WOBBLE_ADDRESS_UNIT_READ (R298): An address unit is read; a good CRC sets the position count and srv.rdy band and layer. -/
  | wobbleAddressUnitRead (k h : Nat) (unit : BitVec 48) (atSync phase : Bool)
  /-- WOBBLE_LOCK_LOST (R297): wlock clears on high phase error or four missed address units. -/
  | wobbleLockLost (k h : Nat)
  /-- FRAME_READ (R311): A frame's symbols pass a beam; sync marks are sought, defects marked and the codeword sent to decode, flywheeled or erased. What the data ADCs of the head convert about frame f of the operation, and where the wobble loop puts its symbol 0 in it. -/
  | frameRead (k f : Nat) (adc : List (List (Option (BitVec 8)))) (start : Rat) (fine : Int)
  /-- FIRST_PASS_DECODE_END (R321): A channel-bound decoder converges or reaches icap; the frame is checked, written or sent to the retry store. Whether the decoder had a fault. -/
  | firstPassDecodeEnd (k f : Nat) (fault : Bool)
  /-- ALIGNMENT_RETRY (R330): Rung 0 evaluates shifted syndromes and decodes at the best shift. -/
  | alignmentRetry (k f : Nat) (fault : Bool)
  /-- RUNG_1_DECODE_END (R330): A pooled decoder ends a rung 1 decode at icap1. -/
  | rung1DecodeEnd (k f : Nat) (fault : Bool)
  /-- REVOLUTION_ATTEMPT_END (R331): A rung 2, 3 or 5 re-read of a band's failing frames ends. The frames re-read, each with its conversions, and whether its decoder had a fault. -/
  | revolutionAttemptEnd (k : Nat) (frames : List (Nat × List (List (Option (BitVec 8))) × Rat × Int × Bool))
  /-- ERASURE_DECODE (R329): Rung 6 erasure-decodes hoists with one or two failing frames. -/
  | erasureDecode (k j : Nat)
  /-- TRAINING_START (R337): A write of en = 1 to rc.train copies the target bank into a training shadow. -/
  | trainingStart (k h : Nat) (frames : BitVec 16) (mu : BitVec 4) (bank : BitVec 5)
  /-- TRAINING_CANCEL (R337): A write of en = 0 ends training without commit. -/
  | trainingCancel (k h : Nat)
  /-- TRAINING_TIMEOUT (R337): Training reaches its frame count or 2 s without convergence. -/
  | trainingTimeout (k h : Nat)
  /-- CAL_DATA_OFFSET (R191): fe.cal.cmd procedure 1 trims one beam's data offset. -/
  | calDataOffset (k h b : Nat)
  /-- CAL_DATA_GAIN (R191): Procedure 2 trims one beam's data gain. -/
  | calDataGain (k h b : Nat)
  /-- CAL_SERVO_OFFSETS (R191): Procedure 3 trims a head's six servo offsets. -/
  | calServoOffsets (k h : Nat)
  /-- CAL_SERVO_GAIN_BALANCE (R191): Procedure 4 balances a head's servo gains. -/
  | calServoGainBalance (k h : Nat)
  /-- CAL_MONITOR_OFFSETS (R191): Procedure 5 trims a head's monitor offsets. -/
  | calMonitorOffsets (k h : Nat)
  /-- CAL_LASER_LI (R191): Procedure 6 fits each beam's L-I curve. -/
  | calLaserLi (k h : Nat)
  /-- CAL_SPINDLE_CURRENT_OFFSET (R191): Procedure 7 trims the spindle current-sense offsets. -/
  | calSpindleCurrentOffset (k : Nat)
  /-- CAL_SHOCK_OFFSET (R191): Procedure 8 trims the analogue shock offsets. -/
  | calShockOffset (k : Nat)
  /-- CAL_END (R193): A calibration procedure converges, times out, is superseded or faults, and commits or not. A fault on the head; the values a convergence commits. -/
  | calEnd (k : Nat) (fault : Bool) (found : Option (List Nat))
  /-- MAP_FILL_DELTAS (R369): mc.map.dcmd 1 fills a buffer with pending deltas for a map hoist. Core `c`, die `k`. -/
  | mapFillDeltas (c : Nat) (own : Bool) (k : Nat)
  /-- MAP_FILL_CHECKPOINT (R370): mc.map.dcmd 2 fills a buffer with the next checkpoint part. -/
  | mapFillCheckpoint (c : Nat) (own : Bool) (k : Nat)
  /-- MAP_BEGIN_LOAD (R371): mc.map.dcmd 3 clears the tables and sets mstate 1. -/
  | mapBeginLoad (k : Nat)
  /-- MAP_INGEST (R371): mc.map.dcmd 4 ingests a map hoist from a buffer. -/
  | mapIngest (c : Nat) (own : Bool) (k : Nat)
  /-- MAP_END_LOAD (R371): mc.map.dcmd 5 reads the retained burn record and sets mstate 2 or 3. -/
  | mapEndLoad (k : Nat)
  /-- BREC_WRITE (R363): A write to mc.map.brec marks a state-3 spare hoist's uncommitted frames as never to be committed. -/
  | brecWrite (k : Nat) (hoist : BitVec 25)
  /-- BP_MIN_WRITE (R383): A write to bp.min sets an owner's minimum unless the sum would exceed 28,640. -/
  | bpMinWrite (d : Nat) (b : BitVec 6) (min : BitVec 15)
  /-- TRACE_PUT (R387): A store to tr.put offers a word to the trace FIFO, which packs or drops it. -/
  | tracePut (c : Nat) (own : Bool) (v : BitVec 64)
  /-- FIFO_FLUSH (R392): Writing flush discards visible entries and the open item. C-die and FIFO, 8 the capture FIFO. -/
  | fifoFlush (d n : Nat)
  /-- FIFO_TAG_POP (R389): A read of a FIFO's tag register pops the head entry into the read latch. -/
  | fifoTagPop (c : Nat) (own : Bool) (d n : Nat) (rd : BitVec 5)
  /-- FIFO_POINTER_MISMATCH (R394): A FIFO's pointer copies differ, so it empties, sets perr and logs. -/
  | fifoPointerMismatch (d n : Nat)
  /-- CAPTURE_ITEM (R395): The capture selector offers one item from its source to the capture FIFO. What the data ADCs of the head convert, where the wobble loop puts symbol 0 in it, and what arrives at the servo inputs. -/
  | captureItem (d : Nat) (adc : List (List (Option (BitVec 8)))) (start : Rat) (given : List (Nat × List Int))
  /-- CC_BIST_GO (R421): A write to cc.bist requests a march test of a cache way. -/
  | ccBistGo (d : Nat) (way : BitVec 4)
  /-- CC_BIST_END (R421): A way test ends; the way returns empty, or stays withdrawn if it failed. -/
  | ccBistEnd (d : Nat) (passed : Bool)
  /-- MEM_BIST_GO (R422): A write to mem.bist starts a march test of one owned buffer. -/
  | memBistGo (c : Nat) (own : Bool) (d : Nat) (handle : BitVec 32)
  /-- MEM_BIST_END (R422): A buffer test ends, leaving zeros or poison, and reports the result. The words of the buffer that failed. -/
  | memBistEnd (d : Nat) (failed : List (BitVec 14))
  /-- MEM_RATE_WRITE (R411): A write to mem.cfg.rate retrains every GDDR6 channel. -/
  | memRateWrite (c : Nat) (own : Bool) (d : Nat) (rate : BitVec 2)
  /-- GDDR6_TRAINING_END (R411): Channel training completes after a reset. The channels whose training failed. -/
  | gddr6TrainingEnd (d : Nat) (failed : BitVec 4)
  /-- GDDR6_RETRACK (R411): Every 100 ms, or after 5 °C of change, each channel's timing is retracked. -/
  | gddr6Retrack (d : Nat) (failed : BitVec 4)
  /-- EDC_FAIL (R412): A GDDR6 transfer fails its EDC and is replayed. How many replays fail too. -/
  | edcFail (d : Nat) (chan : BitVec 2) (failed : Nat)
  /-- SRAM_SCRUB_PASS (R419): The SRAM scrubber reads and corrects the on-die memories in turn. -/
  | sramScrubPass (d : Nat)
  /-- GDDR6_SCRUB_PASS (R419): The GDDR6 scrubber reads and corrects or poisons words at the controller. -/
  | gddr6ScrubPass (d : Nat)
  /-- SQ_TAIL_DOORBELL (R425): The host writes a submission queue tail doorbell. -/
  | sqTailDoorbell (y tail : Nat)
  /-- CQ_HEAD_DOORBELL (R425): The host writes a completion queue head doorbell. -/
  | cqHeadDoorbell (y head : Nat)
  /-- COMMAND_FETCH (R428): The host port fetches a command once a slot is free and passes it to admission. The 64 bytes of the entry; the data the host supplies with an admin command. -/
  | commandFetch (sqid : Nat) (sqe data : List Byte)
  /-- GUARD_INSTANT (R464): At G the deadline guard takes an uncompleted command or job and posts Deadline Reached. -/
  | guardInstant (slot : Nat)
  /-- DRAIN_KEY_PASSES (R478): A drain entry's key passes with staged writes left, and an overrun of kind 4 is recorded. -/
  | drainKeyPasses (k : Nat)
  /-- JOB_REQUEST (R477): A write to adm.job go submits a firmware job for admission. -/
  | jobRequest (c : Nat) (own : Bool)
  /-- COST_TABLE_COMMIT (R467): A write to adm.ctc copies a drive's shadow cost table into force. -/
  | costTableCommit (mask : BitVec 4)
  /-- DRAIN_SUBTRACT (R475): A write to adm.drn subtracts writes and hoists that became durable. -/
  | drainSubtract (k : Nat) (writes : BitVec 16) (hoists : BitVec 32)
  /-- POOL_REFILL (R480): Every 100 µs the heat and supply pools refill, and waiting requests are reconsidered. -/
  | poolRefill
  /-- ENERGY_CHARGE (R482): Every 100 µs each slice's measured energy is charged against holdings, accounts and pools. Slice `k`. -/
  | energyCharge (k : Nat)
  /-- THERMAL_MODEL_STEP (R498): Every 100 µs each die's four-node thermal model steps. The die, numbered as for SNAPRD; its domain energies of the last 100 µs, µJ. -/
  | thermalModelStep (d : Nat) (energy : List Nat)
  /-- THERMAL_EVALUATION (R503): A die's model is evaluated against the thresholds at its chosen interval. -/
  | thermalEvaluation (d : Nat)
  /-- HW_MODEL_EVALUATION (R501): Every 100 µs the hardware copy of each model steps and is compared. -/
  | hwModelEvaluation (d : Nat)
  /-- STRUCK_MODEL_STEP (R510): Every 100 ms in STRUCK, the AON steps the models and tests the restart conditions. -/
  | struckModelStep
  /-- DIODE_READING (R500): Once a second each die reads its diode and moves its model offset. In 1/64 °C. -/
  | diodeReading (d : Nat) (value : Int)
  /-- REFERENCE_COMPENSATION (R187): Every 100 µs the references are adjusted by the modelled temperature. -/
  | referenceCompensation (d : Nat)
  /-- AON_OSC_CORRECTION (R512): Each second the AON oscillator's frequency correction is updated. The error measured against REFCLK, 0.001 ppm. -/
  | aonOscCorrection (err : Int)
  /-- VIN_UNDERVOLTAGE (R491): VIN below 3.0 V for 100 µs sets uv and starts the slice's safety sequence. -/
  | vinUndervoltage (k : Nat)
  /-- VIN_GLITCH (R491): The AON glitch detector sees a VIN glitch, which becomes tamper source 1. -/
  | vinGlitch
  /-- VBAT_LOW (R493): VBAT below 2.3 V for 1 s sets vblow and logs. -/
  | vbatLow (mv : BitVec 16)
  /-- VBAT_LOST (R493): VBAT below 1.8 V while the AON domain runs from it makes retained state untrusted. -/
  | vbatLost
  /-- VBAT_GLITCH (R493): A VBAT glitch becomes tamper source 2. -/
  | vbatGlitch
  /-- TAMPER_EVENT (R544): A tamper source fires and its class (Log, Lock or Erase) is applied. The source, 0 to 6 of R543. -/
  | tamperEvent (src : Nat)
  /-- MESH_TAMPER (R543): The in-package mesh opens or shorts. -/
  | meshTamper
  /-- LID_TAMPER (R543): TAMP_LID has been high for 1 ms. The level of TAMP_LID. -/
  | lidTamper (high : Bool)
  /-- TEMPERATURE_TAMPER (R543): A modelled temperature or diode is out of range. The die, numbered as for SNAPRD. -/
  | temperatureTamper (die : Nat)
  /-- JTAG_INSTRUCTION (R547): A JTAG instruction is loaded and served or replaced by BYPASS. -/
  | jtagInstruction (j : Jtag)
  /-- DEBUG_UNLOCK (R547): A signed unlock response is verified and opens a debug session at its level. -/
  | debugUnlock (level : Nat) (key sig : List Byte)
  /-- KEY_GENERATE (R540): sec.kcmd op 1 makes and wraps a new media key. The core whose store it is, and the store's fields. -/
  | keyGenerate (c : Nat) (own : Bool) (drive : BitVec 2) (offset : BitVec 10)
  /-- KEY_LOAD (R540): sec.kcmd op 2 unwraps a media key. -/
  | keyLoad (c : Nat) (own : Bool) (drive : BitVec 2) (offset : BitVec 10)
  /-- KEY_EVICT (R540): sec.kcmd op 3 removes a media key. -/
  | keyEvict (c : Nat) (own : Bool) (drive : BitVec 2)
  /-- KEY_EVICT_DRIVE (R540): sec.kcmd op 4 removes all of a drive's media keys. -/
  | keyEvictDrive (c : Nat) (own : Bool) (drive : BitVec 2)
  /-- KEY_CREATE_KEK (R540): sec.kcmd op 5 creates a KEK. -/
  | keyCreateKek (c : Nat) (own : Bool)
  /-- KEY_ESCROW (R540): sec.kcmd op 6 writes a KEK's escrow blob. -/
  | keyEscrow (c : Nat) (own : Bool) (offset : BitVec 10)
  /-- KEY_COMMAND_END (R542): A key-store command ends and its result appears in sec.kstat. -/
  | keyCommandEnd
  /-- FUSE_BURN_OEM_HASH (R549): sec.fprog targets 0 to 3 burn an OEM key hash. The core whose store it is, the slot, whether the burn verified. -/
  | fuseBurnOemHash (c : Nat) (own : Bool) (target : BitVec 2) (verified : Bool)
  /-- FUSE_REVOKE_SLOT (R549): sec.fprog targets 4 to 7 revoke an OEM slot. -/
  | fuseRevokeSlot (c : Nat) (own : Bool) (target : BitVec 2) (verified : Bool)
  /-- SVN_BURN (R549): A write to sec.svn above the floor burns the floor upward. -/
  | svnBurn (c : Nat) (own : Bool) (value : BitVec 6)
  /-- CORE_RELEASE (R526): A write to sec.rel releases a deck core to run the start code at sec.entry. -/
  | coreRelease (c : Nat) (own : Bool) (mask : BitVec 32)
  /-- ENSIGN_CLOSE (R532): A write to sec.ens close closes the open activation record. -/
  | ensignClose
  /-- ENSIGN_FLASH_APPEND (R535): A closed record is appended to the flash history, erasing the oldest sector when full. Whether the flash program succeeded. -/
  | ensignFlashAppend (ok : Bool)
  /-- BOOT_RECORD_TIMEOUT (R528): The boot record is still open 60 s after release and closes unsealed. -/
  | bootRecordTimeout
  /-- ACTIVATION_RECORD_TIMEOUT (R532): The activation record closes at t plus 2 s. -/
  | activationRecordTimeout
  /-- BOOT_ROM_START (R523): Lead core 0 runs the boot ROM, chooses a slot, verifies and jumps to stage 1. -/
  | bootRomStart
  /-- BOOT_RETRY (R522): With no valid slot, the ROM retries every 10 s. -/
  | bootRetry
  /-- RING_BLOCK_LOCK (R557): Both ring inputs have held block lock for 1 ms, and the package sends FORM. -/
  | ringBlockLock
  /-- FORM_RECEIVED (R557): A FORM frame is forwarded, abandoned or returns to its source, which becomes root. The port, 0 A or 1 B; the blocks, header to trailer; whether a present package has its ring time locked. -/
  | formReceived (port : Nat) (blocks : List Word) (othersLocked : Bool)
  /-- FORMED_RECEIVED (R557): Both parts of FORMED arrive, and the package enters the formed state. -/
  | formedReceived (port : Nat) (blocks : List Word)
  /-- PROBE_RECEIVED (R562): A PROBE is returned on ring B with the residence time. The residence time in 1/16 ns. -/
  | probeReceived (port : Nat) (blocks : List Word) (residence : Nat)
  /-- PROBE_REPLY_RECEIVED (R562): The PROBE reply gives the link delay. -/
  | probeReplyReceived (port : Nat) (blocks : List Word)
  /-- TIME_SEND (R562): Every 1 ms the root broadcasts a TIME frame. -/
  | timeSend
  /-- TIME_RECEIVED (R562): A TIME frame corrects ring time and updates tlock. -/
  | timeReceived (port : Nat) (blocks : List Word) (residence : Nat)
  /-- RING_INPUT_DOWN (R564): A ring input goes down, and the package wraps and sends WRAP. The input, 0 A or 1 B; the rotation that the root measures afterwards, ns. -/
  | ringInputDown (port rot : Nat)
  /-- WRAP_RECEIVED (R564): A WRAP request makes the neighbour wrap, or a WRAP announcement is noted. -/
  | wrapReceived (port : Nat) (blocks : List Word) (rot : Nat)
  /-- WRAP_HEAL_TEST (R565): Every 1 ms a wrap point tests its silent input and heals after 10 ms of lock. Whether the silent input has held block lock for 10 ms. -/
  | wrapHealTest (port : Nat) (held : Bool)
  /-- RING_FRAME_FORWARD (R555): A frame not addressed here is forwarded in priority order, or removed. -/
  | ringFrameForward (port : Nat) (blocks : List Word)
  /-- LEND (R567): hr.lend op 1 lowers Rs and sends a LOAN offer. -/
  | lend (peer : BitVec 9) (rate : BitVec 16)
  /-- RECALL (R567): hr.lend op 2 sends a LOAN recall. -/
  | recall (loan : BitVec 16)
  /-- RETURN_LOAN (R567): hr.lend op 3 returns a borrowed rate. -/
  | returnLoan (peer : BitVec 9) (loan : BitVec 16)
  /-- WRITE_OFF (R571): hr.lend op 4 removes a lent loan without the borrower. -/
  | writeOff (loan : BitVec 16)
  /-- LOAN_OFFER_RECEIVED (R567): The borrower adds the rate and accepts, or refuses. -/
  | loanOfferReceived (port : Nat) (blocks : List Word)
  /-- LOAN_ACCEPT_RECEIVED (R567): The lender marks the loan in force. -/
  | loanAcceptReceived (port : Nat) (blocks : List Word)
  /-- LOAN_REFUSE_RECEIVED (R567): The lender restores the rate. -/
  | loanRefuseReceived (port : Nat) (blocks : List Word)
  /-- LOAN_RECALL_RECEIVED (R567): The borrower drops the rate if the loan is in force, and sends return. -/
  | loanRecallReceived (port : Nat) (blocks : List Word)
  /-- LOAN_RETURN_RECEIVED (R567): The lender restores the rate of an outstanding loan. -/
  | loanReturnReceived (port : Nat) (blocks : List Word)
  /-- LOAN_CONFIRM_RECEIVED (R570): The lender records the loans that its borrower confirms. -/
  | loanConfirmReceived (port : Nat) (blocks : List Word)
  /-- LOAN_RESEND (R567): An unanswered offer or recall is resent after 8 rotations. -/
  | loanResend (entry : Nat)
  /-- LOAN_SETTLEMENT (R570): Four rotations after FORMED, the lender settles unconfirmed loans. -/
  | loanSettlement
  /-- SNAP_FRAME_RECEIVED (R573): A SNAP frame schedules, settles or misses a ring snapshot. -/
  | snapFrameReceived (port : Nat) (blocks : List Word)
  /-- MSG_RECEIVED (R576): A MSG is delivered to the receive queue or dropped, and an ACK is sent for a unicast. -/
  | msgReceived (port : Nat) (blocks : List Word)
  /-- ACK_RECEIVED (R576): An ACK reports a message delivered or dropped. -/
  | ackReceived (port : Nat) (blocks : List Word)
  /-- MSG_ACK_TIMEOUT (R576): No ACK within 4 rotations counts the message as lost. -/
  | msgAckTimeout (seq : Nat)
  /-- LANE_FAILURE (R20): A die-link lane fails, and its traffic moves to the spare lane. -/
  | laneFailure (link dir lane : Nat)
  /-- LINK_CRC_REPLAY (R19): A die-link transfer fails its CRC and is replayed. -/
  | linkCrcReplay
  /-- REFCLK_LOSS (R36): REFCLK stops or leaves its range for 10 µs, raising tamper, safety sequences and a controlled stop. -/
  | refclkLoss
  /-- TRAY_CLAMP_CHANGE (R639): A debounced TRAY_N or CLAMP_N change updates fe.io and the clamp interlock. -/
  | trayClampChange (k : Nat) (tray clamp : Bool)
  /-- SAFE_WRITE (R639): A write of safe to fe.io drives SAFE_N, refused while anything is live. -/
  | safeWrite (k : Nat) (v : Bool)
  /-- SAFETY_SEQUENCE_STAGE (R509): A timed stage of the safety sequence is reached: short brake, coil ramp end or park end. 1 brake, 2 coils at rest, 3 sleds parked, 4 spindle below 60 rpm. -/
  | safetySequenceStage (k stage : Nat)
  /-- SAFETY_SPINDLE_TIMEOUT (R509): After 10 s without the spindle below 60 rpm, the gates turn off all the same. -/
  | safetySpindleTimeout (k : Nat)
  /-- SAFETY_SEQUENCE_END (R509): Park ended and gates off; outputs take reset states. -/
  | safetySequenceEnd (k : Nat)
  /-- POWER_UP (R585): The rails have been in range for 2 ms; a kind 1 reset runs the hardware phase and releases lead core 0. Milliseconds without power. -/
  | powerUp (elapsed : Nat)
  /-- BROWN_OUT (R490): A rail below its minimum for 2 µs resets every die as kind 2. The F-dies whose own rails stay in range. -/
  | brownOut (powered : BitVec 4)
  /-- PIN_RESET (R583): SYS_RST_N held low for 1 µs starts a kind 3 reset, or ends a controlled stop. -/
  | pinReset
  /-- FIRMWARE_RESET (R584): A keyed write to rst.ctl by lead core 0 starts a kind 4 reset. -/
  | firmwareReset (c : Nat) (own : Bool) (key : BitVec 16) (go : Bool)
  /-- STOP_AUTO_RESTART (R607): 10 s after a stop with auto set, a kind 6 reset starts. -/
  | stopAutoRestart
  /-- STOP_RESTART (R607): A stop-ending event arrives and starts a kind 6 reset once the safety sequences have ended. -/
  | stopRestart
  /-- CORE_WATCHDOG_KICK (R600): A write to rst.ckick restarts the writing core's watchdog. -/
  | coreWatchdogKick (c : Nat) (own : Bool)
  /-- CORE_WATCHDOG_EXPIRY (R600): A core's watchdog expires, which is a deck-core fault. -/
  | coreWatchdogExpiry (c : Nat)
  /-- DECK_CORE_RESTART (R601): The core restarts at Supervisor level at rst.cent. -/
  | deckCoreRestart (c : Nat)
  /-- PACKAGE_WATCHDOG_KICK (R605): A write to rst.wdk restarts the package watchdog. -/
  | packageWatchdogKick
  /-- PACKAGE_WATCHDOG_EXPIRY (R605): The package watchdog expires and starts a controlled stop with code 8. -/
  | packageWatchdogExpiry
  /-- DELETE_IO_SQ (R435): Admin Delete I/O Submission Queue. -/
  | deleteIoSq (sqe : List Byte)
  /-- DELETE_IO_CQ (R435): Admin Delete I/O Completion Queue. -/
  | deleteIoCq (sqe : List Byte)
  /-- CREATE_IO_SQ (R435): Admin Create I/O Submission Queue. -/
  | createIoSq (sqe : List Byte)
  /-- CREATE_IO_CQ (R435): Admin Create I/O Completion Queue. -/
  | createIoCq (sqe : List Byte)
  /-- GET_LOG_PAGE (R448): Admin Get Log Page, for standard and vendor pages. -/
  | getLogPage (sqe : List Byte)
  /-- IDENTIFY (R435): Admin Identify for the supported CNS values. -/
  | identify (sqe : List Byte)
  /-- ABORT (R454): Admin Abort catches a command that has been accepted and not yet taken. -/
  | abort (sqe : List Byte)
  /-- SET_FEATURES (R441): Admin Set Features for standard features without a row of their own. -/
  | setFeatures (sqe : List Byte)
  /-- GET_FEATURES (R442): Admin Get Features with SEL current, default, saved or capabilities. -/
  | getFeatures (sqe : List Byte)
  /-- SET_SERVICE_CLASSES (R443): Feature 0xC0 binds queues to classes and deadlines. The data the host supplies. -/
  | setServiceClasses (sqe data : List Byte)
  /-- SET_POWER_MODE (R444): Feature 0xC1 or 0x02 selects the power mode. -/
  | setPowerMode (sqe : List Byte)
  /-- SET_VERIFY_POLICY (R445): Feature 0xC2 sets a class's write-verify policy. -/
  | setVerifyPolicy (sqe : List Byte)
  /-- SET_RETRY_DEPTH (R445): Feature 0xC3 sets a class's retry-ladder depth. -/
  | setRetryDepth (sqe : List Byte)
  /-- SET_BEAM_COUNT (R446): Feature 0xC4 sets a drive's beam count. -/
  | setBeamCount (sqe : List Byte)
  /-- SET_IO_COMMAND_SET_PROFILE (R434): Feature 0x19 selects the NVM or zoned profile. -/
  | setIoCommandSetProfile (sqe : List Byte)
  /-- SET_TIMESTAMP (R441): Feature 0x0E sets the AON real-time clock. The data the host supplies. -/
  | setTimestamp (sqe data : List Byte)
  /-- SET_VOLATILE_WRITE_CACHE (R437): Feature 0x06 sets WCE. -/
  | setVolatileWriteCache (sqe : List Byte)
  /-- ASYNCHRONOUS_EVENT_REQUEST (R459): Admin Asynchronous Event Request held until an event is raised. -/
  | asynchronousEventRequest (sqe : List Byte)
  /-- FIRMWARE_IMAGE_DOWNLOAD (R457): Admin download of an image part. The data the host supplies. -/
  | firmwareImageDownload (sqe data : List Byte)
  /-- FW_COMMIT_STORE (R457): Firmware Commit action 0 stores an image into a slot. -/
  | fwCommitStore (sqe : List Byte)
  /-- FW_COMMIT_STORE_ACTIVATE (R457): Firmware Commit action 1 stores and activates at the next reset. -/
  | fwCommitStoreActivate (sqe : List Byte)
  /-- FW_COMMIT_ACTIVATE_SLOT (R457): Firmware Commit action 2 activates an existing slot at the next reset. -/
  | fwCommitActivateSlot (sqe : List Byte)
  /-- FW_COMMIT_ACTIVATE_NOW (R458): Firmware Commit action 3 stores and fixes an activation point without reset. -/
  | fwCommitActivateNow (sqe : List Byte)
  /-- FIRMWARE_ACTIVATION_POINT (R458): At t the deck cores restart on the new image and an activation record opens. -/
  | firmwareActivationPoint
  /-- FLUSH (R453): I/O Flush completes when the covered Writes are durable. -/
  | flush (sqid : Nat) (sqe : List Byte)
  /-- WRITE (R437): I/O Write stages blocks, with FUA making them durable first. -/
  | write (sqid : Nat) (sqe : List Byte)
  /-- READ (R436): I/O Read of logical blocks. -/
  | read (sqid : Nat) (sqe : List Byte)
  /-- VERIFY (R436): I/O Verify reads and decodes without transfer. -/
  | verify (sqid : Nat) (sqe : List Byte)
  /-- RESET_ZONE (R439): Zone Management Send Reset Zone, allowed only on an Empty zone. -/
  | resetZone (sqid : Nat) (sqe : List Byte)
  /-- FINISH_ZONE (R439): Zone Management Send Finish Zone, which is refused. -/
  | finishZone (sqid : Nat) (sqe : List Byte)
  /-- OPEN_ZONE (R439): Zone Management Send Open Zone. -/
  | openZone (sqid : Nat) (sqe : List Byte)
  /-- CLOSE_ZONE (R439): Zone Management Send Close Zone. -/
  | closeZone (sqid : Nat) (sqe : List Byte)
  /-- ZONE_MANAGEMENT_RECEIVE (R438): Returns zone descriptors. -/
  | zoneManagementReceive (sqid : Nat) (sqe : List Byte)
  /-- ZONE_APPEND (R439): Writes at a zone's write pointer. -/
  | zoneAppend (sqid : Nat) (sqe : List Byte)
  /-- VERSION_READ (R440): Reads one logical block at a named or the latest version. -/
  | versionRead (sqid : Nat) (sqe : List Byte)
  /-- CONTROLLER_RESET (R455): CC.EN goes 1 to 0; queues are deleted and commands aborted. -/
  | controllerReset
  /-- CONTROLLER_ENABLE (R586): CC.EN is written to 1; RDY sets once firmware starts the host port. CC, the sizes in AQA, whether firmware has started the host port. -/
  | controllerEnable (cc : BitVec 32) (asqs acqs : BitVec 12) (started : Bool)
  /-- FUNCTION_LEVEL_RESET (R455): A function-level reset of the PCIe function. -/
  | functionLevelReset
  /-- HOT_RESET (R455): A hot reset, link down or PERST# assertion. Whether PERST# is asserted. -/
  | hotReset (perst : Bool)
  /-- PERST_DEASSERT (R426): PERST# is deasserted, and the link becomes ready for training. -/
  | perstDeassert
  /-- NORMAL_SHUTDOWN (R456): CC.SHN 01b drains staged blocks until SHST reads 10b. -/
  | normalShutdown
  /-- ABRUPT_SHUTDOWN (R456): CC.SHN 10b shuts down within 1 ms. -/
  | abruptShutdown
  /-- READ_NVME_MI_DATA_STRUCTURE (R460): NVMe-MI Read NVMe-MI Data Structure. -/
  | readNvmeMiDataStructure (dtyp port : BitVec 8)
  /-- SUBSYSTEM_HEALTH_STATUS_POLL (R460): NVMe-MI NVM Subsystem Health Status Poll. -/
  | subsystemHealthStatusPoll
  /-- CONTROLLER_HEALTH_STATUS_POLL (R460): NVMe-MI Controller Health Status Poll. -/
  | controllerHealthStatusPoll
  /-- CONFIGURATION_GET (R460): NVMe-MI Configuration Get. -/
  | configurationGet (id : BitVec 8)
  /-- CONFIGURATION_SET (R460): NVMe-MI Configuration Set of SMBus frequency or MCTP unit. -/
  | configurationSet (id : BitVec 8) (value : BitVec 16)
  /-- VPD_READ (R460): NVMe-MI VPD Read. -/
  | vpdRead (off len : BitVec 16)
  /-- TUNNELLED_ADMIN_COMMAND (R460): Tunnelled Identify, Get Log Page or Get Features over NVMe-MI. -/
  | tunnelledAdminCommand (sqe : List Byte)
  /-- BASIC_MANAGEMENT_COMMAND (R460): The NVMe-MI Basic Management Command at address 0x6A. -/
  | basicManagementCommand
  /-- SET_ENDPOINT_ID (R461): MCTP Set Endpoint ID assigns the endpoint ID. -/
  | setEndpointId (eid : BitVec 8)
  /-- GET_VERSION (R461): SPDM GET_VERSION. The transport, 0 PCIe or 1 SMBus, and the request's bytes. -/
  | getVersion (tr : Nat) (req : List Byte)
  /-- GET_CAPABILITIES (R461): SPDM GET_CAPABILITIES. -/
  | getCapabilities (tr : Nat) (req : List Byte)
  /-- NEGOTIATE_ALGORITHMS (R461): SPDM NEGOTIATE_ALGORITHMS. -/
  | negotiateAlgorithms (tr : Nat) (req : List Byte)
  /-- GET_DIGESTS (R461): SPDM GET_DIGESTS. -/
  | getDigests (tr : Nat) (req : List Byte)
  /-- GET_CERTIFICATE (R537): SPDM GET_CERTIFICATE for slot 0. -/
  | getCertificate (tr : Nat) (req : List Byte) (slot off len : BitVec 16)
  /-- CHALLENGE (R537): SPDM CHALLENGE, signed by the Alias key. -/
  | challenge (tr : Nat) (req : List Byte) (slot : BitVec 8)
  /-- GET_MEASUREMENTS (R537): SPDM GET_MEASUREMENTS returning the signed measurement blocks. -/
  | getMeasurements (tr : Nat) (req : List Byte) (index : BitVec 8) (signed : Bool)
  /-- ILLEGAL_INSTRUCTION (R50): A deck core fetches a word whose major opcode or encoding is illegal, such as erased memory, and traps with cause 0x01. -/
  | illegalInstruction (c : Nat) (w : Word32)
  /-- TIMER_EVENT_PENDING (R69): s.cycle reaches s.timecmp, so timer event 0x20 pends and may wake a WFE or be taken. -/
  | timerEventPending (c : Nat)
  /-- SYS_RST_N_RELEASE (R583): SYS_RST_N rises after holding a kind 3 or kind 6 reset, and the held power-up then runs. -/
  | sysRstNRelease
  /-- TIME_FRAMES_MISSED (R562): Eight consecutive expected TIME frames fail to arrive, and hr.stat.tlock clears. -/
  | timeFramesMissed
  /-- FORMED_PART_TIMEOUT (R554): One part of a FORMED pair has waited a rotation without its partner, and the package discards it. -/
  | formedPartTimeout
  /-- FIRMWARE_ACTIVATION_COMPLETE (R458): The deck cores finish restarting on the new image; the activation window ends, the Commit completes and held commands may be taken. -/
  | firmwareActivationComplete
  /-- VDDQ_OUT_OF_RANGE (R507): While the package is in STRUCK, VDDQ leaves its range, and the AON domain sets tm.last.gkept to 0. -/
  | vddqOutOfRange
  deriving DecidableEq, Repr

end Sys2Proof
end

