-- ==== Sys2Proof/Config.lean ====
section
/-! DEFINITION. What the spec leaves open: every constant below is opaque, so no proof can see a value of it.
`freeWord` and `freeNat` are applied to State's plain counter `free`, which a step that uses one advances, so that
each use is a fresh free value (log entry 3). The cryptographic functions are named by the spec (SHA-384, ECDSA
P-384, HKDF, AES-256-GCM, AES-256-XTS, a DRBG) and defined by other standards; they stand here uninterpreted
(log entry 4). -/

namespace Sys2Proof.Config

/-- The n-th free 64-bit value (log entry 3). -/
opaque freeWord : Nat → Word
/-- The n-th free count (log entry 3). -/
opaque freeNat : Nat → Nat
/-- Contents of the boot ROM, which the spec does not give (R88, R523; log entry 5). -/
opaque romByte : Nat → Byte

/-- SHA-384 of a byte string: 48 bytes. -/
opaque sha384 : List Byte → List Byte
/-- HKDF-SHA-384 of input key material, a salt and an info string. -/
opaque hkdf : List Byte → List Byte → List Byte → List Byte
/-- The P-384 ECDH shared x coordinate of a secret and a public key. -/
opaque ecdh : List Byte → List Byte → List Byte
/-- An ECDSA P-384 signature by the key with this name over these bytes. -/
opaque sign : List Byte → List Byte → List Byte
/-- Whether a P-384 signature of these bytes verifies under this public key. -/
opaque verify : List Byte → List Byte → List Byte → Bool
/-- AES-256-GCM under a key and a nonce, with additional data: the ciphertext of a plaintext, its tag of 16 bytes
appended. -/
opaque gcmSeal : List Byte → List Byte → List Byte → List Byte → List Byte
/-- AES-256-GCM unwrap of a ciphertext with its tag; none when the tag fails. -/
opaque gcmOpen : List Byte → List Byte → List Byte → List Byte → Option (List Byte)
/-- AES-256-XTS of a block under a key and a tweak, and its inverse. -/
opaque xtsEnc : List Byte → Nat → List Byte → List Byte
opaque xtsDec : List Byte → Nat → List Byte → List Byte
/-- The public half of a key pair derived from a secret. -/
opaque pubKey : List Byte → List Byte
/-- Output of the DRBG: byte i of the n-th draw (R538). -/
opaque drbg : Nat → Nat → Byte
/-- The unique device secret, and Nimholt's key hash and certificates, which each die is made with (R517, R537). -/
opaque uds : List Byte
opaque vendorHash : List Byte
opaque certificates : List Byte
/-- A certificate's DER bytes: of an issuer's private key, for a public key, with a serial number and TcbInfo values, issued at an
RTC time (R525). -/
opaque certificate : List Byte → List Byte → List Byte → List Byte → Nat → List Byte
/-- The protocol state of a loan-ledger entry as its retained bytes give it: state, tries and send time (R589). -/
opaque ledgerState : Nat → Nat → Nat → Nat
/-- Device status words of the retained SRAM: byte i, for the values kept there (R589). -/
opaque statusByte : List Nat → Nat → Byte
/-- The staging area of RETAIN as its retained bytes give it: byte i, for the section it names, the sequence, the mark and the
section's bytes (R592). -/
opaque stagingByte : Nat → Nat → Bool → List Byte → Nat → Byte

/-- The line of a deck core's instruction cache that holds an instruction at a place of the physical map: its size and its
naming the spec does not give (R66; log entry 118). -/
opaque icacheLine : Nat → Nat
/-- Bytes of the data structures of NVMe, NVMe-MI and the VPD that the spec leaves to those specifications: of structure
`id`, selected by `sel`, byte i (log entry 32). -/
opaque nvmeByte : Nat → Nat → Nat → Byte
/-- Tap j of phase p of the resampler's filter, in units of 1/16,384, and the gain and the baseline that its loops have reached: by the beam
and the ADC samples so far (R302; log entry 136). -/
opaque resampleTap : Nat → Nat → Int
opaque resampleGain : Nat → List Int → Rat
opaque resampleBase : Nat → List Int → Rat
/-- Expected level of a symbol from its first-pass metrics over L0 to L3 and the levels' values (R306; log entry 136). -/
opaque expectedLevel : List Rat → List Rat → Rat
/-- What the adaptation with a step makes of a training shadow and a frame's corrected payload, in its nth run, and the frame's mean
squared error (R337; log entry 136). -/
opaque adapted : Rat → List Byte → List Byte → Nat → List Byte
opaque trainError : List Byte → List Byte → Nat → Nat
/-- What a step of the thermal model gives a quotient whose coefficient firmware has set to 0 (R498; log entry 112). -/
opaque overZero : Rat → Rat

end Sys2Proof.Config
end

