-- ==== Sys2Proof/Machine/State.lean ====
section
/-! DEFINITION. The state of the device: everything the spec gives it, as plain data, and its state right after a
package reset. A register page lives in `regs`, keyed by physical address (R88, R619, R622); a field that hardware
computes from typed state (a queue head, a free count, the timebase) has its one home there and is computed on a
read. -/

namespace Sys2Proof.Machine

/-- The part of the family (R1, R616). -/
inductive Part where
  | zoa820 | zoa840 | zoa860 | zoa880
  deriving DecidableEq, Repr, Inhabited

/-- The revisions issued (R617). -/
inductive Rev where
  | a1 | b0 | b1
  deriving DecidableEq, Repr, Inhabited

/-- A deck core's level (R43): the code 0b10 never occurs, so it has no constructor. -/
inductive Level where
  | task | supervisor | boot
  deriving DecidableEq, Repr, Inhabited

/-- Whether a deck core executes: held in reset (R526), running, stalled in a WFE (R67), stopped by a deck-core
fault (R601), or halted by debug (R547). -/
inductive Run where
  | inReset | running | wfe | stopped | halted
  deriving DecidableEq, Repr, Inhabited

/-- A notice of ab.ntc (R483). -/
structure Notice where
  code : Nat
  value : Nat
  ident : Nat
  deriving DecidableEq, Repr, Inhabited

/-- One deck core (R41, R69 to R76, R147, R483, R600, R655). -/
structure Core where
  run : Run := .inReset
  level : Level := .boot
  g : Vector Word 32 := Vector.replicate 32 0
  p : BitVec 8 := 1
  pc : Word := 0
  status : Word := 0
  epc : Word := 0
  cause : Word := 0
  eaddr : Word := 0
  einfo : Word := 0
  estatus : Word := 0
  evbase : Word := 0
  evmask : Word := 0
  timecmp : Word := 0xFFFF_FFFF_FFFF_FFFF
  scratch0 : Word := 0
  scratch1 : Word := 0
  rgnBase : Vector Word 64 := Vector.replicate 64 0
  rgnAttr : Vector Word 64 := Vector.replicate 64 0
  bar : Word := 0
  /-- Completion tags queued (R147, R621), at most 128, oldest first. -/
  cq : List Nat := []
  /-- Completion tags that found the queue full, in the order their operations ended (R147). -/
  cqWait : List Nat := []
  /-- Notices queued, oldest first, and the lost mark (R483). -/
  ntc : List Notice := []
  ntcLost : Bool := false
  /-- db.pend (R73): bit s set while core s has rung. -/
  dbPend : BitVec 32 := 0
  /-- cer (R655): pend, cnt, src. -/
  cerPend : Bool := false
  cerCnt : Nat := 0
  cerSrc : Nat := 0
  /-- flt.ack (R610). -/
  fltAck : Nat := 0
  /-- Sequence number of the record of the core's last fault, which its restart reports (R601). -/
  stopSeq : Nat := 0
  /-- Timebase of the last watchdog kick, while the core is halted the time since then, which stands still; and timebase of the
  last restart (R600, R604 code 10). -/
  kickAt : Nat := 0
  restartAt : Option Nat := none
  /-- An uncorrectable error stands in the register file or the pipeline's state (R600). -/
  broken : Bool := false
  deriving DecidableEq, Repr, Inhabited

/-- Error state of a memory word or byte (R414 to R416): clean, holding a correctable error, or uncorrectable
(poisoned included). -/
inductive Ecc where
  | clean | corr | bad
  deriving DecidableEq, Repr, Inhabited

/-- A line a staging cache holds, or, in a sectored way, 0 to 3, a sub-block of a sector (R400 to R405): its way, its physical address (a multiple of 128), and, while it is
dirty, the bytes and word states GDDR6 holds beneath it. `latent` are errors injected at a write-back of a line that
stayed valid: they show when the line leaves. -/
structure Line where
  die : Nat
  way : Nat
  addr : Nat
  dirty : Bool := false
  under : List Byte := []
  underEcc : List Ecc := []
  latent : List (Nat × Ecc) := []
  /-- Bytes of the line whose code in the cache's data array is in error, by address (R414 to R417). -/
  errs : List (Nat × Ecc) := []
  /-- The codes of the two copies of the line's tag (R414). -/
  tags : Ecc × Ecc := (.clean, .clean)
  deriving DecidableEq, Repr, Inhabited

/-- What CLOCKW made of a way (R130). -/
inductive Lock where
  | none | scratch | range (base : Nat)
  deriving DecidableEq, Repr, Inhabited

/-- One way of a staging cache: its lock and whether a self-test withdrew it (R421). -/
structure Way where
  lock : Lock := .none
  withdrawn : Bool := false
  deriving DecidableEq, Repr, Inhabited

/-- A running buffer test (R422) of die `die`. -/
structure BufTest where
  handle : Nat
  core : Nat
  deriving DecidableEq, Repr, Inhabited

/-- The staging caches and the memory tests of every C-die (R400 to R423). -/
structure Cache where
  lines : List Line := []
  /-- Keyed die * 16 + way. -/
  ways : Tbl Way := []
  /-- The pseudo-LRU tree of each set, keyed 32,768 * die + set, a sector set's after the 16,384 others (R401, R404):
  bit n is 1 while the next victim lies on the right of node n, of which 1 is the root and 16 + w the leaf of way w. -/
  plru : Tbl Nat := []
  /-- The way under test on die d (R421). -/
  wayTest : Tbl (Option Nat) := []
  bufTest : Tbl (Option BufTest) := []
  deriving DecidableEq, Repr, Inhabited

/-- One buffer index (R109 to R113, R378 to R380): free exactly when it has no owner. -/
structure Buf where
  gen : BitVec 8 := 0
  owners : List Nat := []
  deriving DecidableEq, Repr, Inhabited

/-- One FIFO entry (R386, R389). -/
structure Entry where
  data : BitVec 256 := 0
  burgee : Bool := false
  last : Bool := false
  first : Bool := false
  vb : Nat := 0
  deriving DecidableEq, Repr, Inhabited

/-- A trace or capture FIFO (R386 to R396): visible entries, the open item's words, the gap since the last burgee
(items, words, reason of the first drop, its time, and whether the item count is unknown), whether words are dropped
until the next start of an item, the read latch, and the perr and ovr marks. -/
structure Fifo where
  vis : List Entry := []
  item : Option (List (BitVec 32)) := none
  skip : Bool := false
  /-- A drop closed an item the gap counts when the next one starts. -/
  gap : Bool := false
  gapItems : Nat := 0
  gapWords : Nat := 0
  gapReason : Nat := 0
  gapFirst : Nat := 0
  gapUnknown : Bool := false
  /-- Items dropped so far (R385). -/
  dropped : Nat := 0
  latch : BitVec 256 := 0
  perr : Bool := false
  ovr : Bool := false
  deriving DecidableEq, Repr, Inhabited

/-- A scheduled local snapshot (R125): its LOOP tick and its epoch. -/
structure SnapReq where
  tick : Nat
  epoch : Nat
  deriving DecidableEq, Repr, Inhabited

/-- A pending ring snapshot (R572, R573): its ring time T, N, and the issuer's position. -/
structure SnapRing where
  time : Nat
  n : Nat
  src : Nat
  deriving DecidableEq, Repr, Inhabited

/-- Counter units and shadows (R612, R624, R625). Units are keyed die * 1024 + unit, dies as for SNAPRD. A latch
copies every unit at once, so one epoch, one latch time and one ring time serve every shadow. -/
structure Snap where
  count : Tbl Word := []
  value : Tbl Word := []
  prev : Tbl Word := []
  epoch : Nat := 0
  tlatch : Nat := 0
  rtime : Nat := 0
  localNext : Nat := 1
  pending : Option SnapReq := none
  ring : Option SnapRing := none
  deriving DecidableEq, Repr, Inhabited

/-- Where a command slot's command stands: none yet, waiting in a dispatch queue, started by a deck core, or ended
(it keeps its slot until the slot is used again, R122). -/
inductive Phase where
  | free | queued | taken | ended
  deriving DecidableEq, Repr, Inhabited

/-- How a command ended (R122, R455). -/
inductive Ended where
  | firmware | guard | aborted
  deriving DecidableEq, Repr, Inhabited

/-- One command slot (R117 to R123, R463 to R482). Times in ns of the device timebase; held and spent
energy in µJ, of which a pennant is 10,000. -/
structure Slot where
  gen : BitVec 8 := 0
  phase : Phase := .free
  ended : Ended := .firmware
  job : Bool := false
  sqe : List Byte := []
  sqid : Nat := 0
  opcode : Nat := 0
  drive : Nat := 0
  /-- A Flush of every namespace covers every drive (R436). -/
  allDrives : Bool := false
  cls : Nat := 0
  ordered : Bool := false
  fua : Bool := false
  d : Nat := 0
  key : Nat := 0
  accepted : Nat := 0
  order : Nat := 0
  notBefore : Nat := 0
  cost : Nat := 0
  energy : Nat := 0
  policy : Nat := 0
  depth : Nat := 0
  slba : Nat := 0
  nblocks : Nat := 0
  hasRange : Bool := false
  held : Nat := 0
  spent : Nat := 0
  takenBy : Option Nat := none
  takenAt : Nat := 0
  service : Nat := 0
  /-- A POST-form QDONE naming the command has been accepted (R602). -/
  posting : Bool := false
  /-- Whole blocks a Write has staged (R430, R475). -/
  staged : Nat := 0
  deriving DecidableEq, Repr, Inhabited

/-- One entry of a QDONE's transfer list (R120). -/
structure XferEntry where
  handle : Nat
  first : Nat
  count : Nat
  deriving DecidableEq, Repr, Inhabited

/-- A QDONE in progress (R120): the block it reports into, its core, its tags, its form and what it moves. -/
structure Xfer where
  tag : Nat
  ctag : Nat
  core : Nat
  area : Nat
  post : Bool
  status : Nat
  dw0 : Nat
  dw1 : Nat
  list : List XferEntry
  /-- Set when the guard or a reset ended the command while the transfer ran (R122). -/
  stop : Option Ended := none
  deriving DecidableEq, Repr, Inhabited

/-- A queued GRANT (R481). -/
structure Ticket where
  id : Nat
  core : Nat
  tag : Nat
  count : Nat
  key : Nat
  deriving DecidableEq, Repr, Inhabited

/-- An overrun record (R478, R487). -/
structure Overrun where
  time : Nat
  tag : Nat
  kind : Nat
  cls : Nat
  drive : Nat
  cost : Nat
  service : Nat
  energy : Nat
  spent : Nat
  deriving DecidableEq, Repr, Inhabited

/-- A class's admission counters (R487). -/
structure ClassStat where
  accepted : Nat := 0
  refused13 : Nat := 0
  refused4 : Nat := 0
  refused5 : Nat := 0
  refused6 : Nat := 0
  byFirmware : Nat := 0
  byGuard : Nat := 0
  overruns : Nat := 0
  deriving DecidableEq, Repr, Inhabited

/-- The admission unit, the deadline guard and the pennant arbiter (R463 to R487). -/
structure Adm where
  slots : Tbl Slot := []
  nextSlot : Nat := 0
  nextOrder : Nat := 0
  xfers : List Xfer := []
  /-- Cost tables in force: doubleword i of drive k at 128 k + i (R467). -/
  ctab : Tbl Word := []
  /-- Staged writes W and hoists H of each drive (R475). -/
  stagedW : Tbl Nat := []
  stagedH : Tbl Nat := []
  /-- The key at which a drive's drain entry was last found late, so that kind 4 is recorded once (R478). -/
  drainSeen : Tbl Nat := []
  trackHigh : Nat := 0
  jobsAccepted : Nat := 0
  jobsRefused : Nat := 0
  stats : Tbl ClassStat := []
  overruns : List Overrun := []
  overrunCount : Nat := 0
  /-- The pools, in µJ (1/10,000 pennant), so that a refill of rate / 10,000 pennants is exact (R480). -/
  heat : Int := 0
  sup : Int := 0
  /-- Fixed draw of the last 100 ms, one entry in pennants per second for each 100 µs (R480). -/
  fixedHist : List Nat := []
  /-- Energy held by the core accounts, in µJ (R124). -/
  accounts : Tbl Nat := []
  tickets : List Ticket := []
  nextTicket : Nat := 0
  /-- Unheld energy of each slice, in µJ (R482). -/
  unheld : Tbl Nat := []
  /-- A lowering mode change waits for the commands accepted before this order number (R484). -/
  modeWait : Option Nat := none
  /-- The fraction of a throttle in force, in 1/64 (R505, R506). -/
  throttle : Option Nat := none
  deriving DecidableEq, Repr, Inhabited

/-- A fault-log record (R608). -/
structure FaultRec where
  seq : Nat
  time : Nat
  boot : Nat
  code : Nat
  die : Nat
  unit : Nat
  slice : Nat
  core : Nat
  detail : Word
  deriving DecidableEq, Repr, Inhabited

/-- A submission queue (R428, R435): its depth and where it lies are the host's; the class is bound by feature 0xC0. -/
structure SubQ where
  size : Nat
  cqid : Nat
  head : Nat := 0
  tail : Nat := 0
  deriving DecidableEq, Repr, Inhabited

/-- A completion queue (R428, R435). -/
structure CompQ where
  size : Nat
  head : Nat := 0
  tail : Nat := 0
  phase : Bool := true
  ien : Bool := false
  iv : Nat := 0
  deriving DecidableEq, Repr, Inhabited

/-- A completion entry the host port posts to host memory (NVMe; R120, R449). -/
structure Cqe where
  cqid : Nat
  sqid : Nat
  cid : Nat
  sqhd : Nat
  sct : Nat
  sc : Nat
  /-- CRD, M and DNR: bits [15:12] of the Status field, DNR in bit 3 (R120, R449; log entry 24). -/
  more : Nat := 0
  dw0 : Nat
  dw1 : Nat
  phase : Bool
  deriving DecidableEq, Repr, Inhabited

/-- A block of data moved to the host (R120, R430): sent to host memory, which is outside the device. -/
structure HostData where
  sqid : Nat
  cid : Nat
  data : List Byte
  deriving DecidableEq, Repr, Inhabited

/-- An asynchronous event not yet reported (R459): NVMe type, information and log page. -/
structure AsyncEvent where
  type : Nat
  info : Nat
  log : Nat
  deriving DecidableEq, Repr, Inhabited

/-- A downloaded image part (R457): offset and length in bytes. -/
structure Download where
  off : Nat
  data : List Byte
  deriving DecidableEq, Repr, Inhabited

/-- A firmware activation without reset that has been accepted (R458). -/
structure Activation where
  t : Nat
  cid : Nat
  slot : Nat
  started : Bool := false
  /-- Commands were live when it was accepted: it may come early (R458). -/
  waits : Bool := false
  /-- Those commands: the live ones whose order number is below this. -/
  upto : Nat := 0
  deriving DecidableEq, Repr, Inhabited

/-- An SPDM connection of one transport (R461): how far negotiation has come (1 version, 2 capabilities, 3 algorithms),
and the transcripts that the signatures of CHALLENGE and of GET_MEASUREMENTS cover. -/
structure Spdm where
  phase : Nat := 0
  auth : List Byte := []
  meas : List Byte := []
  deriving DecidableEq, Repr, Inhabited

/-- A response sent over a management transport: 0 PCIe, 1 SMBus; its code and its content (R460, R461). -/
structure Reply where
  transport : Nat
  code : Nat
  data : List Byte
  deriving DecidableEq, Repr, Inhabited

/-- A zone's state while its disc stays loaded (R439). -/
inductive ZoneState where
  | empty | implicitOpen | explicitOpen | closed | full
  deriving DecidableEq, Repr, Inhabited

/-- A zone: its state and write pointer, as blocks from the zone's start (R438, R439). -/
structure Zone where
  state : ZoneState := .empty
  wp : Nat := 0
  deriving DecidableEq, Repr, Inhabited

/-- The host port and the NVMe controller (R424 to R462). -/
structure HostPort where
  /-- PERST# asserted; the link is down while it is (R426). -/
  perst : Bool := true
  linkUp : Bool := false
  started : Bool := false
  fetching : Bool := true
  cc : BitVec 32 := 0
  csts : BitVec 32 := 0
  sqs : Tbl (Option SubQ) := []
  cqs : Tbl (Option CompQ) := []
  /-- Completions in the order they were posted; and those that wait for room in their queue. -/
  posted : List Cqe := []
  waiting : List Cqe := []
  /-- Completions of an ordered class that wait for an earlier command of their queue (R452), with their order. -/
  ordered : List (Nat × Cqe) := []
  sent : List HostData := []
  aers : List Nat := []
  events : List AsyncEvent := []
  /-- Events reported whose log the host has not read, as 256 * type + log page: their type is masked (NVMe). -/
  masked : List Nat := []
  /-- Features: current values, keyed by identifier * 0x10000 + index (class, drive or queue). -/
  feat : Tbl Nat := []
  download : List Download := []
  activation : Option Activation := none
  /-- Data units read and written, host commands, power cycles and the like, for SMART (R447): keyed by field. -/
  smart : Tbl Nat := []
  errors : List Cqe := []
  errorCount : Nat := 0
  changedNs : List Nat := []
  /-- Zones, keyed drive * 8192 + zone (R439). -/
  zones : Tbl Zone := []
  /-- NVMe-MI settings (R460) and the MCTP endpoint ID (R461). -/
  smbusFreq : Nat := 1
  mctpUnit : Nat := 64
  eid : Nat := 0
  /-- SPDM connection of each transport, 0 PCIe, 1 SMBus (R461), and the responses sent. -/
  spdm : Tbl Spdm := []
  replies : List Reply := []
  /-- Critical Warning bits for which an event has been raised (R447, R459). -/
  warned : Nat := 0
  /-- The timestamp has been set since the controller's power-up (R441). -/
  stamped : Bool := false
  deriving DecidableEq, Repr, Inhabited

/-- The fault log and the AON's boot count (R529, R608). -/
structure FaultLog where
  recs : List FaultRec := []
  head : Nat := 0
  boots : Nat := 1
  deriving DecidableEq, Repr, Inhabited

/-- The registers a checkpoint keeps (R42, R219). -/
structure LoopRegs where
  g : Vector Word32 16 := Vector.replicate 16 0
  p : BitVec 4 := 1
  a : Vector Acc 4 := Vector.replicate 4 0
  sat : Bool := false
  ovf : Bool := false
  dmem : Tbl Byte := []
  deriving DecidableEq, Repr, Inhabited

/-- A REPEAT in progress: where its body starts, its length, the passes left after this one (R97). -/
structure Rep where
  start : Nat
  len : Nat
  left : Nat
  deriving DecidableEq, Repr, Inhabited

/-- An accepted LOADL that waits for its slot (R209): the program, its loop table, its data section, its frame. -/
structure LoadReq where
  code : List Word32
  loops : List (Nat × Nat)
  data : List Byte
  daddr : Nat
  frame : Nat
  deriving DecidableEq, Repr, Inhabited

/-- An accepted XFER that waits for its slot (R215): to manual with a value, or to automatic. -/
structure XferReq where
  loop : Nat
  manual : Option Word32
  frame : Nat
  deriving DecidableEq, Repr, Inhabited

/-- A loop's mode (R215): its hold value while in manual, and whether the slot in progress is its transfer slot. -/
structure LoopMode where
  manual : Bool := false
  hold : Word32 := 0
  transfer : Bool := false
  deriving DecidableEq, Repr, Inhabited

/-- One loop engine (R42, R93, R97, R198, R207 to R223), keyed 16 * slice + physical number. -/
structure Engine where
  r : LoopRegs := {}
  pc : Nat := 0
  code : List Word32 := []
  loops : List (Nat × Nat) := []
  /-- A slot is in progress: SLOTEND has not run. -/
  inSlot : Bool := false
  /-- In the fault state until reset (R220). -/
  fault : Bool := false
  /-- s.frame of the slot's first frame, and LOOP cycles used since. -/
  slotFrame : Option Nat := none
  cyc : Nat := 0
  rep : Option Rep := none
  /-- Values latched for this slot and for the one before, by channel (R198, R202). -/
  inputs : Tbl Word32 := []
  before : Tbl Word32 := []
  emitted : List (Nat × Word32) := []
  committed : Bool := false
  sup : Option Word32 := none
  supCount : Tbl Nat := []
  held : Bool := false
  release : Bool := false
  modes : Tbl LoopMode := []
  load : Option LoadReq := none
  xfers : List XferReq := []
  /-- A parameter capture and the tick it was made at (R213). -/
  param : Option (List Byte × Nat) := none
  check : LoopRegs := {}
  checkModes : Tbl LoopMode := []
  /-- The outputs stay at their last committed values until a spare's first commit (R220). -/
  takeover : Bool := false
  /-- When the next committed value is due: the commit phase of its slot, in LOOP ticks (R224). -/
  due : Option Nat := none
  /-- When the copy into the spare ends, in LOOP ticks (R220). -/
  copyAt : Nat := 0
  deriving DecidableEq, Repr, Inhabited

/-- The last poll of an accelerometer (R182): when it ended, the first byte sent, whether in SPI mode 3, and the clock divider in
force. -/
structure Poll where
  at_ : Nat
  first : Nat
  mode3 : Bool
  div : Nat
  deriving DecidableEq, Repr, Inhabited

/-- How far a frame of a READ or VERIFY has come: not yet read, waiting for its first-pass decode, failing (R327), or
good: converged and passed (R325). -/
inductive Got where
  | unread | decoding | failing | good
  deriving DecidableEq, Repr, Inhabited

/-- A frame of a running READ or VERIFY (R311 to R331). -/
structure Frame where
  got : Got := .unread
  /-- how of its status once good (R326); 0xF of a failing frame that rung 6 could not recover. -/
  how : Nat := 0
  /-- It converged and passed at first pass (R353). -/
  first : Bool := false
  blank : Bool := false
  def_ : Bool := false
  fly : Bool := false
  sec : Bool := false
  /-- Framed by both marks (R353). -/
  both : Bool := false
  /-- Symbols in defect runs. -/
  defects : Nat := 0
  iters : Nat := 0
  weight : Nat := 0
  /-- Holds a slot of the retry store, and has run rung 0 (R324, R330). -/
  slot : Bool := false
  rung0 : Bool := false
  /-- The LLRs of its halves, three symbols more at each end, while it is decoded or holds a slot, and the shift rung 0 chose of
  the first and the second half (R312, R324, R330). -/
  llrA : List (Int × Int) := []
  llrB : List (Int × Int) := []
  shift : Int × Int := (0, 0)
  /-- The payload as recorded, once good (R157, R328). -/
  payload : List Byte := []
  deriving DecidableEq, Repr, Inhabited

/-- A channel operation from acceptance to its end (R136): its descriptor, who issued it, where its end fields go,
and how far it has come. Hoists and frames are numbered from the operation's first. -/
structure Chop where
  op : Nat
  flags : Nat
  ctag : Nat
  tag : Nat
  pfa : Nat
  hoists : Nat
  rungs : Nat
  beams : Nat
  key : Nat
  list : List Nat
  core : Nat
  area : Nat
  started : Bool := false
  /-- The head is on its way: the engine has not yet acknowledged (R245). -/
  positioning : Bool := false
  /-- Band aimed at, the kind and number of the mailbox request, failures so far, and when its bound passes (R244,
  R245). -/
  aim : Int := 0
  kind : Nat := 0
  seq : Nat := 0
  tries : Nat := 0
  due : Nat := 0
  /-- Held by R254 since this time. -/
  heldAt : Option Nat := none
  /-- Why the operation is to end before its own end: 0 for none, else the cstat (R137, R351, R640). -/
  stopWith : Nat := 0
  /-- The bank selected (R309). -/
  bank : Option Nat := none
  frames : Tbl Frame := []
  /-- Hoists whose blocks and statuses are settled; hoists a WRITE has begun (R348). -/
  settled : List Nat := []
  begun : List Nat := []
  /-- Revolution attempts made, keyed band * 8 + rung (R330). -/
  attempts : Tbl Nat := []
  /-- A rung 2 offset stands in the staging area (R332). -/
  offset : Bool := false
  /-- The revolution attempt in progress, its rung and number (R331), and the frame the head is positioned on (R245). -/
  attempt : Option (Nat × Nat) := none
  goal : Nat := 0
  done : Nat := 0
  /-- Highest rung applied; 0xFF for none (R339). -/
  rung : Nat := 0xFF
  erased : Nat := 0
  flagged : Nat := 0
  /-- The beam-count mode it runs in (R188), the frames its retry store holds and the handles of its buffers (R324), and the positions along the layer at
  which its head was last out of frame (R315). -/
  mode : Nat := 0
  slots : Nat := 0
  store : List Nat := []
  oofAt : List Nat := []
  /-- The four words of the write strategy that a WRITE burns with (R344). -/
  ws : List Nat := []
  deriving DecidableEq, Repr, Inhabited

/-- What a head of a read channel keeps between frames (R296 to R298, R313, R322). -/
structure Head where
  /-- Wobble acquisition is under way, and a good address unit has been read in it (R296, R297). -/
  acquiring : Bool := false
  goodUnit : Bool := false
  /-- Consecutive address units missed (R297), and the position count (R298). -/
  missed : Nat := 0
  pos : Nat := 0
  /-- Per beam: flywheeled frames in a row, and the offset of its last framed frame (R313). -/
  flyRun : Tbl Nat := []
  lastOff : Tbl Int := []
  /-- Mailbox request number (R244) and rung 2 sequence number (R332). -/
  mailSeq : Nat := 0
  offSeq : Nat := 0
  /-- A training run: its bank and when it began (R337). -/
  train : Option (Nat × Nat) := none
  /-- The training shadow, a copy of the bank that adaptation changes; the mean squared errors of each track's frames adapted, the
  last 64, newest first, and how many frames it has adapted; and whether adaptation has converged: the shadow is committed at the
  next hoist boundary (R337). -/
  shadow : List Byte := []
  trainMse : Tbl (List Nat) := []
  trainCount : Tbl Nat := []
  trained : Bool := false
  /-- Frequency of the wobble loop's oscillator, Hz, and its bandwidth (R296, R300). -/
  freq : Rat := 0
  bandwidth : Rat := 0
  /-- What the tracking program keeps: the lens offset in 2^-16 nm, the mailbox request it has served, the number of its last move
  form, and the form it holds on the crossbar while its sled moves (R240, R244, R247). -/
  lens : Int := 0
  served : Nat := 0
  sledSeq : Nat := 0
  sledMove : Option Word32 := none
  deriving DecidableEq, Repr, Inhabited

/-- A hoist burnt: what went to the disc, an output, and the strategy it was burnt with (R161, R344, R347). -/
structure Burnt where
  hoist : Nat
  hseq : Nat
  payloads : List (List Byte)
  ws : List Nat
  deriving DecidableEq, Repr, Inhabited

/-- A drive's media channel: its queue, oldest first; the head of the queue is the one that runs (R136). `pooled`
names, for each channel-bound decoder with a fault, the pooled decoder that took its beam (R322). -/
structure Channel where
  queue : List Chop := []
  heads : Tbl Head := []
  pooled : Tbl (Option Nat) := []
  burnt : List Burnt := []
  deriving DecidableEq, Repr, Inhabited

/-- A slice's spindle program, as R262 to R275 require it of every program: its state, what its status block reports, the
commanded target, an op 1 it holds (seq and target), failed starts and re-catches, where COAST and SHORT lead (0 STOPPED, 1
ALIGN, 2 and 3 FAULT with that reason; none a plain coast), whether a re-catch runs, when PWM last resumed, whether the
bridge is off for want of VIN; VIN above 19.0 V, and the mean VIN of the last 100 ms in mV, newest first (R261, R265). Further what
it keeps from slot to slot: its own ceiling (R266), when it entered its state, when OPEN began and the forced speed then, the forced
angle, since when the observer has matched the forced speed and since when the speed has been at its target (R262, R271), the last
slot in which a sector was crossed or the current was below a quarter of its limit (R275), the mechanical model's speed in 2^-16 rpm,
consecutive implausible slots and the last of them (R273), and the presets of the speed and current-loop integrators (R270, R271). -/
structure Spin where
  valid : Bool := false
  state : Nat := 0
  result : Nat := 0
  reason : Nat := 0
  seq : Nat := 0
  speed : Nat := 0
  target : Nat := 0
  back : Bool := false
  cmd : Nat := 0
  waiting : Option (Nat × Nat) := none
  starts : Nat := 0
  recatch : Nat := 0
  leads : Option Nat := none
  recatching : Bool := false
  resumed : Option Nat := none
  noVin : Bool := false
  high : Bool := false
  vins : List Nat := []
  own : Nat := 7200
  since : Nat := 0
  openAt : Nat := 0
  openFrom : Nat := 0
  angle : Word32 := 0
  matched : Option Nat := none
  near : Option Nat := none
  turned : Nat := 0
  model : Int := 0
  bad : Nat := 0
  badAt : Nat := 0
  speedInt : Int := 0
  currentInt : Nat := 0
  deriving DecidableEq, Repr, Inhabited

/-- A piece of a profile: how long, ns, and its jerk, microsteps/s³ (R282). -/
structure Seg where
  ns : Nat
  jerk : Rat
  deriving DecidableEq, Repr, Inhabited

/-- A measured slot as the stall detector sees it: load angle, amplitude, the square of the magnitude of e, and what the speed
should give, mV (R286, R288). -/
structure StallSlot where
  load : Nat
  amp : Nat
  emf2 : Rat
  due : Rat
  deriving DecidableEq, Repr, Inhabited

/-- A stepper axis as R283 to R290 require it of every program on engine 5: its state, what its status block reports, the
target in force, what runs on it (0 nothing, 1 a firmware move, 2 a move form, 3 homing, 4 a corrector's recovery from a
stall), whether the move form was clipped, the last move form's number, and how its amplitude falls at rest: from when, for how
long, from what (R287, R289). The profile in force: the position, speed and acceleration it began with, its pieces, and the slots
since (R282, R285). The stage of a homing: 1 travel to the stop, 2 hold, 3 move to 0, 4 the freeze before a corrector's (R289, R290).
Whether the sled follows the lens, and 1/1875 microsteps not yet made (R240); the measured slots in a row, newest first (R288); and
the move form last acknowledged (R283). -/
structure Axis where
  valid : Bool := false
  state : Nat := 0
  result : Nat := 0
  reason : Nat := 0
  seq : Nat := 0
  pos : Int := 0
  amp : Nat := 0
  load : Nat := 0xFF
  uncertain : Bool := false
  refused : Bool := false
  target : Int := 0
  runs : Nat := 0
  clipped : Bool := false
  form : Option Nat := none
  fall : Option (Nat × Nat × Nat) := none
  p0 : Rat := 0
  v0 : Rat := 0
  a0 : Rat := 0
  segs : List Seg := []
  clock : Nat := 0
  stage : Nat := 0
  follows : Bool := false
  part : Int := 0
  seen : List StallSlot := []
  ackSeq : Nat := 0
  ackFailed : Bool := false
  deriving DecidableEq, Repr, Inhabited

/-- The spindle program, the four axes and the two microstep tables of a slice, as they stood when engine 5's slot began. -/
structure Programs where
  spin : Spin
  axes : List Axis
  steps : List (List Byte)
  deriving DecidableEq, Repr, Inhabited

/-- A calibration procedure that runs (R191 to R193): its code, head and beam, when it started, and whether firmware has
written one of its target fields. -/
structure CalRun where
  proc : Nat
  head : Nat
  beam : Nat
  start : Nat
  superseded : Bool := false
  deriving DecidableEq, Repr, Inhabited

/-- A committed version 1 to 63 of a block (R361). -/
structure MapEntry where
  lbn : Nat
  version : Nat
  pfa : Nat
  deriving DecidableEq, Repr, Inhabited

/-- A map change (R368): its sequence number, type and payload. -/
structure Delta where
  seq : Nat
  type : Nat
  payload : Nat
  deriving DecidableEq, Repr, Inhabited

/-- A burn record entry (R363): the hoist, pfa[29:5] of its first frame; its state, 0 while its WRITE has been accepted
and its burn has not begun (R346); the policy recorded at acceptance (R355); the frames of kind 0x00 whose commit it
awaits; and, once its outcome is recorded, the deltas that must be durable before it is freed. -/
structure Brec where
  hoist : Nat
  state : Nat := 0
  req : Bool := false
  need : List Nat := []
  seqs : List Nat := []
  closed : Bool := false
  deriving DecidableEq, Repr, Inhabited

/-- A filled map hoist that awaits its WRITE (R369): its buffer, the deltas it holds, and, for a checkpoint part,
whether it is the last and how many frames it carries. -/
structure Fill where
  handle : Nat
  seqs : List Nat
  ckpt : Bool
  final : Bool
  frames : Nat := 0
  deriving DecidableEq, Repr, Inhabited

/-- A checkpoint under way, being filled or being ingested (R370, R371): its base sequence S, its units, and the frames
placed or taken. -/
structure Ckpt where
  base : Nat
  units : List Nat := []
  frames : Nat := 0
  /-- Every part has been filled. -/
  filled : Bool := false
  deriving DecidableEq, Repr, Inhabited

/-- A slice's map engine (R360 to R377). -/
structure MapEng where
  mstate : Nat := 0
  /-- Identity of the loaded disc, as the retained copy of the burn record carries it (R363, R371). -/
  disc : List Byte := []
  entries : List MapEntry := []
  /-- Home-table states, keyed by user hoist (R362). -/
  home : Tbl Nat := []
  flags : List (Nat × Nat) := []
  brec : List Brec := []
  deltas : List Delta := []
  next : Nat := 1
  dur : Nat := 0
  /-- Frontiers, as hoists past the start of the area, keyed 4 * surface + (0 disc information, 1 calibration,
  2 spare). -/
  front : Tbl Nat := []
  /-- The map frontier: surface * 12,000 + hoist - 540,000 (R366). -/
  mapFront : Nat := 0
  fill : Option Fill := none
  ckpt : Option Ckpt := none
  /-- Number of the last complete checkpoint, and the burn sequence (R347, R367). -/
  ckid : Nat := 0
  hseq : Nat := 0
  /-- While loading: the deltas ingested, the base S of the checkpoint ingested, whether a record has been ingested,
  and whether the last one had the clean flag (R371, R373). -/
  taken : List Delta := []
  base : Nat := 0
  record : Bool := false
  clean : Bool := false
  /-- User hoists marked superseded (R468). -/
  superseded : List Nat := []
  deriving DecidableEq, Repr, Inhabited

/-- A key-encryption key (R538). -/
structure Kek where
  kid : List Byte
  key : List Byte
  deriving DecidableEq, Repr, Inhabited

/-- A media key of a drive (R538). -/
structure MediaKey where
  drive : Nat
  id : Nat
  key : List Byte
  deriving DecidableEq, Repr, Inhabited

/-- The key store (R538, R544). -/
structure KeyStore where
  keks : List Kek := []
  media : List MediaKey := []
  locked : Bool := false
  deriving DecidableEq, Repr, Inhabited

/-- An F-die's safety sequence (R509), and the time of its trigger, ns of the device timebase: before 0 once a reset has started the
timebase again. -/
structure SafetySeq where
  run : Bool := false
  at_ : Int := 0
  /-- It has ended: the outputs stay in their reset states until the next reset of the slice. -/
  ended : Bool := false
  braking : Bool := false
  /-- A gate trip has turned its brake off: the rest is a coast (R276). -/
  coast : Bool := false
  coilsDown : Bool := false
  parked : Bool := false
  gatesOff : Bool := false
  deriving DecidableEq, Repr, Inhabited

/-- Reset, STRUCK and controlled stop (R507, R580 to R607): when a stop began, whether an ending event waits for the
safety sequences, whether SYS_RST_N is held low, the last package-watchdog kick; `held` is the kind of a package reset
that has begun and whose power-up has not run; `struck` is when the package entered STRUCK; `fdie` names the F-dies
that enter reset when their safety sequence ends (R588). -/
structure ResetSt where
  stopAt : Nat := 0
  endWaits : Bool := false
  pinLow : Bool := false
  held : Option Nat := none
  struck : Option Nat := none
  fdie : List Nat := []
  wdKick : Nat := 0
  /-- Lanes of die links that have failed: 2 * link + direction, and the lane (R20, R21). -/
  lanes : List (Nat × Nat) := []
  /-- Lanes whose traffic moves to the spare: the slice, of a sample lane the beam as 12 * head + track, of write-symbol lane n 64 + n,
  and when the lane failed (R18, R20, R350). -/
  switching : List (Nat × Nat × Nat) := []
  deriving DecidableEq, Repr, Inhabited

/-- An Ensign record that is open (R529 to R532): its kind, its measurement entries of 56 bytes, the reset kind, the slot
and svn booted or activated, and when it opened. -/
structure OpenRec where
  kind : Nat
  meas : List (List Byte) := []
  reset : Nat := 0
  slot : Nat := 0
  svn : Nat := 0
  openedAt : Nat := 0
  deriving DecidableEq, Repr, Inhabited

/-- A key-store command that runs (R540). -/
structure KeyCmd where
  op : Nat
  core : Nat
  drive : Nat
  keyId : Nat
  handle : Nat
  offset : Nat
  deriving DecidableEq, Repr, Inhabited

/-- A copy of the boot control block: sequence number, active slot, trial slot (R521). -/
structure BootControl where
  seq : Nat := 0
  active : Nat := 0
  trial : Option Nat := none
  deriving DecidableEq, Repr, Inhabited

/-- Fuses, boot flash, boot control and the Ensign log (R517 to R537, R543, R547). -/
structure Secure where
  /-- OEM key hashes burnt, 48 bytes each; an unburnt slot has none. -/
  oem : Tbl (List Byte) := []
  revoked : List Nat := []
  policy : Nat := 0
  /-- Images in slots 0 to 2 (R521). -/
  slots : Tbl (List Byte) := []
  /-- The two copies of the boot control block: the one in force, which has the higher sequence number, and the other (R521). -/
  control : BootControl := {}
  older : Option BootControl := none
  /-- The image in force: what boot or activation verified. -/
  running : List Byte := []
  /-- The slot it came from: the slot booted, or activated since (R457, R458). -/
  runSlot : Nat := 0
  boot : Option OpenRec := some { kind := 1, reset := 1 }
  act : Option OpenRec := none
  /-- Closed records: the retained ring, oldest first; the flash history from the lowest held; those whose append has not
  ended (R533 to R535). -/
  ring : List (List Byte) := []
  history : List (List Byte) := []
  appends : List (List Byte) := []
  nextSeq : Nat := 0
  /-- Digest of subject 0x0008 since the last seal (R537). -/
  setup : List Byte := []
  /-- Flags of the next record: debug session held, ring lost, key import made (R529). -/
  debugHeld : Bool := false
  ringLost : Bool := false
  keyImport : Bool := false
  /-- sec.tcls as the last seal copied it (R544). -/
  tclsCopy : Option Nat := none
  key : Option KeyCmd := none
  /-- The escrow component's public key (R540). -/
  escrow : List Byte := []
  /-- The ROM found no valid slot: link down, flash pins released (R522); when it last tried. -/
  noSlot : Bool := false
  triedAt : Nat := 0
  /-- The ROM of this boot has tried the trial slot (R522). -/
  tried : Bool := false
  /-- Some section of the retained block waits for the image defaults (R595). -/
  needDefaults : Bool := false
  /-- Digest of subject 0x0002 as this boot measured it (R530, R537). -/
  fuse : List Byte := []
  /-- RTC time at which this boot issued the Alias certificate (R525). -/
  issued : Nat := 0
  /-- The JTAG instruction in force (R546). -/
  jtag : Jtag := .idcode
  /-- The unlock nonce presented (R547). -/
  nonce : List Byte := []
  /-- What the port last read of memory (R547). -/
  tdo : List Byte := []
  deriving DecidableEq, Repr, Inhabited

/-- Active and trial slot of the boot control block in force (R521, R522). -/
def Secure.active (x : Secure) : Nat := x.control.active
def Secure.trial (x : Secure) : Option Nat := x.control.trial
/-- A change of the boot control block: the device writes the copy not in force, with the next sequence number (R521). -/
def Secure.setControl (active : Nat) (trial : Option Nat) (x : Secure) : Secure :=
  { x with older := some x.control, control := ⟨(x.control.seq + 1) % 2 ^ 32, active, trial⟩ }

/-- The thermal model of a die (R498 to R506): node temperatures of the model and its hardware copy in °C, their offsets,
the last diode reading, run counts, the next evaluation, and the ppm applied to each reference (R187, R513). -/
structure Therm where
  t : List Rat := [0, 0, 0, 0]
  hw : List Rat := [0, 0, 0, 0]
  off : Rat := 0
  hwOff : Rat := 0
  diode : Rat := 0
  advHi : Nat := 0
  advLo : Nat := 0
  thrHi : Nat := 0
  thrLo : Nat := 0
  /-- The die has been in throttle since the package was last unthrottled (R506). -/
  inSet : Bool := false
  hwHi : Nat := 0
  differ : Nat := 0
  cold : Nat := 0
  evalAt : Nat := 0
  refs : Tbl Int := []
  /-- Domain energies of the last 100 ms, one entry of eight in µJ for each 100 µs (R516). -/
  energy : List (List Nat) := []
  deriving DecidableEq, Repr, Inhabited

/-- A received ring message (R142, R576). -/
structure RingMsg where
  src : Nat
  seq : Nat
  data : List Byte
  deriving DecidableEq, Repr, Inhabited

/-- A message queued to send (R141, R575): `choice` 0 either ring, 1 A, 2 B. -/
structure RingTx where
  dst : Nat
  bc : Bool
  choice : Nat
  seq : Nat
  data : List Byte
  deriving DecidableEq, Repr, Inhabited

/-- A frame sent: the port, 0 A or 1 B, and its blocks (R553). -/
structure RingOut where
  port : Nat
  blocks : List Word
  deriving DecidableEq, Repr, Inhabited

/-- One part of FORMED that waits for its partner (R554): its seq, its data blocks, when it came. -/
structure FormPart where
  seq : Nat
  data : List Word
  at_ : Nat
  deriving DecidableEq, Repr, Inhabited

/-- A ledger entry (R567, R578): its state is 1 offered, 2 in force, 3 recalled, 4 awaiting settlement. `sentAt` and
`tries` are those of the last offer or recall; `confirmed` since the last FORMED. -/
structure Loan where
  state : Nat
  peer : Nat
  rate : Nat
  num : Nat
  sentAt : Nat := 0
  tries : Nat := 0
  confirmed : Bool := false
  deriving DecidableEq, Repr, Inhabited

/-- The Halyard ring port (R550 to R579). -/
structure Ring where
  /-- hr.cfg as the last reset restored it (R556). -/
  cfg : Word := 0
  rx : List RingMsg := []
  tx : List RingTx := []
  out : List RingOut := []
  seq : Nat := 0
  /-- Own unicasts not yet answered: seq and send time (R576). -/
  unacked : List (Nat × Nat) := []
  lastMsg : Option Nat := none
  /-- Broadcasts delivered, by source and seq, with the time (R564). -/
  seen : List (Nat × Nat × Nat) := []
  /-- Presence map, bit p for position p (R554). -/
  map : Nat := 0
  /-- The own FORM: its seq and send time; and whether it has been abandoned (R557). -/
  form : Option (Nat × Nat) := none
  gaveWay : Bool := false
  /-- The reason of a refusal that FORMED will complete (R557, R558). -/
  refuse : Nat := 0
  part0 : Option FormPart := none
  part1 : Option FormPart := none
  formNum : Nat := 0
  /-- Whether this package has been in a formation since its power-up (R561). -/
  formedOnce : Bool := false
  formedAt : Nat := 0
  settled : Bool := true
  /-- Link delay in 1/16 ns (R562). -/
  delay : Nat := 0
  /-- Consecutive TIME frames with an error below 20 ns, the last one's arrival, and the last TIME sent (R562). -/
  good : Nat := 0
  lastTime : Nat := 0
  timeSent : Option Nat := none
  /-- Nanoseconds hr.toff has still to slew (R562). -/
  slew : Int := 0
  /-- The ledger: entries 0 to 15 lent, 16 to 31 borrowed (R569). -/
  loans : Tbl (Option Loan) := []
  /-- The ledger failed its check: the whole supply budget counts as lent (R569). -/
  ledgerLost : Bool := false
  loanNext : Nat := 1
  deriving DecidableEq, Repr, Inhabited

/-- The staging area of RETAIN (R592): the section it names, the block sequence and the bytes written there, and the mark. -/
structure Staging where
  target : Nat := 0
  seq : Nat := 0
  bytes : List Byte := []
  valid : Bool := false
  deriving DecidableEq, Repr, Inhabited

/-- The AON domain: the real-time clock (R439, R441), as its value in ms when the timebase was 0, none when never set;
and what else it keeps. -/
structure Aon where
  rtc : Option Nat := none
  /-- Copies of the retained block in the SPI NOR shadow region, by sector 0 to 14 (R593), and an update that runs: its
  sector and its image. -/
  shadows : Tbl (List Byte) := []
  shadowRun : Option (Nat × List Byte) := none
  /-- The staging area, once RETAIN has written it (R592). -/
  staging : Option Staging := none
  /-- VBAT was lost while the AON domain ran from it (R493). -/
  vbatLost : Bool := false
  /-- Correction of the AON oscillator, ppm (R512). -/
  oscPpm : Rat := 0
  /-- A safety sequence ended on its 10 s limit (R509). -/
  spinTimeout : Bool := false
  deriving DecidableEq, Repr, Inhabited

/-- Why a step stops with a fault: no step of this model does (every effect the spec gives is modelled); the type
has one constructor, which nothing raises, so that it is a closed inductive. -/
inductive Fault where
  /-- Raised by no meaning. -/
  | none
  deriving DecidableEq, Repr

/-- Why a step refuses a command. -/
inductive Refusal where
  /-- Raised by exec's arm of a command that has no meaning yet; safe: nothing is claimed of it. -/
  | notModelled (mnemonic : String)
  deriving DecidableEq, Repr

/-- The device, and the queue of commands that wait, first in, first out. -/
structure State where
  part : Part := .zoa880
  rev : Rev := .b1
  /-- LOOP ticks since the alignment event (R34, R108). -/
  now : Nat := 0
  /-- The model's own counter of free values used (log entry 3); no statement rests on its value. -/
  free : Nat := 0
  /-- s.sealed (R86): one seal for every deck core. -/
  sealed : Bool := false
  cores : Tbl Core := []
  /-- The lines each core's instruction cache holds (R66), by what Config.icacheLine names them. -/
  icache : Tbl (List Nat) := []
  regs : Tbl Word := []
  mem : Tbl Byte := []
  ecc : Tbl Ecc := []
  cache : Cache := {}
  bufs : Tbl Buf := []
  fifos : Tbl Fifo := []
  snap : Snap := {}
  adm : Adm := {}
  host : HostPort := {}
  flt : FaultLog := {}
  ring : Ring := {}
  aon : Aon := {}
  sec : Secure := {}
  therm : Tbl Therm := []
  chan : Tbl Channel := []
  /-- The axis words of the last accelerometer poll as channels 0x3B and 0x3C give them, keyed 2 * slice + axis (R182,
  R201); and when a bridge last tripped, keyed 16 * slice + its enable bit (R178). -/
  shock : Tbl Word32 := []
  tripped : Tbl (Option Nat) := []
  polls : Tbl (Option Poll) := []
  /-- Since which tick each laser has been on, keyed 24 * slice + 12 * head + beam; none while it is off (R174, R175). -/
  lit : Tbl (Option Nat) := []
  /-- Words whose last write is not yet in force, by address: from which tick it is, and the word before (R183, R293). -/
  trims : Tbl (Option (Nat × Word)) := []
  spins : Tbl Spin := []
  /-- Keyed 4 * slice + axis; the microstep tables in force, keyed 2 * slice + (0 sled, 1 aberration) (R279, R280). -/
  axes : Tbl Axis := []
  steps : Tbl (List Byte) := []
  /-- What logical engine 5's checkpoint holds of its programs, by slice (R219, R276, R285). -/
  progs : Tbl (Option Programs) := []
  cal : Tbl (Option CalRun) := []
  safe : Tbl SafetySeq := []
  rst : ResetSt := {}
  engines : Tbl Engine := []
  /-- Outputs committed, and crossbar words published, keyed 256 * slice + channel (R203, R204, R206). -/
  outs : Tbl (Option Word32) := []
  /-- When each crossbar word was last published, and its value before (R204), keyed as `outs`. -/
  published : Tbl (Nat × Word32) := []
  maps : Tbl MapEng := []
  keys : KeyStore := {}
  pending : List Instr := []
  deriving DecidableEq, Repr

/-- What a step answers. -/
abbrev Res := Host.Outcome State Fault Refusal

/-- The device right after a package reset (R44, R523, R580 to R582): every register at its reset value, lead core 0
released at Boot level into the boot ROM. -/
def State.reset : State := { cores := [(0, { run := .running })] }

end Sys2Proof.Machine
end

