-- ==== Sys2Proof/Machine/RegTable.lean ====
section
/-! DEFINITION. The register pages of the dies (R618, R619, R622): one row per register with stored fields, its
place, and its field map with the access code and the value after reset of each field. A field whose bits are
computed from typed state (a queue head, a free count, a FIFO's count, the timebase) is not listed here: the read of
its register computes it (Machine/RegRead.lean). A WO field stores nothing (R7), and a Reserved field reads 0 (R9), so
neither is listed, except the fields whose protection matters (RWB, R85). -/

namespace Sys2Proof.Machine

/-- Access codes (R7). -/
inductive Access where
  | ro | rw | w1c | wo | rwr | rwb
  deriving DecidableEq, Repr, Inhabited

/-- A field: bits hi to lo, its access code, its value after reset. -/
structure Fld where
  hi : Nat
  lo : Nat
  acc : Access
  reset : Nat := 0
  deriving DecidableEq, Repr, Inhabited

/-- Which pages hold a register: a C-die's, an F-die's, both, or the lead C-die's alone (R15). -/
inductive Page where
  | c | f | both | lead
  deriving DecidableEq, Repr, Inhabited

/-- A register, or a run of registers at equal distances. -/
structure RegRow where
  page : Page
  base : Nat
  stride : Nat := 8
  count : Nat := 1
  flds : List Fld
  deriving DecidableEq, Repr, Inhabited

/-- rst.*, flt.* (R614), bp.* (R384), the FIFOs (R396), db.send (R73). -/
def regRows1 : List RegRow := [
  ⟨.c, 0x0140, 8, 1, [⟨4, 0, .wo, 0⟩]⟩,
  ⟨.lead, 0x0200, 8, 1, [⟨31, 24, .ro, 0⟩, ⟨20, 20, .ro, 0⟩, ⟨19, 16, .ro, 0⟩, ⟨15, 0, .ro, 1⟩]⟩,
  ⟨.lead, 0x0208, 8, 1, [⟨63, 48, .wo, 0⟩, ⟨0, 0, .wo, 0⟩]⟩,
  ⟨.lead, 0x0210, 8, 1, [⟨31, 16, .rwb, 0⟩, ⟨0, 0, .rwb, 1⟩]⟩,
  ⟨.lead, 0x0218, 8, 1, [⟨63, 0, .wo, 0⟩]⟩,
  ⟨.c, 0x0240, 8, 8, [⟨39, 2, .rwb, 0⟩]⟩,
  ⟨.c, 0x0280, 8, 8, [⟨15, 0, .rwb, 0⟩]⟩,
  ⟨.c, 0x02C0, 8, 1, [⟨63, 0, .wo, 0⟩]⟩,
  ⟨.c, 0x3000, 8, 1, [⟨0, 0, .rwb, 0⟩]⟩,
  ⟨.c, 0x3008, 8, 1, [⟨32, 32, .w1c, 0⟩]⟩,
  ⟨.c, 0x3100, 8, 60, [⟨14, 0, .rw, 0⟩]⟩,
  ⟨.c, 0x8008, 0x40, 8, [⟨1, 1, .rw, 0⟩]⟩,
  ⟨.c, 0x8408, 8, 1, [⟨2, 2, .rw, 0⟩, ⟨1, 1, .rw, 0⟩]⟩,
  ⟨.c, 0x8440, 8, 1, [⟨8, 4, .rw, 0⟩, ⟨3, 0, .rw, 0⟩]⟩]

/-- cc.*, mem.* (R403, R413, R421, R422). -/
def regRows2 : List RegRow := [
  ⟨.c, 0x9000, 8, 1, [⟨15, 12, .rwb, 2⟩, ⟨11, 8, .rwb, 2⟩, ⟨7, 4, .rwb, 12⟩, ⟨3, 0, .rwb, 1⟩]⟩,
  ⟨.c, 0x9018, 8, 1, [⟨63, 0, .ro, 0⟩]⟩,
  ⟨.c, 0x9800, 8, 1, [⟨1, 0, .rwb, 2⟩]⟩,
  ⟨.c, 0x9808, 8, 1, [⟨11, 8, .ro, 0⟩, ⟨7, 4, .ro, 0⟩, ⟨3, 0, .ro, 0⟩]⟩,
  ⟨.c, 0x9810, 8, 1, [⟨31, 16, .rw, 10⟩, ⟨15, 0, .rw, 24⟩]⟩,
  ⟨.c, 0x9818, 8, 1, [⟨63, 63, .rwb, 0⟩, ⟨62, 56, .rwb, 0⟩, ⟨55, 49, .rwb, 127⟩, ⟨39, 3, .rwb, 0⟩]⟩,
  ⟨.c, 0x9828, 8, 1, [⟨47, 32, .ro, 0⟩, ⟨3, 0, .ro, 0⟩]⟩]

/-- mc.beams, fe.cal (R189, R192), srv.rdy (R233), sp.* (R266, R265), lp.* (R226, R227). -/
def regRows3 : List RegRow := [
  ⟨.c, 0x4008, 8, 1, [⟨47, 16, .ro, 0⟩, ⟨15, 12, .ro, 0⟩, ⟨11, 8, .ro, 0⟩, ⟨7, 7, .w1c, 0⟩, ⟨1, 0, .ro, 0⟩]⟩,
  ⟨.c, 0x4010, 8, 1, [⟨27, 16, .ro, 0xFFF⟩, ⟨15, 4, .ro, 0xFFF⟩, ⟨1, 0, .rw, 0⟩]⟩,
  ⟨.c, 0x4100, 8, 2, [⟨31, 18, .ro, 0⟩, ⟨17, 16, .ro, 0⟩, ⟨8, 8, .rw, 0⟩, ⟨7, 7, .ro, 0⟩, ⟨3, 3, .ro, 0⟩,
    ⟨2, 2, .ro, 0⟩, ⟨1, 1, .ro, 0⟩]⟩,
  ⟨.c, 0x4200, 8, 1, [⟨59, 56, .ro, 0⟩, ⟨55, 52, .ro, 0⟩, ⟨51, 36, .ro, 0⟩, ⟨35, 22, .ro, 0⟩, ⟨21, 8, .ro, 0⟩,
    ⟨4, 4, .ro, 0⟩, ⟨3, 0, .ro, 0xF⟩]⟩,
  ⟨.c, 0x4208, 8, 1, [⟨33, 33, .w1c, 0⟩, ⟨32, 32, .ro, 0⟩, ⟨31, 16, .ro, 0⟩, ⟨13, 0, .ro, 0⟩]⟩,
  ⟨.c, 0x5000, 8, 1, [⟨12, 12, .ro, 0⟩, ⟨11, 8, .ro, 0xF⟩, ⟨7, 0, .ro, 0⟩]⟩,
  ⟨.c, 0x5100, 8, 8, [⟨31, 16, .ro, 0⟩, ⟨15, 8, .w1c, 0⟩, ⟨7, 7, .w1c, 0⟩, ⟨6, 6, .w1c, 0⟩, ⟨5, 5, .ro, 0⟩,
    ⟨4, 4, .ro, 0⟩, ⟨3, 3, .ro, 0⟩, ⟨1, 0, .ro, 0⟩]⟩,
  ⟨.c, 0x5200, 8, 8, [⟨63, 61, .rwr, 0⟩, ⟨59, 53, .rwr, 0⟩, ⟨51, 45, .rwr, 0⟩, ⟨43, 37, .rwr, 0⟩,
    ⟨35, 29, .rwr, 0⟩, ⟨27, 21, .rwr, 0⟩, ⟨19, 13, .rwr, 0⟩, ⟨11, 5, .rwr, 0⟩, ⟨3, 0, .rwr, 0⟩]⟩,
  ⟨.c, 0x5300, 8, 8, [⟨31, 0, .ro, 0⟩]⟩]

/-- rc.* (R300 to R342). -/
def regRows4 : List RegRow := [
  ⟨.c, 0x6000, 8, 1, [⟨31, 26, .rw, 50⟩, ⟨19, 16, .rw, 8⟩, ⟨15, 8, .rw, 64⟩, ⟨0, 0, .rw, 1⟩]⟩,
  ⟨.c, 0x6008, 8, 1, [⟨13, 8, .rw, 48⟩, ⟨5, 0, .rw, 40⟩]⟩,
  ⟨.c, 0x6010, 8, 1, [⟨23, 16, .rw, 96⟩, ⟨15, 8, .rw, 32⟩, ⟨7, 0, .rw, 32⟩]⟩,
  ⟨.c, 0x6020, 8, 2, [⟨7, 4, .rw, 3⟩, ⟨3, 0, .rw, 6⟩]⟩,
  ⟨.c, 0x6040, 8, 2, [⟨44, 40, .rw, 0⟩, ⟨39, 20, .rw, 0⟩, ⟨19, 0, .rw, 0⟩]⟩,
  ⟨.c, 0x6060, 8, 2, [⟨31, 16, .rw, 1024⟩, ⟨15, 12, .rw, 4⟩, ⟨9, 5, .rw, 0⟩, ⟨0, 0, .rw, 0⟩]⟩,
  ⟨.c, 0x6080, 8, 2, [⟨35, 32, .ro, 0⟩, ⟨31, 30, .ro, 0⟩, ⟨29, 29, .w1c, 0⟩, ⟨28, 28, .ro, 0⟩, ⟨25, 25, .ro, 0⟩,
    ⟨24, 24, .ro, 0⟩, ⟨23, 12, .ro, 0⟩, ⟨11, 0, .ro, 0⟩]⟩,
  ⟨.c, 0x6100, 8, 24, [⟨47, 32, .ro, 0⟩, ⟨24, 24, .w1c, 0⟩, ⟨23, 0, .rw, 0⟩]⟩,
  ⟨.c, 0x6200, 8, 8, [⟨32, 32, .rw, 0⟩, ⟨31, 0, .rw, 0⟩]⟩,
  ⟨.c, 0x6240, 8, 8, [⟨32, 32, .rw, 0⟩, ⟨31, 0, .rw, 0⟩]⟩]

/-- Word w of the reference write strategy (R344): entry e at bits [16 i + 12:16 i], start and width. -/
def wsEntry (i start width : Nat) : List Fld :=
  [⟨16 * i + 12, 16 * i + 6, .rw, width⟩, ⟨16 * i + 5, 16 * i, .rw, start⟩]

/-- mc.ws, mc.vtest, mc.vpol, mc.map.* (R344, R353, R355, R376, R377). -/
def regRows5 : List RegRow := [
  ⟨.c, 0x7000, 0x20, 8, wsEntry 3 27 14 ++ wsEntry 2 26 15 ++ wsEntry 1 25 16 ++ wsEntry 0 24 16⟩,
  ⟨.c, 0x7008, 0x20, 8, wsEntry 3 23 22 ++ wsEntry 2 22 23 ++ wsEntry 1 21 24 ++ wsEntry 0 20 24⟩,
  ⟨.c, 0x7010, 0x20, 8, wsEntry 3 19 30 ++ wsEntry 2 18 31 ++ wsEntry 1 17 32 ++ wsEntry 0 16 32⟩,
  ⟨.c, 0x7018, 0x20, 8, [⟨47, 32, .rw, 16384⟩, ⟨31, 16, .rw, 16384⟩, ⟨15, 0, .rw, 16384⟩]⟩,
  ⟨.c, 0x7100, 8, 1, [⟨31, 24, .rwr, 16⟩, ⟨23, 20, .rwr, 4⟩, ⟨12, 0, .rwr, 480⟩]⟩,
  ⟨.c, 0x7108, 8, 1, [⟨0, 0, .rwr, 1⟩]⟩,
  ⟨.c, 0x7210, 8, 1, [⟨31, 0, .rw, 0⟩]⟩,
  ⟨.c, 0x7220, 8, 1, [⟨63, 32, .ro, 0⟩, ⟨31, 16, .ro, 0⟩, ⟨15, 8, .ro, 0⟩, ⟨7, 7, .ro, 0⟩, ⟨3, 0, .ro, 0⟩]⟩]

/-- adm.*, ab.* (R486); the cost-table shadow adm.ct is `ctRef` below. -/
def regRows6 : List RegRow := [
  ⟨.lead, 0xA000, 8, 1, [⟨47, 32, .rw, 18000⟩, ⟨31, 16, .rw, 1000⟩, ⟨15, 0, .rw, 100⟩]⟩,
  ⟨.lead, 0xA100, 0x40, 32, [⟨63, 0, .rw, 0⟩]⟩,
  ⟨.lead, 0xA108, 0x40, 32, [⟨63, 32, .rw, 0⟩, ⟨31, 16, .rw, 0⟩, ⟨1, 0, .rw, 0⟩]⟩,
  ⟨.lead, 0xA110, 0x40, 32, [⟨63, 0, .rw, 0⟩]⟩,
  ⟨.lead, 0xA118, 0x40, 32, [⟨63, 0, .rw, 0⟩]⟩,
  ⟨.lead, 0xA128, 0x40, 32, [⟨63, 32, .ro, 0⟩, ⟨4, 4, .ro, 0⟩, ⟨3, 0, .ro, 0⟩]⟩,
  ⟨.lead, 0xA130, 0x40, 32, [⟨63, 0, .ro, 0⟩]⟩,
  ⟨.lead, 0xC000, 8, 1, [⟨10, 10, .ro, 0⟩, ⟨9, 9, .ro, 0⟩, ⟨8, 8, .ro, 0⟩, ⟨6, 4, .ro, 0⟩, ⟨2, 0, .ro, 0⟩]⟩,
  ⟨.lead, 0xC018, 8, 1, [⟨15, 0, .rwb, 0⟩]⟩,
  ⟨.lead, 0xC100, 8, 12, [⟨47, 32, .rwr, 0⟩, ⟨19, 16, .rwr, 0⟩, ⟨9, 8, .rwr, 0⟩, ⟨0, 0, .rwr, 0⟩]⟩]

/-- tm.*, pm.* (R514, R516; the reset values of tm.rc are those of R499, in mK/W and mJ/K). -/
def regRows7 : List RegRow := [
  ⟨.both, 0xD000, 8, 1, [⟨55, 40, .ro, 0⟩, ⟨39, 24, .ro, 0⟩, ⟨23, 8, .ro, 0⟩, ⟨5, 4, .ro, 0⟩, ⟨1, 0, .ro, 0⟩]⟩,
  ⟨.both, 0xD008, 8, 1, [⟨15, 0, .rw, 2880⟩]⟩,
  ⟨.both, 0xD020, 8, 4, [⟨15, 0, .ro, 0⟩]⟩,
  ⟨.c, 0xD040, 8, 1, [⟨31, 16, .rwb, 600⟩, ⟨15, 0, .rwb, 2⟩]⟩,
  ⟨.c, 0xD048, 8, 1, [⟨31, 16, .rwb, 1200⟩, ⟨15, 0, .rwb, 50⟩]⟩,
  ⟨.c, 0xD050, 8, 1, [⟨31, 16, .rwb, 1400⟩, ⟨15, 0, .rwb, 2000⟩]⟩,
  ⟨.c, 0xD058, 8, 1, [⟨31, 16, .rwb, 800⟩, ⟨15, 0, .rwb, 40000⟩]⟩,
  ⟨.f, 0xD040, 8, 1, [⟨31, 16, .rwb, 1000⟩, ⟨15, 0, .rwb, 2⟩]⟩,
  ⟨.f, 0xD048, 8, 1, [⟨31, 16, .rwb, 2000⟩, ⟨15, 0, .rwb, 40⟩]⟩,
  ⟨.f, 0xD050, 8, 1, [⟨31, 16, .rwb, 2500⟩, ⟨15, 0, .rwb, 1500⟩]⟩,
  ⟨.f, 0xD058, 8, 1, [⟨31, 16, .rwb, 1500⟩, ⟨15, 0, .rwb, 30000⟩]⟩,
  ⟨.c, 0xD060, 8, 2, [⟨31, 16, .rwb, 0⟩, ⟨15, 0, .rwb, 0⟩]⟩,
  ⟨.lead, 0xD080, 8, 1, [⟨23, 16, .rwb, 48⟩, ⟨15, 8, .rwb, 8⟩, ⟨7, 0, .rwb, 16⟩]⟩,
  ⟨.lead, 0xD088, 8, 1, [⟨40, 40, .ro, 0⟩, ⟨39, 32, .ro, 0⟩, ⟨31, 16, .ro, 0⟩, ⟨10, 8, .ro, 0⟩, ⟨7, 0, .ro, 0⟩]⟩,
  ⟨.lead, 0xD090, 8, 1, [⟨31, 16, .rwb, 0⟩, ⟨15, 0, .rwb, 0⟩]⟩,
  ⟨.lead, 0xD0A0, 8, 1, [⟨47, 32, .ro, 0⟩, ⟨4, 4, .w1c, 0⟩, ⟨3, 3, .w1c, 0⟩, ⟨2, 2, .ro, 0⟩, ⟨1, 1, .w1c, 0⟩]⟩,
  ⟨.both, 0xD100, 8, 8, [⟨31, 16, .ro, 0⟩, ⟨15, 0, .ro, 0⟩]⟩,
  ⟨.lead, 0xD180, 8, 4, [⟨31, 16, .ro, 0⟩, ⟨15, 0, .ro, 0⟩]⟩]

/-- sec.* (R549) and hr.* (R578). -/
def regRows8 : List RegRow := [
  ⟨.lead, 0xE000, 8, 1, [⟨31, 30, .ro, 1⟩, ⟨29, 28, .ro, 0⟩, ⟨27, 26, .ro, 0⟩, ⟨25, 25, .ro, 0⟩, ⟨24, 24, .ro, 0⟩,
    ⟨23, 22, .ro, 0⟩, ⟨21, 20, .ro, 0⟩, ⟨11, 8, .ro, 0⟩, ⟨7, 0, .ro, 0⟩]⟩,
  ⟨.lead, 0xE008, 8, 1, [⟨31, 0, .rwb, 1⟩]⟩,
  ⟨.lead, 0xE010, 8, 1, [⟨39, 2, .rwb, 0⟩]⟩,
  ⟨.lead, 0xE018, 8, 1, [⟨13, 8, .rwb, 0⟩, ⟨5, 0, .ro, 0⟩]⟩,
  ⟨.lead, 0xE020, 8, 1, [⟨13, 0, .rwb, 2⟩]⟩,
  ⟨.lead, 0xE028, 8, 1, [⟨14, 8, .ro, 0⟩, ⟨7, 7, .ro, 0⟩, ⟨6, 0, .w1c, 0⟩]⟩,
  ⟨.lead, 0xE030, 8, 1, [⟨63, 32, .ro, 0⟩]⟩,
  ⟨.lead, 0xE040, 8, 1, [⟨63, 32, .rw, 0⟩, ⟨31, 0, .rw, 0⟩]⟩,
  ⟨.lead, 0xE050, 8, 1, [⟨8, 8, .ro, 0⟩, ⟨3, 0, .ro, 0⟩]⟩,
  ⟨.lead, 0xE060, 8, 1, [⟨3, 0, .rwb, 0⟩]⟩,
  ⟨.lead, 0xE100, 8, 6, [⟨63, 0, .rwb, 0⟩]⟩,
  ⟨.lead, 0xF000, 8, 1, [⟨16, 16, .rwr, 0⟩, ⟨9, 9, .rwr, 0⟩, ⟨8, 0, .rwr, 0⟩]⟩,
  ⟨.lead, 0xF008, 8, 1, [⟨40, 32, .ro, 0⟩, ⟨31, 22, .ro, 0⟩, ⟨19, 18, .ro, 0⟩, ⟨17, 17, .ro, 0⟩, ⟨7, 4, .ro, 0⟩,
    ⟨2, 0, .ro, 0⟩]⟩,
  ⟨.lead, 0xF010, 8, 1, [⟨41, 32, .ro, 0⟩, ⟨31, 0, .ro, 0⟩]⟩,
  ⟨.lead, 0xF020, 8, 1, [⟨63, 0, .ro, 0⟩]⟩,
  ⟨.lead, 0xF028, 8, 1, [⟨33, 33, .ro, 0⟩, ⟨32, 32, .w1c, 0⟩, ⟨31, 31, .ro, 0⟩, ⟨30, 0, .ro, 0⟩]⟩,
  ⟨.lead, 0xF030, 8, 1, [⟨63, 0, .ro, 0⟩]⟩,
  ⟨.lead, 0xF040, 8, 1, [⟨63, 48, .ro, 0⟩, ⟨7, 4, .ro, 0⟩, ⟨0, 0, .ro, 0⟩]⟩]

/-- The F-die page: the calibration block (R183 to R185), fe.* (R179, R182, R230, R260, R292, R293, R349, R623,
R639). -/
def regRows9 : List RegRow := [
  ⟨.f, 0x1000, 8, 76, [⟨9, 0, .rwr, 0⟩]⟩,
  ⟨.f, 0x1400, 8, 36, [⟨11, 10, .rwr, 0⟩, ⟨9, 0, .rwr, 0⟩]⟩,
  ⟨.f, 0x1520, 8, 40, [⟨9, 0, .rwr, 0⟩]⟩,
  ⟨.f, 0x1800, 8, 24, [⟨59, 48, .rwr, 0⟩, ⟨47, 36, .rwr, 0⟩, ⟨35, 24, .rwr, 0⟩, ⟨23, 12, .rwr, 0⟩,
    ⟨11, 0, .rwr, 0⟩]⟩,
  ⟨.f, 0x1900, 8, 24, [⟨43, 32, .rwr, 0⟩, ⟨31, 16, .rwr, 0⟩, ⟨11, 0, .rwr, 0⟩]⟩,
  ⟨.f, 0x1A00, 8, 24, [⟨15, 0, .rwr, 0⟩]⟩,
  ⟨.f, 0x1B00, 8, 6, [⟨31, 16, .rwr, 0⟩, ⟨15, 0, .rwr, 0⟩]⟩,
  ⟨.f, 0x1C00, 8, 1, [⟨47, 32, .rwr, 0⟩, ⟨25, 16, .rwr, 0⟩, ⟨9, 0, .rwr, 0⟩]⟩,
  ⟨.f, 0x2000, 8, 1, [⟨39, 39, .rw, 0⟩, ⟨38, 36, .rw, 0⟩, ⟨32, 30, .rw, 0⟩, ⟨29, 20, .rw, 40⟩, ⟨18, 16, .rw, 0⟩,
    ⟨15, 8, .rw, 0⟩, ⟨7, 2, .rw, 4⟩, ⟨1, 1, .rw, 0⟩, ⟨0, 0, .rw, 0⟩]⟩,
  ⟨.f, 0x2010, 8, 1, [⟨31, 24, .rw, 0x40⟩, ⟨17, 16, .rw, 1⟩, ⟨15, 12, .rw, 7⟩, ⟨8, 4, .rw, 4⟩, ⟨2, 0, .rw, 3⟩]⟩,
  ⟨.f, 0x2018, 8, 1, [⟨7, 6, .ro, 0⟩, ⟨2, 2, .w1c, 0⟩, ⟨1, 1, .w1c, 0⟩, ⟨0, 0, .rw, 0⟩]⟩,
  ⟨.f, 0x2020, 8, 1, [⟨47, 40, .ro, 0⟩, ⟨37, 32, .ro, 0⟩, ⟨15, 8, .rw, 0⟩, ⟨5, 0, .rw, 0⟩]⟩,
  ⟨.f, 0x2030, 8, 1, [⟨17, 16, .rw, 1⟩, ⟨13, 8, .rw, 16⟩, ⟨5, 0, .rw, 16⟩]⟩,
  ⟨.f, 0x2038, 8, 1, [⟨35, 24, .rwb, 750⟩, ⟨23, 16, .rwb, 50⟩, ⟨15, 4, .rwb, 333⟩, ⟨1, 1, .rwb, 0⟩,
    ⟨0, 0, .rwb, 1⟩]⟩,
  ⟨.f, 0x2040, 8, 1, [⟨7, 7, .rw, 0⟩, ⟨3, 3, .w1c, 0⟩, ⟨2, 2, .w1c, 0⟩, ⟨1, 1, .ro, 0⟩, ⟨0, 0, .ro, 0⟩]⟩,
  ⟨.f, 0x2100, 8, 2, [⟨63, 63, .rw, 0⟩, ⟨50, 48, .rw, 7⟩, ⟨47, 36, .rw, 0⟩, ⟨35, 24, .rw, 0⟩, ⟨23, 12, .rw, 0⟩]⟩,
  ⟨.f, 0x2120, 8, 2, [⟨35, 24, .rw, 0xFFF⟩, ⟨23, 12, .rw, 0⟩, ⟨11, 0, .rw, 0⟩]⟩,
  ⟨.f, 0x2140, 8, 2, [⟨0, 0, .rw, 0⟩]⟩,
  ⟨.f, 0x2160, 8, 2, [⟨16, 16, .ro, 1⟩, ⟨9, 9, .w1c, 0⟩, ⟨8, 8, .w1c, 0⟩, ⟨7, 7, .w1c, 0⟩, ⟨6, 6, .w1c, 0⟩,
    ⟨5, 5, .w1c, 0⟩, ⟨4, 4, .w1c, 0⟩, ⟨3, 3, .w1c, 0⟩, ⟨2, 2, .w1c, 0⟩, ⟨1, 1, .w1c, 0⟩, ⟨0, 0, .w1c, 0⟩]⟩]

/-- Every register with stored fields. -/
def regRows : List RegRow :=
  regRows1 ++ regRows2 ++ regRows3 ++ regRows4 ++ regRows5 ++ regRows6 ++ regRows7 ++ regRows8 ++ regRows9

/-- Whether a register at this offset of this page belongs to the row. -/
def RegRow.holds (r : RegRow) (fdie : Bool) (d off : Nat) : Bool :=
  (match r.page with
   | .c => !fdie
   | .f => fdie
   | .both => true
   | .lead => !fdie && d == 0) &&
  decide (r.base ≤ off) && decide (off < r.base + r.stride * r.count) && decide ((off - r.base) % r.stride = 0)

/-- Frame positions per revolution of a band (R152). -/
def framesPerRev (b : Nat) : Nat := 133 + (b + 55) / 69

/-- Two 32-bit fields as one doubleword, the lower first. -/
def pair (lo hi : Nat) : Nat := lo + hi * 2 ^ 32

/-- Worst-case ladder time of rung limit r at 7,200 rpm (s = 0) and 3,600 rpm (s = 1), µs (R334; rung 4 as rung 3,
R467). -/
def ladderRef (r s : Nat) : Nat :=
  match r, s with
  | 0, _ => 910
  | 1, _ => 5710
  | 2, 0 => 188380
  | 2, _ => 355050
  | 3, 0 => 197510
  | 3, _ => 372510
  | 4, 0 => 197510
  | 4, _ => 372510
  | 5, 0 => 224910
  | 5, _ => 424910
  | _, 0 => 224950
  | _, _ => 424950

/-- Reference time of a hoist group at 7,200 rpm, zone z, µs (R467). -/
def grpRef (z : Nat) : Nat := (480000000 + 7200 * framesPerRev (1024 * z) - 1) / (7200 * framesPerRev (1024 * z))

/-- Doubleword i of the reference cost table (R467). -/
def ctRef (i : Nat) : Nat :=
  if i = 0 then pair 300 150 else if i = 1 then pair 200 500 else if i = 2 then pair 1000 5000
  else if i = 3 then pair 1740000 1140000 else if i = 4 then pair 3200000 200000
  else if i = 5 then pair 160000 3100000
  else if i = 6 then pair 16 871 else if i = 7 then pair 384 34000 else if i = 8 then pair 1153 46000
  else if i = 9 then pair 1923 54000 else if i = 10 then pair 3846 69000 else if i = 11 then pair 7692 90000
  else if i = 12 then pair 13075 118000
  else if 14 ≤ i ∧ i ≤ 26 then pair (grpRef (i - 14)) (2 * grpRef (i - 14))
  else if 27 ≤ i ∧ i ≤ 33 then pair (ladderRef (i - 27) 0) (ladderRef (i - 27) 1)
  else if i = 34 then pair 350 525 else if i = 35 then pair 1050 255 else if i = 36 then pair 383 765
  else if i = 37 then pair 170 255 else if i = 38 then pair 510 1480 else if i = 39 then pair 300 0
  else 0

/-- The row of a register, if the page has one at this offset (R619, R622). -/
def regRow (fdie : Bool) (d off : Nat) : Option RegRow := regRows.find? (fun r => r.holds fdie d off)

/-- A field's value after reset, in place. -/
def Fld.resetIn (f : Fld) : Nat := if f.acc = .wo then 0 else f.reset * 2 ^ f.lo

/-- The value of the register at an offset of a page right after reset (R7, R8). -/
def pageReset (fdie : Bool) (d off : Nat) : Word :=
  if !fdie && d == 0 && decide (0xB000 ≤ off) && decide (off < 0xC000) then
    BitVec.ofNat 64 (ctRef ((off - 0xB000) % 0x400 / 8))
  else
    match regRow fdie d off with
    | some r => BitVec.ofNat 64 ((r.flds.map Fld.resetIn).sum)
    | none => 0

/-- The value after reset of the register at a physical address (R88: C-die pages from 0x1100_0000, F-die pages from
0x1200_0000, 1 MiB each). -/
def regReset (a : Nat) : Word :=
  if 0x1100_0000 ≤ a ∧ a < 0x1200_0000 then pageReset false ((a - 0x1100_0000) / 0x10_0000) (a % 0x10_0000)
  else if 0x1200_0000 ≤ a then pageReset true ((a - 0x1200_0000) / 0x10_0000) (a % 0x10_0000)
  else 0

end Sys2Proof.Machine
end

