-- ==== Sys2Proof/Machine/Ops.lean ====
section
/-! DEFINITION. The named operations over the parts of State that every command uses: sparse tables, bit fields, the
part and its places, time, free values, register fields, counter units, memory with its error states, completions to
the host, asynchronous events, the fault log, and the queues of a deck core. -/

namespace Sys2Proof

/-! Sparse tables (Word.lean). -/

/-- The value at a key; an unlisted key reads as the default. -/
def Tbl.get {α : Type} (dflt : Nat → α) : Tbl α → Nat → α
  | [], k => dflt k
  | e :: t, k => if e.1 = k then e.2 else Tbl.get dflt t k

/-- Puts an entry at its place in rising order. -/
def Tbl.put {α : Type} (k : Nat) (v : α) : Tbl α → Tbl α
  | [] => [(k, v)]
  | e :: t => if k < e.1 then (k, v) :: e :: t else if e.1 = k then (k, v) :: t else e :: Tbl.put k v t

/-- Takes a key out. -/
def Tbl.drop {α : Type} (k : Nat) (t : Tbl α) : Tbl α := t.filter (fun e => decide (e.1 ≠ k))

/-- Writes the value at a key: writing what an unlisted key reads as removes the entry. -/
def Tbl.set {α : Type} [DecidableEq α] (dflt : Nat → α) (k : Nat) (v : α) (t : Tbl α) : Tbl α :=
  if v = dflt k then Tbl.drop k t else Tbl.put k v t

/-- The canonical form: keys strictly rising, and no entry equal to what its key reads as when unlisted. -/
abbrev Tbl.Canon {α : Type} (dflt : Nat → α) (t : Tbl α) : Prop :=
  t.Pairwise (fun a b => a.1 < b.1) ∧ ∀ e ∈ t, e.2 ≠ dflt e.1

/-- A table whose unlisted keys read as the type's default. -/
def Tbl.at {α : Type} [Inhabited α] (t : Tbl α) (k : Nat) : α := Tbl.get (fun _ => default) t k
/-- A write to such a table. -/
def Tbl.upd {α : Type} [Inhabited α] [DecidableEq α] (k : Nat) (v : α) (t : Tbl α) : Tbl α :=
  Tbl.set (fun _ => default) k v t

/-- Bits hi to lo of a number (R5, R11). -/
def bitsOf (v hi lo : Nat) : Nat := v / 2 ^ lo % 2 ^ (hi + 1 - lo)
/-- A number with bits hi to lo replaced. -/
def putBits (v hi lo x : Nat) : Nat := v - bitsOf v hi lo * 2 ^ lo + x % 2 ^ (hi + 1 - lo) * 2 ^ lo
/-- Whether bit i of a number is set. -/
def bitSet (v i : Nat) : Bool := v / 2 ^ i % 2 == 1
/-- Bits of a word, as a number. -/
def fld (w : Word) (hi lo : Nat) : Nat := bitsOf w.toNat hi lo
/-- One bit of a word. -/
def flag (w : Word) (i : Nat) : Bool := bitSet w.toNat i
/-- A word with bits hi to lo replaced. -/
def putFld (w : Word) (hi lo x : Nat) : Word := BitVec.ofNat 64 (putBits w.toNat hi lo x)
/-- 1 for true. -/
def b2n (b : Bool) : Nat := if b then 1 else 0
/-- A signed number in a field of n bits, two's complement. -/
def toField (n : Nat) (x : Int) : Nat := (x % (2 ^ n : Int)).toNat
/-- The signed value of a field of n bits. -/
def fromField (n v : Nat) : Int := if v < 2 ^ (n - 1) then (v : Int) else (v : Int) - 2 ^ n
/-- A quotient rounded up. -/
def ceilDiv (a b : Nat) : Nat := (a + b - 1) / b

/-- Puts an element before the first that comes after it. -/
def insertBy {α : Type} (before : α → α → Bool) (x : α) : List α → List α
  | [] => [x]
  | y :: t => if before x y then x :: y :: t else y :: insertBy before x t
/-- A list in order, equals keeping their places. -/
def sortBy {α : Type} (before : α → α → Bool) (l : List α) : List α := l.foldl (fun acc x => insertBy before x acc) []

/-- The bytes of a number, least significant first (R6). -/
def leBytes : Nat → Nat → List Byte
  | 0, _ => []
  | n + 1, v => BitVec.ofNat 8 v :: leBytes n (v / 256)
/-- The number that bytes spell, least significant first (R6). -/
def ofLe : List Byte → Nat
  | [] => 0
  | b :: t => b.toNat + 256 * ofLe t
/-- The bytes of a number, most significant first. -/
def beBytes (n v : Nat) : List Byte := (leBytes n v).reverse
/-- Bytes off to off + n - 1 of a block, as a number (R6). -/
def leAt (bs : List Byte) (off n : Nat) : Nat := ofLe ((bs.drop off).take n)
/-- A block of n bytes: the list cut or filled with 0. -/
def padTo (n : Nat) (bs : List Byte) : List Byte := bs.take n ++ List.replicate (n - bs.length) 0

/-- One step of CRC-32C over a bit of the running remainder (reflected polynomial 0x82F6_3B78). -/
def crcBits : Nat → Nat → Nat
  | 0, r => r
  | n + 1, r => crcBits n (if r % 2 = 1 then Nat.xor (r / 2) 0x82F6_3B78 else r / 2)
/-- CRC-32C of a byte string. -/
def crc32c (bs : List Byte) : Nat :=
  Nat.xor (bs.foldl (fun r b => crcBits 8 (Nat.xor r b.toNat)) 0xFFFF_FFFF) 0xFFFF_FFFF

namespace Machine

/-! The part and its places. -/

/-- Slice count (R1). -/
def Part.slices : Part → Nat
  | .zoa820 => 1 | .zoa840 => 2 | .zoa860 => 3 | .zoa880 => 4
/-- Part code (R616). -/
def Part.code : Part → Nat
  | .zoa820 => 1 | .zoa840 => 2 | .zoa860 => 3 | .zoa880 => 4
/-- Revision byte (R617). -/
def Rev.code : Rev → Nat
  | .a1 => 0x01 | .b0 => 0x10 | .b1 => 0x11

/-- Slices, and so drives, of this device. -/
def State.nslices (s : State) : Nat := s.part.slices
/-- The 64-bit identity register (R615). -/
def State.identity (s : State) : Word :=
  BitVec.ofNat 64 (0x1D7A * 2 ^ 48 + s.part.code * 2 ^ 32 + 2 * s.nslices * 2 ^ 28 + s.rev.code * 2 ^ 20)
/-- id.place of a die of slice k (R620). -/
def State.place (s : State) (fdie : Bool) (k : Nat) : Word :=
  BitVec.ofNat 64 ((s.nslices - 1) * 8 + (if !fdie && k == 0 then 4 else 0) + k)

/-- The device timebase in ns: 2.5 ns a LOOP tick, rounded down (R108; log entry 6). -/
def State.time (s : State) : Nat := s.now * 5 / 2
/-- s.cycle: CORE clocks, four to a LOOP tick (R32, R69). -/
def State.cycle (s : State) : Nat := 4 * s.now
/-- The first LOOP tick at or after a time of the device timebase. -/
def tickOf (ns : Nat) : Nat := ceilDiv (2 * ns) 5
/-- s.frame: slot frames of 500 ticks since the alignment event, 32 bits (R101, R197). -/
def State.frame (s : State) : Nat := s.now / 500 % 2 ^ 32

/-- Takes a fresh free 64-bit value (log entry 3). -/
def State.freshWord (s : State) : Word × State := (Config.freeWord s.free, { s with free := s.free + 1 })
/-- Takes a fresh free count (log entry 3). -/
def State.freshNat (s : State) : Nat × State := (Config.freeNat s.free, { s with free := s.free + 1 })

/-- Whether the C-dies are in reset: a package reset has begun and not ended, or the package is in STRUCK (R507,
R583). -/
def State.down (s : State) : Bool := s.rst.held.isSome || s.rst.struck.isSome
/-- An effect that the dies have only while they run. -/
def whileUp (s : State) (f : State → State) : State := if s.down then s else f s

/-! Register fields. -/

/-- Physical address of an offset of C-die d's page (R88). -/
def cAddr (d off : Nat) : Nat := 0x1100_0000 + d * 0x10_0000 + off
/-- Physical address of an offset of F-die d's page (R88). -/
def fAddr (d off : Nat) : Nat := 0x1200_0000 + d * 0x10_0000 + off
/-- A stored register. -/
def State.reg (s : State) (a : Nat) : Word := Tbl.get regReset s.regs a
/-- Stores a register. -/
def State.setReg (s : State) (a : Nat) (w : Word) : State := { s with regs := Tbl.set regReset a w s.regs }
/-- A field of a C-die register. -/
def State.cf (s : State) (d off hi lo : Nat) : Nat := fld (s.reg (cAddr d off)) hi lo
/-- A field of an F-die register. -/
def State.ff (s : State) (d off hi lo : Nat) : Nat := fld (s.reg (fAddr d off)) hi lo
/-- Writes a field of a C-die register, as hardware does. -/
def State.setCf (s : State) (d off hi lo x : Nat) : State :=
  s.setReg (cAddr d off) (putFld (s.reg (cAddr d off)) hi lo x)
/-- Writes a field of an F-die register, as hardware does. -/
def State.setFf (s : State) (d off hi lo x : Nat) : State :=
  s.setReg (fAddr d off) (putFld (s.reg (fAddr d off)) hi lo x)

/-- Writes a register whose new value is in force from the next multiple of n LOOP ticks on; until then the one before the
write is (R183, R293). -/
def State.setLater (s : State) (n a : Nat) (w : Word) : State :=
  let e := match Tbl.at s.trims a with
    | some (t, old) => if s.now < t then (t, old) else ((s.now / n + 1) * n, s.reg a)
    | none => ((s.now / n + 1) * n, s.reg a)
  { s with trims := Tbl.upd a (some e) s.trims }.setReg a w
/-- The value of a register that is in force. -/
def State.inForce (s : State) (a : Nat) : Word :=
  match Tbl.at s.trims a with
  | some (t, old) => if s.now < t then old else s.reg a
  | none => s.reg a
/-- The value in force of a field of F-die k's calibration block or of fe.st.cfg (R183, R293). -/
def State.trim (s : State) (k off hi lo : Nat) : Nat := fld (s.inForce (fAddr k off)) hi lo

/-- Applies an update for each number below n, in rising order. -/
def upTo (n : Nat) (f : Nat → State → State) (s : State) : State := (List.range n).foldl (fun s i => f i s) s

/-! Counter units (R624). -/

/-- Adds to counter unit u of die `die` (0 to 3 C-dies, 4 to 7 F-dies), modulo 2^64. -/
def State.count (s : State) (die u n : Nat) : State :=
  { s with snap := { s.snap with
      count := Tbl.upd (die * 1024 + u) (Tbl.at s.snap.count (die * 1024 + u) + BitVec.ofNat 64 n) s.snap.count } }

/-! Completions and asynchronous events to the host. -/

/-- Posts a completion into its queue: the phase tag flips at each wrap; with the queue full or absent it waits
(NVMe, R427). -/
def postCqe (c : Cqe) (s : State) : State :=
  match Tbl.at s.host.cqs c.cqid with
  | none => s
  | some q =>
    if (q.tail + 1) % q.size = q.head then { s with host := { s.host with waiting := s.host.waiting ++ [c] } }
    else
      { s with host := { s.host with
          posted := s.host.posted ++ [{ c with phase := q.phase }]
          cqs := Tbl.upd c.cqid (some { q with tail := (q.tail + 1) % q.size,
                                               phase := if (q.tail + 1) % q.size = 0 then !q.phase else q.phase })
                   s.host.cqs } }

/-- The completion of command cid of submission queue sqid. -/
def complete (sqid cid sct sc dw0 dw1 : Nat) (s : State) : State :=
  let q := (Tbl.at s.host.sqs sqid).getD { size := 1, cqid := 0 }
  postCqe { cqid := q.cqid, sqid := sqid, cid := cid, sqhd := q.head, sct := sct, sc := sc, dw0 := dw0, dw1 := dw1,
            phase := false } s

/-- Whether feature 0x0B lets an event through: it masks the SMART events and the notices, and no vendor event; after
reset all that the device raises are let through (R459; log entry 31). -/
def eventOn (s : State) (type info : Nat) : Bool :=
  let f := Tbl.get (fun _ => 0x303) s.host.feat (0x0B * 0x10000)
  if type = 1 then bitSet f (if info = 1 then 1 else 0)
  else if type = 2 then bitSet f (if info = 0 then 8 else 9)
  else true
/-- Reports the events that wait while requests are outstanding; an event's type is masked until the log it names has been
read (R459). -/
def pumpEvents (s : State) : State :=
  s.host.events.foldl (fun s e =>
    match s.host.aers with
    | [] => s
    | cid :: rest =>
      if s.host.masked.any (fun m => m / 256 == e.type) then s
      else
        complete 0 cid 0 0 (e.type + e.info * 2 ^ 8 + e.log * 2 ^ 16) 0
          { s with host := { s.host with
              aers := rest, masked := (256 * e.type + e.log) :: s.host.masked
              events := s.host.events.filter (fun f => decide (f ≠ e)) } }) s
/-- Raises an asynchronous event (R459): it completes an outstanding request unless its type is masked, and otherwise
waits. -/
def raiseAsync (type info log : Nat) (s : State) : State :=
  if !eventOn s type info || s.host.events.contains ⟨type, info, log⟩ then s
  else pumpEvents { s with host := { s.host with events := s.host.events ++ [⟨type, info, log⟩] } }

/-! The fault log (R608 to R611). -/

/-- Writes a fault-log record, keeping the newest 128, and raises the vendor event 0xC3 (R459). `slice` is 0xFF for a
package-wide fault, `core` 0xFF for every core of the slice. -/
def logFault (code die unit slice core detail : Nat) (s : State) : State :=
  let recs := s.flt.recs ++ [{ seq := s.flt.head + 1, time := s.time, boot := s.flt.boots, code := code, die := die,
                               unit := unit, slice := slice, core := core, detail := BitVec.ofNat 64 detail }]
  raiseAsync 7 0xC3 0xC3
    { s with flt := { s.flt with recs := recs.drop (recs.length - 128), head := s.flt.head + 1 } }

/-- Whether a record notifies core c (R610). -/
def FaultRec.notifies (r : FaultRec) (c : Nat) : Bool :=
  if r.core = 0xFF then c / 8 == (if r.slice = 0xFF then 0 else r.slice) else r.core == c

/-- The bytes of a record (R608). -/
def FaultRec.bytes (r : FaultRec) : List Byte :=
  leBytes 4 r.seq ++ leBytes 8 r.time ++ leBytes 4 r.boot ++ leBytes 2 r.code ++ leBytes 1 r.die ++ leBytes 1 r.unit
    ++ leBytes 1 r.slice ++ leBytes 1 r.core ++ leBytes 2 0 ++ leBytes 8 r.detail.toNat

/-- The fault log as page 0xC3 gives it: records oldest first, absent ones 0 (R611). -/
def FaultLog.bytes (f : FaultLog) : List Byte := padTo 4096 ((f.recs.map FaultRec.bytes).flatten)
/-- The retained ring: each record overwrites the one 128 before it, the first of all at the start (R589, R608; log entry 75). -/
def FaultLog.ring (f : FaultLog) : List Byte :=
  (List.range 128).flatMap (fun i =>
    match f.recs.find? (fun r => (r.seq + 127) % 128 == i) with
    | some r => r.bytes
    | none => List.replicate 32 0)

/-! Deck cores and their queues. -/

/-- Deck core c (s.coreid[4:0]). -/
def State.core (s : State) (c : Nat) : Core := Tbl.at s.cores c
/-- Replaces deck core c. -/
def State.setCore (s : State) (c : Nat) (k : Core) : State := { s with cores := Tbl.upd c k s.cores }
/-- Updates deck core c. -/
def State.modCore (s : State) (c : Nat) (f : Core → Core) : State := s.setCore c (f (s.core c))
/-- Whether the part contains core c. -/
def State.hasCore (s : State) (c : Nat) : Bool := decide (c < 8 * s.nslices)

/-- A completion tag joins core c's queue of 128, or waits for room (R147). -/
def Core.pushTag (t : Nat) (k : Core) : Core :=
  if k.cq.length < 128 ∧ k.cqWait = [] then { k with cq := k.cq ++ [t] } else { k with cqWait := k.cqWait ++ [t] }
/-- A read of the head takes a tag off, and the first waiting tag comes in (R147). -/
def Core.popTag (k : Core) : Core :=
  match k.cqWait with
  | [] => { k with cq := k.cq.tail }
  | w :: rest => if k.cq = [] then k else { k with cq := k.cq.tail ++ [w], cqWait := rest }
/-- Adds a completion tag to core c's queue. -/
def pushTag (c t : Nat) (s : State) : State := s.modCore c (Core.pushTag t)

/-- A notice joins a core's queue: 80 entries, 64 kept for codes 1 and 2; a notice of another code that finds its
part full is dropped and marked lost (R483); so is any notice that finds all 80 in use (log entry 7). -/
def Core.pushNotice (n : Notice) (k : Core) : Core :=
  let kept := fun (m : Notice) => m.code = 1 ∨ m.code = 2
  if k.ntc.length < 80 ∧ (kept n ∨ (k.ntc.filter (fun m => ¬ kept m)).length < 16) then
    { k with ntc := k.ntc ++ [n] }
  else { k with ntcLost := true }
/-- Sends a notice to core c. -/
def notice (c code value ident : Nat) (s : State) : State := s.modCore c (Core.pushNotice ⟨code, value, ident⟩)
/-- Sends a notice to every core of the package. -/
def noticeAll (code value ident : Nat) (s : State) : State :=
  upTo (8 * s.nslices) (fun c s => notice c code value ident s) s

end Machine

end Sys2Proof
end

