-- ==== Sys2Proof/Machine/Arbiter.lean ====
section
/-! DEFINITION. The command slots, overruns and the pennant arbiter (R117, R122, R124, R478 to R484). Energy is kept in µJ: a
pennant is 10 mJ, 10,000 µJ, and a rate of r pennants per second refills exactly r µJ every 100 µs. -/

namespace Sys2Proof.Machine

/-- The tag that stands for the issuing core's own account, and for no command (R117, R124). -/
def noTag : Nat := 0xFFFF_FFFF
/-- A slot. -/
def State.slot (s : State) (i : Nat) : Slot := Tbl.at s.adm.slots i
/-- Replaces a slot. -/
def State.setSlot (s : State) (i : Nat) (x : Slot) : State :=
  { s with adm := { s.adm with slots := Tbl.upd i x s.adm.slots } }
/-- Updates a slot. -/
def State.modSlot (s : State) (i : Nat) (f : Slot → Slot) : State := s.setSlot i (f (s.slot i))
/-- The tag of slot i (R117). -/
def State.tagOf (s : State) (i : Nat) : Nat := i + (s.slot i).gen.toNat * 2 ^ 14
/-- The slot a tag names, if its generation is current and the slot has been used (R117, R122). -/
def State.slotOfTag (s : State) (tag : Nat) : Option Nat :=
  let i := tag % 2 ^ 14
  if tag < 2 ^ 22 ∧ s.tagOf i = tag ∧ (s.slot i).phase ≠ .free then some i else none
/-- Whether a slot's command has been accepted and is not yet complete. -/
def Slot.live (x : Slot) : Bool := x.phase == .queued || x.phase == .taken
/-- The slots in use, with their numbers. -/
def State.liveSlots (s : State) : List (Nat × Slot) := s.adm.slots.filter (fun e => e.2.live)
/-- The guard instant of a deadline (R463). -/
def guardOf (d : Nat) : Nat := d - 100000

/-- The mode's budget in pennants per second: 75, 45, 25 and 4 W (R444, R480). -/
def modeBudget (m : Nat) : Nat :=
  if m = 0 then 7500 else if m = 1 then 4500 else if m = 2 then 2500 else 400
/-- The fixed draw averaged over the last 100 ms (R37, R480). -/
def State.fixedMean (s : State) : Nat := s.adm.fixedHist.sum / max 1 s.adm.fixedHist.length
/-- The mode set, and the mode whose rows and rate are in force (R486). -/
def State.modeSet (s : State) : Nat := s.cf 0 0xC000 2 0
def State.modeRow (s : State) : Nat := s.cf 0 0xC000 6 4
/-- Heat rate of a mode (R480): its budget less the fixed draw; in a throttle, that fraction of it (R39, R506). -/
def State.heatRateOf (s : State) (m : Nat) : Nat :=
  match s.adm.throttle with
  | some f => f * (modeBudget m - s.fixedMean) / 64
  | none => modeBudget m - s.fixedMean
/-- Heat rate Rh in force (R480). -/
def State.rateHeat (s : State) : Nat := s.heatRateOf s.modeRow
/-- Heat rate that admission tests new commands with: a lower budget counts from the change on (R38). -/
def State.rateTest (s : State) : Nat := s.heatRateOf (max s.modeSet s.modeRow)
/-- Whether the supply pool is kept: ab.lim is not 0 (R480). -/
def State.keepsSupply (s : State) : Bool := decide (s.cf 0 0xC018 15 0 ≠ 0)
/-- Sum of the rates of the ledger entries of one side that a test picks. -/
def State.loanSum (s : State) (side : Bool) (p : Loan → Bool) : Nat :=
  (s.ring.loans.map (fun e => match e.2 with
    | some l => if decide (16 ≤ e.1) == side && p l then l.rate else 0
    | none => 0)).sum
/-- Rate lent, from the offer to the return, and rate borrowed (R567). -/
def State.lent (s : State) : Nat := s.loanSum false (fun _ => true)
def State.borrowed (s : State) : Nat := s.loanSum true (fun _ => true)
/-- Supply rate Rs (R480): ab.lim of 0.1 W, less the fixed draw, plus borrowed, less lent; 0 while the ledger is lost
(R569). -/
def State.rateSupply (s : State) : Nat :=
  if s.keepsSupply && !s.ring.ledgerLost then s.cf 0 0xC018 15 0 * 10 + s.borrowed - s.fixedMean - s.lent else 0
/-- Pool depth in ms of rate (R486: 100 to 4,000, other values act as 1,000). -/
def State.poolDepth (s : State) : Nat :=
  let d := s.cf 0 0xA000 31 16
  if 100 ≤ d ∧ d ≤ 4000 then d else 1000
/-- A pool's cap in µJ: rate times depth (R480). -/
def State.capHeat (s : State) : Int := (s.rateHeat * s.poolDepth * 10 : Nat)
def State.capSupply (s : State) : Int := (s.rateSupply * s.poolDepth * 10 : Nat)

/-- Adds energy to every pool kept, up to its cap; a pool above its cap already is not lowered by a return (R480,
R481). -/
def poolAdd (uj : Int) (s : State) : State :=
  { s with adm := { s.adm with
      heat := max s.adm.heat (min (s.adm.heat + uj) s.capHeat)
      sup := if s.keepsSupply then max s.adm.sup (min (s.adm.sup + uj) s.capSupply) else s.adm.sup } }
/-- Takes energy from every pool kept, which may go below 0 (R480, R482). -/
def poolTake (uj : Int) (s : State) : State :=
  { s with adm := { s.adm with heat := s.adm.heat - uj
                               sup := if s.keepsSupply then s.adm.sup - uj else s.adm.sup } }

/-- Whether a request of `count` pennants with a key passes the test of R481 beside the other requests that wait. -/
def grantOk (count key : Nat) (others : List Ticket) (s : State) : Bool :=
  let earliest := (sortBy (fun (a b : Ticket) => decide (a.key < b.key)) others).head?
  let holds := fun (pool : Int) => decide (pool ≥ (count * 10000 : Nat))
  let room := fun (pool : Int) (rate : Nat) (f : Ticket) =>
    decide ((pool - (count * 10000 : Nat)) * 100000 + (rate : Int) * ((f.key : Int) - (s.time : Int))
      ≥ (f.count * 1000000000 : Nat))
  holds s.adm.heat && (!s.keepsSupply || holds s.adm.sup) &&
  (!others.any (fun t => decide (t.key < key)) ||
    match earliest with
    | none => true
    | some f => room s.adm.heat s.rateHeat f && (!s.keepsSupply || room s.adm.sup s.rateSupply f))

/-- Energy that a tag holds: a command's, or a core's own account (R124). -/
def State.heldBy (s : State) (core tag : Nat) : Nat :=
  if tag = noTag then Tbl.at s.adm.accounts core
  else match s.slotOfTag tag with
    | some i => (s.slot i).held
    | none => 0
/-- Sets what a tag holds. -/
def setHeld (core tag uj : Nat) (s : State) : State :=
  if tag = noTag then { s with adm := { s.adm with accounts := Tbl.upd core uj s.adm.accounts } }
  else match s.slotOfTag tag with
    | some i => s.modSlot i (fun x => { x with held := uj })
    | none => s
/-- Grants a count to a tag from every pool kept (R481). -/
def grantTo (core tag count : Nat) (s : State) : State :=
  setHeld core tag (s.heldBy core tag + count * 10000) (poolTake (count * 10000 : Nat) s)

/-- Reconsiders the waiting requests in key order, ties to the earlier request: each that passes is granted, with
notice 0x01 (R481, R483). -/
def reconsider (s : State) : State :=
  (sortBy (fun (a b : Ticket) => decide (a.key < b.key)) s.adm.tickets).foldl (fun s t =>
    if grantOk t.count t.key (s.adm.tickets.filter (fun u => decide (u.id ≠ t.id))) s then
      let s := { s with adm := { s.adm with tickets := s.adm.tickets.filter (fun u => decide (u.id ≠ t.id)) } }
      notice t.core 1 t.count t.id (grantTo t.core t.tag t.count s)
    else s) s

/-- Returns energy to every pool kept and reconsiders the requests that wait (R481). -/
def giveBack (uj : Nat) (s : State) : State := reconsider (poolAdd uj s)

/-- At a command's completion the arbiter takes back what it holds and ends its tickets with notice 0x02 (R124,
R481). -/
def takeBack (i : Nat) (s : State) : State :=
  let tag := s.tagOf i
  let mine := s.adm.tickets.filter (fun t => decide (t.tag = tag))
  let s := { s with adm := { s.adm with tickets := s.adm.tickets.filter (fun t => decide (t.tag ≠ tag)) } }
  let s := mine.foldl (fun s t => notice t.core 2 0 t.id s) s
  let uj := (s.slot i).held
  giveBack uj (s.modSlot i (fun x => { x with held := 0 }))

/-! Statistics and overruns (R478, R479, R487). -/

/-- Service time of a slot's command so far, ns (R479). -/
def serviceOf (s : State) (x : Slot) : Nat := x.service + (if x.phase = .taken then s.time - x.takenAt else 0)

/-- A class's counters. -/
def State.stat (s : State) (c : Nat) : ClassStat := Tbl.at s.adm.stats c
/-- Updates a class's counters. -/
def State.modStat (s : State) (c : Nat) (f : ClassStat → ClassStat) : State :=
  { s with adm := { s.adm with stats := Tbl.upd c (f (s.stat c)) s.adm.stats } }

/-- Records an overrun, keeping the last 256, and sends notice 0x07 (R478, R483, R487). -/
def recordOverrun (core : Nat) (r : Overrun) (s : State) : State :=
  let rs := s.adm.overruns ++ [r]
  notice core 7 r.kind (r.tag % 2 ^ 22)
    { s with adm := { s.adm with overruns := rs.drop (rs.length - 256), overrunCount := s.adm.overrunCount + 1 } }

/-- The overrun record of a slot's command. -/
def slotOverrun (s : State) (i kind : Nat) : Overrun :=
  let x := s.slot i
  { time := s.time, tag := s.tagOf i, kind := kind, cls := if x.job then 0xFF else x.cls, drive := x.drive, cost := x.cost
    service := serviceOf s x / 1000, energy := x.energy, spent := x.spent }

/-- The core an overrun of kind 2 or 3 notifies: the last that took the command, else core 0 of the slice (R478). -/
def overrunCore (x : Slot) : Nat := x.takenBy.getD (8 * x.drive)
/-- At a completion of any kind, pennants spent beyond E are an overrun of kind 3 (R478). -/
def recordSpent (i : Nat) (s : State) : State :=
  let x := s.slot i
  if x.energy * 10000 < x.spent then
    recordOverrun (overrunCore x) (slotOverrun s i 3)
      (if x.job then s else s.modStat x.cls (fun t => { t with overruns := t.overruns + 1 }))
  else s

end Sys2Proof.Machine
end

