-- ==== Sys2Proof/Machine/Disc.lean ====
section
/-! DEFINITION. The places of the ZAF-2 disc (R148 to R169): the fields of a physical frame address, the areas of a
layer, home addresses, and the band, track and position of a frame. -/

namespace Sys2Proof.Machine

/-- Logical blocks of a disc (R169). -/
def lbnCount : Nat := 244140625
/-- Frame numbers of a layer that name a frame (R166). -/
def frameCount : Nat := 35783904
/-- Side of a frame address, and so its head (R148, R166). -/
def pfaSide (a : Nat) : Nat := bitsOf a 29 29
/-- Layer of a frame address (R166). -/
def pfaLayer (a : Nat) : Nat := bitsOf a 28 27
/-- Frame number within the layer (R166). -/
def pfaFrame (a : Nat) : Nat := bitsOf a 26 0
/-- Hoist within the layer (R166). -/
def pfaHoist (a : Nat) : Nat := pfaFrame a / 32
/-- Surface 4 s + l of a frame address. -/
def pfaSurface (a : Nat) : Nat := 4 * pfaSide a + pfaLayer a
/-- Frame address of frame i of a hoist of a surface. -/
def pfaOf (side layer hoist i : Nat) : Nat := side * 2 ^ 29 + layer * 2 ^ 27 + 32 * hoist + i

/-- The areas of a layer (R165). -/
inductive Area where
  | info | cal | user | map | spare
  deriving DecidableEq, Repr

/-- The area a hoist lies in (R165). -/
def areaOf (hoist : Nat) : Area :=
  if hoist < 192 then .info else if hoist < 4992 then .cal else if hoist < 540000 then .user
  else if hoist < 552000 then .map else if hoist < 636000 then .spare else .user

/-- The hoist of a layer that holds user group ug's hoist h (R167). -/
def userHoistIn (ug h : Nat) : Nat := 3 * (if ug < 178336 then ug + 1664 else ug + 33664) + h
/-- Home frame address of user hoist u, frame j (R167). -/
def homeOfHoist (u j : Nat) : Nat :=
  let w := u / 2
  let v := w % 1017255
  pfaOf (u % 2) (w / 1017255) (userHoistIn (v / 3) (v % 3)) j
/-- Home frame address of a logical block (R167). -/
def homeOf (lbn : Nat) : Nat := homeOfHoist (lbn / 30) (lbn % 30)
/-- The user hoist whose home is a hoist of the user zone: the converse of R167. -/
def userHoistOf (a : Nat) : Nat :=
  let hst := pfaHoist a
  let g := hst / 3
  let ug := if g < 180000 then g - 1664 else g - 33664
  2 * (pfaLayer a * 1017255 + 3 * ug + hst % 3) + pfaSide a

/-- First position of density step z, z at least 1 (R168). -/
def stepStart (z : Nat) : Nat := 1862 + 69 * (133 * (z - 1) + z * (z - 1) / 2)
/-- The density step of a position at or past step 1: raised while the next step starts at or before it (R168). -/
def stepOf : Nat → Nat → Nat → Nat
  | 0, _, z => z
  | n + 1, pos, z => if z < 190 ∧ stepStart (z + 1) ≤ pos then stepOf n pos (z + 1) else z
/-- Position along the layer of a frame (R168). -/
def posOf (a : Nat) : Nat := 8 * (pfaHoist a / 3) + pfaFrame a % 32 / 4
/-- The band of a position along the layer (R168). -/
def bandOfPos (pos : Nat) : Nat :=
  if pos < 1862 then pos / 133
  else let z := stepOf 190 pos 1; 69 * z - 55 + (pos - stepStart z) / (133 + z)
/-- The band of a frame address (R168). -/
def bandOf (a : Nat) : Nat := bandOfPos (posOf a)
/-- The position within its band of a frame (R168). -/
def posInBand (a : Nat) : Nat :=
  let pos := posOf a
  if pos < 1862 then pos % 133
  else let z := stepOf 190 pos 1; (pos - stepStart z) % (133 + z)
/-- The track, and so the beam, of a frame (R162). -/
def trackOf (a : Nat) : Nat :=
  let i := pfaFrame a % 32
  3 * (i % 4) + (pfaHoist a % 3 + 3 * 8 - i / 4) % 3

end Sys2Proof.Machine
end

