-- ==== Sys2Proof/Machine/Faults.lean ====
section
/-! DEFINITION. Ending commands, write inhibit, the safety sequence, the controlled stop and deck-core faults: the
operations that a fault anywhere in the device may call (R122, R349 to R352, R452, R509, R600 to R607). -/

namespace Sys2Proof.Machine

/-! The end of a command. -/

/-- Identifier of a slot's command: bytes 2 to 3 of its entry (NVMe). -/
def Slot.cid (x : Slot) : Nat := leAt x.sqe 2 2
/-- The completion entry of a slot's command. -/
def slotCqe (x : Slot) (sct sc more dw0 dw1 : Nat) (s : State) : Cqe :=
  let q := (Tbl.at s.host.sqs x.sqid).getD { size := 1, cqid := 0 }
  { cqid := q.cqid, sqid := x.sqid, cid := x.cid, sqhd := q.head, sct := sct, sc := sc, more := more, dw0 := dw0,
    dw1 := dw1, phase := false }

/-- Whether a command of an ordered queue must wait: an earlier command of the queue is not complete (R452). -/
def orderedBlocked (sqid order : Nat) (s : State) : Bool :=
  s.liveSlots.any (fun e => e.2.sqid == sqid && e.2.ordered && decide (e.2.order < order))
/-- Posts the held completions of an ordered queue whose earlier commands have all completed, in order (R452). -/
def releaseOrdered (s : State) : State :=
  (sortBy (fun (a b : Nat × Cqe) => decide (a.1 < b.1)) s.host.ordered).foldl (fun s e =>
    if orderedBlocked e.2.sqid e.1 s then s
    else postCqe e.2 { s with host := { s.host with
      ordered := s.host.ordered.filter (fun f => decide (f.1 ≠ e.1)) } }) s
/-- Posts a slot's completion, held back while its ordered queue requires it (R452). -/
def postSlot (x : Slot) (sct sc more dw0 dw1 : Nat) (s : State) : State :=
  let c := slotCqe x sct sc more dw0 dw1 s
  if x.ordered && orderedBlocked x.sqid x.order s then
    { s with host := { s.host with ordered := s.host.ordered ++ [(x.order, c)] } }
  else postCqe c s

/-- Ends the command of slot i: it keeps its slot (R122), its completion is posted unless it is a job (R477), its
transfers are told to stop when another than firmware ends it (R122), and the arbiter takes its pennants back
(R124); energy spent beyond its bound is recorded (R478). -/
def endCommand (i : Nat) (how : Ended) (sct sc more dw0 dw1 : Nat) (s : State) : State :=
  let x := s.slot i
  let tag := s.tagOf i
  let s := (recordSpent i s).modSlot i (fun x => { x with phase := .ended, ended := how })
  let s := if x.job then s else postSlot x sct sc more dw0 dw1 s
  let s := if how = .firmware then s
    else { s with adm := { s.adm with xfers := s.adm.xfers.map (fun t =>
      if t.tag = tag ∧ t.stop = none then { t with stop := some how } else t) } }
  releaseOrdered (takeBack i s)

/-! Write inhibit (R349 to R352). -/

/-- Offset of fe.wi.stat[h] (R349). -/
def wiOff (h : Nat) : Nat := 0x2160 + 8 * h
/-- Whether head h of slice k has write inhibit raised: arm is 0, or a source is latched (R349). -/
def wiRaised (s : State) (k h : Nat) : Bool :=
  decide (s.ff k (0x2100 + 8 * h) 63 63 = 0) || decide (s.ff k (wiOff h) 9 0 ≠ 0)
/-- A drive's media channel. -/
def State.channel (s : State) (k : Nat) : Channel := Tbl.at s.chan k
/-- Replaces a drive's media channel. -/
def State.setChannel (s : State) (k : Nat) (x : Channel) : State := { s with chan := Tbl.upd k x s.chan }
/-- Replaces a drive's channel queue. -/
def State.setQueue (s : State) (k : Nat) (q : List Chop) : State := s.setChannel k { s.channel k with queue := q }

/-- The running WRITE of a head, be it on its way or burning, is to end with cstat 0x02 (R253, R351). -/
def inhibitWrites (k h : Nat) (s : State) : State :=
  s.setQueue k ((s.channel k).queue.map (fun c =>
    if c.op = 2 ∧ c.started ∧ pfaSide c.pfa = h ∧ c.stopWith = 0 then { c with stopWith := 2 }
    else c))
/-- Latches source `bit` of head h's write inhibit; a running WRITE of the head is to end with cstat 0x02 (R349,
R351). Each raising from the lowered state counts in F-die unit 4 or 5 (R624). -/
def raiseWi (k h bit : Nat) (s : State) : State :=
  let s := if wiRaised s k h then s else s.count (4 + k) (4 + h) 1
  inhibitWrites k h (s.setFf k (wiOff h) bit bit 1)

/-! The safety sequence (R509). -/

/-- A slice's safety sequence. -/
def State.seq (s : State) (k : Nat) : SafetySeq := Tbl.at s.safe k
/-- Replaces a slice's safety sequence. -/
def State.setSeq (s : State) (k : Nat) (x : SafetySeq) : State := { s with safe := Tbl.upd k x s.safe }
/-- Whether an output channel is a laser current (R203). -/
def laserChannel (ch : Nat) : Bool := decide (0x20 ≤ ch) && decide (ch ≤ 0x4F)
/-- Whether fe.io.safe of slice k must be 0: the gates are enabled, a laser or servo laser is on, or a bridge is enabled
(R639). -/
def safeBlocked (s : State) (k : Nat) : Bool :=
  decide (s.ff k 0x2018 0 0 = 1) || decide (s.ff k 0x2140 0 0 = 1) || decide (s.ff k 0x2148 0 0 = 1) ||
  decide (s.ff k 0x2020 15 8 ≠ 0) || decide (s.ff k 0x2020 5 0 ≠ 0) ||
  s.outs.any (fun e => e.1 / 256 == k && laserChannel (e.1 % 256) && decide (e.2 ≠ none) && decide (e.2 ≠ some 0))
/-- safe clears as soon as one of those holds. -/
def dropSafe (k : Nat) (s : State) : State := if safeBlocked s k then s.setFf k 0x2040 7 7 0 else s
/-- Triggers slice k's safety sequence: fe.wi.stat.safe on both heads, every laser and servo laser off, spindle gates and
aberration bridges off; a second trigger during a sequence has no further effect (R509). -/
def triggerSafety (k : Nat) (s : State) : State :=
  if (s.seq k).run then s
  else
    let s := raiseWi k 1 9 (raiseWi k 0 9 s)
    let s := (s.setFf k 0x2018 0 0 0).setFf k 0x2020 15 12 0
    let s := (s.setFf k 0x2140 0 0 0).setFf k 0x2148 0 0 0
    let s := { s with
      outs := s.outs.filter (fun e => !(e.1 / 256 == k && laserChannel (e.1 % 256)))
      lit := s.lit.filter (fun e => e.1 / 24 != k) }
    (s.setSeq k { run := true, at_ := s.time }).count (4 + k) 3 1

/-! The controlled stop (R604 to R607). -/

/-- Whether a controlled stop is in force: deck cores and loop engines are held (R606). -/
def State.stopped (s : State) : Bool := decide (s.cf 0 0x0200 20 20 = 1)

/-- A controlled stop with a code of R604: the record, write inhibit and the safety sequence on every slice, then
every accepted command completed with Internal Error and CSTS.CFS set (R606). A loss of REFCLK takes the host port's
means to post away, and the link goes down instead (log entry 9). One in force already takes no second. -/
def controlledStop (code : Nat) (s : State) : State :=
  if s.stopped then s
  else
    let s := logFault 0x0002 0xFF 0xFF 0xFF 0xFF code s
    let s := upTo s.nslices triggerSafety s
    let s := (s.setCf 0 0x0200 20 20 1).setCf 0 0x0200 31 24 code
    let s := { s with rst := { s.rst with stopAt := s.time, endWaits := false } }
    let s := if code = 7 then { s with host := { s.host with linkUp := false, fetching := false, cqs := [] } }
      else { s with host := { s.host with fetching := false } }
    let s := s.liveSlots.foldl (fun s e => endCommand e.1 .aborted 0 6 0 0 0 s) s
    { s with host := { s.host with csts := s.host.csts ||| 2 } }

/-! Deck-core faults (R600 to R603). -/

/-- Every command core c holds returns to its dispatch queue, as though by QDEFER with a not-before time of 0, unless
a POST-form QDONE naming it has been accepted (R602). -/
def redispatch (c : Nat) (s : State) : State :=
  s.liveSlots.foldl (fun s e =>
    if e.2.phase = .taken ∧ e.2.takenBy = some c ∧ ¬ e.2.posting then
      s.modSlot e.1 (fun x => { x with phase := .queued, notBefore := 0,
                                       service := x.service + (s.time - x.takenAt) })
    else s) s

/-- A level's code (R43). -/
def Level.code : Level → Nat
  | .task => 0 | .supervisor => 1 | .boot => 3

/-- A deck-core fault: reason 1 double fault, 2 watchdog, 3 state error (R609). Before seal it is controlled-stop code
9, and within 1 ms of the core's last restart code 10 (R604). Otherwise the core stops, its commands return to their
queue, its account's pennants go back and its tickets end without notices (R601); its registers stay as they are (R76), and
`stopSeq` keeps the record's number for DECK_CORE_RESTART, which follows. -/
def deckCoreFault (c reason : Nat) (s : State) : State :=
  let k := s.core c
  if !s.sealed then
    controlledStop 9 (s.setCore c { k with run := .stopped })
  else if (match k.restartAt with
      | some t => decide (s.time < t + 1000000)
      | none => false) then
    controlledStop 10 (s.setCore c { k with run := .stopped })
  else
    let detail := reason + k.cause.toNat % 256 * 2 ^ 8 + k.epc.toNat % 2 ^ 40 * 2 ^ 16
    let s := logFault 0x0003 (c / 8) c (c / 8) 0xFF detail s
    let s := s.setCore c { k with run := .stopped, stopSeq := s.flt.head }
    let s := redispatch c s
    let uj := Tbl.at s.adm.accounts c
    let s := { s with adm := { s.adm with
      accounts := Tbl.upd c 0 s.adm.accounts
      tickets := s.adm.tickets.filter (fun t => decide (t.core ≠ c)) } }
    giveBack uj s

end Sys2Proof.Machine
end

