-- ==== Sys2Proof/Machine/Memory.lean ====
section
/-! DEFINITION. Memory: `mem` is what an access sees (the staging cache included), keyed by one flat number per byte:
core-local memory of core i at 0x0100_0000 + i * 0x8_0000, the scratchpad of die d at 0x2000_0000 + d * 0x100_0000,
the AON retained SRAM at 0x3000_0000, GDDR6 at its physical address (R88), and a page's memory windows at their page
address (R618). `ecc` holds error states: per 8-byte word of GDDR6, per byte of an on-die SRAM (R414). `cache.lines`
says which lines a staging cache holds and, under a dirty one, what GDDR6 holds (R400 to R408). -/

namespace Sys2Proof.Machine

/-- First byte of core i's core-local memory (R88). -/
def localBase (i : Nat) : Nat := 0x0100_0000 + i * 0x8_0000
/-- First byte of die d's scratchpad (R88). -/
def scratchBase (d : Nat) : Nat := 0x2000_0000 + d * 0x100_0000
/-- First byte of the AON retained SRAM (R88, R589). -/
def aonBase : Nat := 0x3000_0000
/-- First byte of die d's GDDR6 (R88). -/
def gddrBase (d : Nat) : Nat := 0x10_0000_0000 + d * 0x1_0000_0000

/-- Which memory a byte lies in, numbered as fault detail [50:48] (R609): 1 core-local, 2 scratchpad, 3 GDDR6, 4 other
on-die SRAM. -/
def memKind (a : Nat) : Nat :=
  if 0x10_0000_0000 ≤ a then 3
  else if 0x0100_0000 ≤ a ∧ a < 0x0200_0000 then 1
  else if 0x2000_0000 ≤ a ∧ a < 0x2400_0000 then 2
  else 4
/-- The C-die a byte of memory belongs to; the AON's is the lead. -/
def memDie (a : Nat) : Nat :=
  if 0x10_0000_0000 ≤ a then (a - 0x10_0000_0000) / 0x1_0000_0000
  else if 0x0100_0000 ≤ a ∧ a < 0x0200_0000 then (a - 0x0100_0000) / 0x40_0000
  else if 0x2000_0000 ≤ a ∧ a < 0x2400_0000 then (a - 0x2000_0000) / 0x100_0000
  else if 0x1100_0000 ≤ a ∧ a < 0x1140_0000 then (a - 0x1100_0000) / 0x10_0000
  else 0
/-- The address the map of R88 gives a byte, seen from its own die. -/
def archAddr (a : Nat) : Nat :=
  if memKind a = 1 then 0x0100_0000 + (a - 0x0100_0000) % 0x40_0000
  else if memKind a = 2 then 0x2000_0000 + (a - 0x2000_0000) % 0x100_0000
  else a

/-- The value of hr.loan[i]: entries 0 to 15 lent, 16 to 31 borrowed (R578). -/
def loanWord (i : Nat) (l : Option Loan) : Nat :=
  match l with
  | none => 0
  | some l => 2 ^ 63 + l.state * 2 ^ 60 + b2n (decide (16 ≤ i)) * 2 ^ 59 + l.peer * 2 ^ 48 + l.rate * 2 ^ 32 + l.num
/-- The loan ledger as the retained SRAM holds it (R569, R589). -/
def ledgerBytes (s : State) : List Byte :=
  let body := padTo 1020 ((List.range 32).flatMap (fun i =>
    let l := Tbl.at s.ring.loans i
    leBytes 8 (loanWord i l) ++ leBytes 8 (match l with
      | some l => Config.ledgerState l.state l.tries l.sentAt
      | none => 0)))
  body ++ leBytes 4 (crc32c body)
/-- The values that the device status words hold (R589); how they are placed there the spec does not give. -/
def statusWords (s : State) : List Nat :=
  [(s.reg (cAddr 0 0xD088)).toNat, (s.reg (cAddr 0 0xD0A0)).toNat, (s.reg (cAddr 0 0xE000)).toNat,
   (s.reg (cAddr 0 0xE028)).toNat, (s.reg (cAddr 0 0xE030)).toNat, s.flt.boots]
/-- Bytes of the retained SRAM that hardware keeps from its own state: the staging area, and from the ledger on all but the
firmware words (R589, R592). -/
def keptByHardware (off : Nat) : Bool :=
  (decide (0x6500 ≤ off) && decide (off < 0xA600)) || (decide (0xE700 ≤ off) && decide (off < 0xFE00))
/-- What such a byte reads: the staging area, the ledger, the fault log, the status words (R589). -/
def aonByte (s : State) (off : Nat) : Byte :=
  if off < 0xA600 then
    match s.aon.staging with
    | some g => Config.stagingByte g.target g.seq g.valid g.bytes (off - 0x6500)
    | none => 0
  else if off < 0xEB00 then (ledgerBytes s).getD (off - 0xE700) 0
  else if off < 0xFB00 then s.flt.ring.getD (off - 0xEB00) 0
  else Config.statusByte (statusWords s) (off - 0xFB00)

/-- A byte of memory; one that nothing has written reads 0 (log entry 1). Part of the retained SRAM reads what the hardware
keeps there. -/
def State.byte (s : State) (a : Nat) : Byte :=
  if aonBase ≤ a ∧ keptByHardware (a - aonBase) then aonByte s (a - aonBase) else Tbl.at s.mem a
/-- Writes a byte of memory. -/
def State.setByte (s : State) (a : Nat) (b : Byte) : State := { s with mem := Tbl.upd a b s.mem }
/-- Memory's canonical form. -/
abbrev Memory.wf (m : Tbl Byte) : Prop := Tbl.Canon (fun _ => (default : Byte)) m
/-- n bytes from an address. -/
def State.bytes (s : State) (a n : Nat) : List Byte := (List.range n).map (fun i => s.byte (a + i))
/-- Writes bytes from an address. -/
def State.poke (s : State) (a : Nat) : List Byte → State
  | [] => s
  | b :: t => (s.setByte a b).poke (a + 1) t
/-- A little-endian number of n bytes at an address. -/
def State.num (s : State) (a n : Nat) : Nat := ofLe (s.bytes a n)

/-! Error states (R414 to R416). -/

/-- The code word a byte belongs to: its 8-byte word in GDDR6, itself in an SRAM. -/
def eccKey (a : Nat) : Nat := if memKind a = 3 then a / 8 * 8 else a
/-- A byte's error state. -/
def State.eccAt (s : State) (a : Nat) : Ecc := Tbl.get (fun _ => .clean) s.ecc (eccKey a)
/-- Sets the error state of a byte's code word. -/
def State.setEcc (s : State) (a : Nat) (e : Ecc) : State :=
  { s with ecc := Tbl.set (fun _ => .clean) (eccKey a) e s.ecc }
/-- The code words that n bytes from an address touch, in rising order. -/
def eccKeys (a n : Nat) : List Nat :=
  if memKind a = 3 then (List.range (ceilDiv (a % 8 + n) 8)).map (fun i => a / 8 * 8 + 8 * i)
  else (List.range n).map (fun i => a + i)
/-- Whether any of n bytes from an address is uncorrectable or poisoned. -/
def State.hasBad (s : State) (a n : Nat) : Bool := (eccKeys a n).any (fun w => decide (s.eccAt w = .bad))

/-- A deck core's corrected-error report takes one correction of a source (R655). -/
def Core.corrected (src : Nat) (k : Core) : Core :=
  if k.cerPend then { k with cerCnt := if k.cerCnt < 65535 then k.cerCnt + 1 else 65535 }
  else { k with cerPend := true, cerCnt := 1, cerSrc := src }

/-- The source a deck core's report gives for a correction: the spec names none for a memory other than the three of R416,
so that one is free (R655; log entry 36). -/
def correctedSource (s : State) (w : Nat) : Nat × State :=
  if memKind w = 4 then let n := s.freshNat; (n.1 % 4, n.2) else (memKind w, s)
/-- A read corrects what it can: each code word with a correctable error is written back clean and counted, and a
deck core's report records it (R416, R655). -/
def healRead (c : Option Nat) (a n : Nat) (s : State) : State :=
  (eccKeys a n).foldl (fun s w =>
    if s.eccAt w = .corr then
      let s := (s.setEcc w .clean).count (memDie w) (if memKind w = 3 then 355 else 357) 1
      match c with
      | some c => let r := correctedSource s w; r.2.modCore c (Core.corrected r.1)
      | none => s
    else s) s

/-- The line of an address. -/
def lineAddr (a : Nat) : Nat := a / 128 * 128
/-- The line a die's cache holds of an address, in any of its 16 ways (R402). -/
def State.lineAt (s : State) (a : Nat) : Option Line :=
  s.cache.lines.find? (fun l => decide (l.die = memDie a ∧ l.addr = lineAddr a))
/-- Counts the uncorrectable words or bytes an access found; a word that stands poisoned in a line was counted when its line
was filled (R415, R423). -/
def countBad (a n : Nat) (s : State) : State :=
  s.count (memDie a) (if memKind a = 3 then 356 else 358)
    ((eccKeys a n).filter (fun w => decide (s.eccAt w = .bad) && !(memKind a == 3 && (s.lineAt w).isSome))).length

/-- The fault-log record of an uncorrectable error (R420, R609, R652). -/
def logUncorrectable (initiator a : Nat) (s : State) : State :=
  logFault 0x0020 (memDie a) initiator (memDie a) 0xFF
    (archAddr a + initiator * 2 ^ 40 + memKind a * 2 ^ 48) s

/-! The instruction caches (R66). -/

/-- The lines core c's instruction cache holds. -/
def State.icacheOf (s : State) (c : Nat) : List Nat := Tbl.at s.icache c
/-- Core c's instruction cache is discarded. -/
def State.dropIcache (s : State) (c : Nat) : State := { s with icache := Tbl.upd c [] s.icache }
/-- A line comes into core c's instruction cache, and may put one out: which the spec does not say, so that is free; 8,192 lines,
of one instruction each, are the most that 32 KiB hold (R66; log entry 118). -/
def State.fillIcache (s : State) (c line : Nat) : State :=
  let n := s.freshNat
  let held := s.icacheOf c
  let out := n.1 % (if held.length < 8192 then held.length + 1 else held.length)
  { n.2 with icache := Tbl.upd c (line :: held.eraseIdx out) s.icache }

/-! The staging cache (R400 to R408). -/

/-- The set index of a normal way (R401). -/
def setIndex (a : Nat) : Nat :=
  Nat.xor (Nat.xor (bitsOf a 20 7) (bitsOf a 34 21)) (bitsOf a 39 35 * 2 ^ 9)
/-- The sector-set index of a sectored way (R401). -/
def sectorIndex (a : Nat) : Nat :=
  Nat.xor (Nat.xor (bitsOf a 20 10) (bitsOf a 31 21)) (bitsOf a 39 32 * 2 ^ 3)
/-- A way of a die's cache. -/
def State.way (s : State) (d w : Nat) : Way := Tbl.at s.cache.ways (d * 16 + w)
/-- Replaces a way. -/
def State.setWay (s : State) (d w : Nat) (x : Way) : State :=
  { s with cache := { s.cache with ways := Tbl.upd (d * 16 + w) x s.cache.ways } }
/-- Replaces the lines. -/
def State.setLines (s : State) (ls : List Line) : State := { s with cache := { s.cache with lines := ls } }
/-- Updates the line of an address. -/
def State.modLine (s : State) (a : Nat) (f : Line → Line) : State :=
  s.setLines (s.cache.lines.map (fun l => if l.die = memDie a ∧ l.addr = lineAddr a then f l else l))

/-! The pseudo-LRU trees (R404; log entry 8). -/

/-- The key of the tree of the set an address has in a way. -/
def plruKey (w a : Nat) : Nat := 32768 * memDie a + (if w < 4 then 16384 + sectorIndex a else setIndex a)
/-- A tree after way w was used: each node on the way's path points away from it. -/
def plruUsed (w bits : Nat) : Nat :=
  (List.range 4).foldl (fun b i =>
    let child := (16 + w) / 2 ^ i
    putBits b (child / 2) (child / 2) (b2n (child % 2 == 0))) bits
/-- The way that a tree names among the eligible ones, from node n with k levels beneath it: each node is followed to the side
it points at, or to the other where no eligible way lies on that side. -/
def plruWalk (els : List Nat) (bits : Nat) : Nat → Nat → Nat
  | 0, n => n - 16
  | k + 1, n =>
    let has := fun m => els.any (fun w => (16 + w) / 2 ^ k == m)
    let right := if bitSet bits n then has (2 * n + 1) else !has (2 * n)
    plruWalk els bits k (2 * n + b2n right)
/-- The victim of a fill of an address among eligible ways. -/
def victimWay (els : List Nat) (a : Nat) (s : State) : Nat :=
  plruWalk els (Tbl.at s.cache.plru (plruKey (els.headD 4) a)) 4 1
/-- A use of the line of an address, held in way w. -/
def useWay (w a : Nat) (s : State) : State :=
  let k := plruKey w a
  { s with cache := { s.cache with plru := Tbl.upd k (plruUsed w (Tbl.at s.cache.plru k)) s.cache.plru } }

/-! Lines that come and go. -/

/-- What mem.inj injects into a write of a GDDR6 word: one flipped bit is correctable, two are not (R413, R414). It
disarms when used. -/
def injectInto (w : Nat) (s : State) : Ecc × State :=
  let d := memDie w
  if s.cf d 0x9818 63 63 = 1 ∧ s.cf d 0x9818 39 3 * 8 = w then
    let b1 := s.cf d 0x9818 62 56
    let b2 := s.cf d 0x9818 55 49
    let flips := (if b1 ≤ 71 then [b1] else []) ++ (if b2 ≤ 71 ∧ b2 ≠ b1 then [b2] else [])
    let flips := if b1 = b2 then [] else flips
    (if flips.length = 0 then .clean else if flips.length = 1 then .corr else .bad, s.setCf d 0x9818 63 63 0)
  else (.clean, s)

/-- Takes a line out of the cache; errors injected at its write-back show now. -/
def dropLine (a : Nat) (s : State) : State :=
  match s.lineAt a with
  | none => s
  | some l =>
    l.latent.foldl (fun s e => s.setEcc e.1 e.2)
      (s.setLines (s.cache.lines.filter (fun m => decide (¬ (m.die = memDie a ∧ m.addr = lineAddr a)))))

/-- A line is read from GDDR6 into a way: what is correctable is corrected and reported, what is not is poisoned in the line
(R402, R415, R416, R423). -/
def fillWay (core : Option Nat) (w a : Nat) (s : State) : State :=
  let s := countBad (lineAddr a) 128 (healRead core (lineAddr a) 128 s)
  useWay w a (s.setLines (s.cache.lines ++ [{ die := memDie a, way := w, addr := lineAddr a }]))

/-- A correction that a deck core's access met in the cache, which its report gives as of GDDR6 (R416). -/
def reportCorrected (core : Option Nat) (s : State) : State :=
  match core with
  | some c => s.modCore c (Core.corrected 3)
  | none => s
/-- A read of bytes a to a + n - 1 of a line meets what the data array holds in error: a correctable byte is corrected; an
uncorrectable one has a clean line invalidated and refilled from GDDR6, which counts as a correction, and poisons the word
of a dirty one (R415 to R417, R423). -/
def settleLine (core : Option Nat) (a n : Nat) (l : Line) (s : State) : State :=
  let met := l.errs.filter (fun e => decide (a ≤ e.1) && decide (e.1 < a + n))
  if met = [] then s
  else if !l.dirty && met.any (fun e => e.2 == .bad) then
    fillWay core l.way l.addr (dropLine l.addr (reportCorrected core (s.count l.die 357 1)))
  else
    let s := s.modLine l.addr (fun m => { m with errs := m.errs.filter (fun e => !met.contains e) })
    met.foldl (fun s e => match e.2 with
      | .clean => s
      | .corr => reportCorrected core (s.count l.die 357 1)
      | .bad => (s.setEcc e.1 .bad).count l.die 358 1) s
/-- The first word of n bytes of GDDR6 from an address that is uncorrectable, if any. -/
def badWord (s : State) (a n : Nat) : Option Nat :=
  (s.ecc.find? (fun e => decide (a ≤ e.1) && decide (e.1 < a + n) && decide (e.2 = .bad))).map Prod.fst
/-- The lines n bytes from an address touch. -/
def linesOf (a n : Nat) : List Nat := (List.range (ceilDiv (a % 128 + n) 128)).map (fun i => lineAddr a + 128 * i)
/-- Writes a dirty line back: one 128-byte write, each word with fresh check bits unless it is poisoned (R404, R405,
R415). The line stays, clean; an injected error shows when the line leaves. -/
def cleanLine (l : Line) (s : State) : State :=
  if l.dirty then
    let s := settleLine none l.addr 128 l s
    let r := (eccKeys l.addr 128).foldl (fun (acc : List (Nat × Ecc) × State) w =>
      let i := injectInto w acc.2
      (if i.1 = .clean then acc.1 else acc.1 ++ [(w, i.1)], i.2)) ([], s)
    let bad := ((eccKeys l.addr 128).filter (fun w => decide (s.eccAt w = .bad))).length
    (((r.2.count l.die 354 1).count l.die 359 bad).modLine l.addr
      (fun m => { m with dirty := false, under := [], underEcc := [], latent := m.latent ++ r.1 }))
  else s

/-- A line leaves by the line path: a dirty one is written back, a clean one dropped (R404). -/
def evictLine (l : Line) (s : State) : State := dropLine l.addr (cleanLine l s)

/-- A line is invalidated and its dirty data discarded: GDDR6's bytes and states show again (R127). -/
def discardLine (l : Line) (s : State) : State :=
  let s := dropLine l.addr s
  if l.dirty then
    (eccKeys l.addr 128).zip l.underEcc |>.foldl (fun s e => s.setEcc e.1 e.2) (s.poke l.addr l.under)
  else s

/-- The way of an address's range lock, if a way of its die locks its range (R130, R404). -/
def lockedWay (a : Nat) (s : State) : Option Nat :=
  ((List.range 8).map (· + 8)).find? (fun w =>
    match (s.way (memDie a) w).lock with
    | .range b => decide (b ≤ a ∧ a < b + 0x20_0000)
    | _ => false)

/-- The ways a normal fill may take: 4 to 15, not locked, not withdrawn (R404, R421). -/
def eligibleWays (d : Nat) (s : State) : List Nat :=
  ((List.range 12).map (· + 4)).filter (fun w => decide ((s.way d w).lock = .none) && !(s.way d w).withdrawn)

/-- Fills the line of an address for a deck core: into the way that range-locks it, else into an eligible way without a
line of its set, else in place of the victim its set's tree names, which leaves by the line path (R402, R404; log entry 8).
With no eligible way nothing is filled. -/
def fillLine (core a : Nat) (s : State) : State :=
  let d := memDie a
  match lockedWay a s with
  | some w => fillWay (some core) w a s
  | none =>
    let els := eligibleWays d s
    let inSet := fun (w : Nat) => s.cache.lines.find? (fun l =>
      decide (l.die = d ∧ l.way = w ∧ setIndex l.addr = setIndex a))
    match els.find? (fun w => (inSet w).isNone) with
    | some w => fillWay (some core) w a s
    | none =>
      if els = [] then s
      else
        let w := victimWay els a s
        match inSet w with
        | some l => fillWay (some core) w a (evictLine l s)
        | none => s

/-- The sectored ways of a privileged requester on a die: 0 the security engine, 1 the map engine, 2 the admission unit, 3 the
loop-parameter area (R403). -/
def partWays (d req : Nat) (s : State) : List Nat :=
  (List.range 4).filter (fun w => bitSet (s.cf d 0x9000 (4 * req + 3) (4 * req)) w)
/-- Fills the missing sub-block of an address for a privileged requester: into the way of its ways that holds its sector, else
into one with no sector in the sector set, else in place of the sector its tree names, which leaves by the sector path (R402
to R404). A requester without ways allocates nothing. -/
def fillSub (req a : Nat) (s : State) : State :=
  let d := memDie a
  let els := partWays d req s
  let held := fun (w : Nat) => s.cache.lines.filter (fun l =>
    decide (l.die = d ∧ l.way = w ∧ sectorIndex l.addr = sectorIndex a))
  match els.find? (fun w => (held w).any (fun l => l.addr / 1024 == a / 1024)) with
  | some w => fillWay none w a s
  | none =>
    match els.find? (fun w => (held w).isEmpty) with
    | some w => fillWay none w a s
    | none =>
      if els = [] then s
      else
        let w := victimWay els a s
        fillWay none w a ((held w).foldl (fun s l => evictLine l s) s)

/-- A line a write lands in becomes dirty, and keeps what GDDR6 holds beneath it. -/
def markDirty (a : Nat) (s : State) : State :=
  let under := s.bytes (lineAddr a) 128
  let states := (eccKeys (lineAddr a) 128).map (fun w => s.eccAt w)
  s.modLine a (fun l => if l.dirty then l else { l with dirty := true, under := under, underEcc := states })

/-- Whether a line lies in the set that a look-up of an address reads in the line's way (R401, R402). -/
def sameSet (a : Nat) (l : Line) : Bool :=
  decide (l.die = memDie a) &&
  (if l.way < 4 then sectorIndex l.addr == sectorIndex a else setIndex l.addr == setIndex a)
/-- A look-up of an address reads both copies of every tag of its set: one bit in a copy is corrected, a copy beyond that is
rebuilt from the other, and counted; with both beyond it a controlled stop of code 5 comes (R402, R414, R416, R604). -/
def settleTags (a : Nat) (s : State) : State :=
  let met := s.cache.lines.filter (fun l => sameSet a l && decide (l.tags ≠ (.clean, .clean)))
  if met = [] then s
  else
    let lost := fun (l : Line) => decide (l.tags = (.bad, .bad))
    let mended := (met.filter (fun l => !lost l)).map (fun l =>
      b2n (decide (l.tags.1 ≠ .clean)) + b2n (decide (l.tags.2 ≠ .clean)))
    let s := (s.setLines (s.cache.lines.map (fun l =>
      if sameSet a l && !lost l then { l with tags := (.clean, .clean) } else l))).count (memDie a) 357 mended.sum
    if met.any lost then controlledStop 5 s else s

/-- A deck core's access to n bytes of GDDR6 looks its line up and counts the hit or miss; a hit settles what the data array
holds of the bytes in error, a miss fills the line, or is made at GDDR6 where nothing is filled; the line a write lands in is
dirty then (R402, R404, R416, R417, R423). -/
def touchLine (c : Nat) (write load : Bool) (a n : Nat) (s : State) : State :=
  let s := settleTags a s
  let s := match s.lineAt a with
    | some l =>
      let s := useWay l.way a (s.count (memDie a) 352 1)
      if write then s else settleLine (some c) a n l s
    | none =>
      let s := s.count (memDie a) 353 1
      let s := fillLine c a (if load then s.count (c / 8) (32 * (c % 8) + 3) 1 else s)
      if (s.lineAt a).isSome then s else countBad a n s
  if write then markDirty a s else s

/-- A deck core's access to n bytes of a memory: in GDDR6 it goes through the staging cache (R402). -/
def reachMem (c : Nat) (write load : Bool) (key n : Nat) (s : State) : State :=
  if memKind key = 3 then touchLine c write load key n s else s

/-- A hardware block's read of n bytes of GDDR6 settles what the lines that hold them, and the tags it looks up, have in error. -/
def settle (core : Option Nat) (a n : Nat) (s : State) : State :=
  if memKind a = 3 then
    (linesOf a n).foldl (fun s la =>
      let s := settleTags la s
      match s.lineAt la with
      | some l => settleLine core a n l s
      | none => s) s
  else s

/-- A privileged requester's access to n bytes: each sub-block is looked up and, where missing, filled; those a write lands in
are dirty then (R402, R403). -/
def privTouch (req : Nat) (write : Bool) (a n : Nat) (s : State) : State :=
  (linesOf a n).foldl (fun s la =>
    let s := settleTags la s
    let s := match s.lineAt la with
      | some l => useWay l.way la (if write then s else settleLine none a n l s)
      | none => fillSub req la s
    if write then markDirty la s else s) s

/-- A privileged requester's read of n bytes: the first word it finds uncorrectable, or none, what is correctable corrected
(R402, R416, R420). -/
def privRead (req a n : Nat) (s : State) : Option Nat × State :=
  let s := privTouch req false a n s
  match (eccKeys a n).find? (fun w => decide (s.eccAt w = .bad)) with
  | some w => (some w, countBad a n s)
  | none => (none, healRead none a n s)

/-- Writes the bytes of one GDDR6 word that lie in [a, a + length): whole words are written with fresh check bits and
heal; a part of an uncorrectable word is not recorded, and one of a correctable word corrects it (R415, R416, R418). -/
def writeWord (a : Nat) (bs : List Byte) (w : Nat) (s : State) : State :=
  let lo := max a w
  let hi := min (a + bs.length) (w + 8)
  let whole := decide (lo = w) && decide (hi = w + 8)
  if whole || decide (s.eccAt w ≠ .bad) then
    let s := if whole then s else healRead none w 8 s
    let s := (s.poke lo ((bs.drop (lo - a)).take (hi - lo))).setEcc w .clean
    if (s.lineAt w).isSome then s
    else let i := injectInto w s; i.2.setEcc w i.1
  else s

/-- Whether a write of n bytes meets an uncorrectable GDDR6 word that it covers in part only (R418, R420). -/
def mergeFails (a n : Nat) (s : State) : Bool :=
  decide (memKind a = 3) &&
  (eccKeys a n).any (fun w => decide (s.eccAt w = .bad) && !(decide (a ≤ w) && decide (w + 8 ≤ a + n)))

/-- Writes bytes to one memory: word by word in GDDR6, byte by byte with fresh check bits in an SRAM (R415, R418). -/
def memWrite (a : Nat) (bs : List Byte) (s : State) : State :=
  if memKind a = 3 then
    (eccKeys a bs.length).foldl (fun s w => writeWord a bs w s)
      ((linesOf a bs.length).foldl (fun s la => s.modLine la (fun l =>
        { l with errs := l.errs.filter (fun e => !(decide (a ≤ e.1) && decide (e.1 < a + bs.length))) })) s)
  else (eccKeys a bs.length).foldl (fun s w => s.setEcc w .clean) (s.poke a bs)

/-- A hardware block's write: lines the cache holds become dirty, others are written at GDDR6 (R402). -/
def dmaWrite (a : Nat) (bs : List Byte) (s : State) : State :=
  let s := if memKind a = 3 then
      (linesOf a bs.length).foldl (fun s l =>
        let s := settleTags l s
        if (s.lineAt l).isSome then markDirty l s else s) s
    else s
  memWrite a bs s

end Sys2Proof.Machine
end

