-- ==== Sys2Proof/Machine/Operands.lean ====
section
/-! DEFINITION. Operand forms: register and predicate fields, immediates, the effective addresses, and the words of
the six formats (R46 to R49, R51), which the traps of causes 0x01 and 0x02 report (R71). -/

namespace Sys2Proof.Machine

/-- Register g[i] of a deck core (R41). -/
def Core.r (k : Core) (i : BitVec 5) : Word := k.g[i.toNat]'(i.isLt)
/-- Writes g[i]. -/
def Core.setR (k : Core) (i : BitVec 5) (v : Word) : Core := { k with g := k.g.set i.toNat v i.isLt }
/-- Predicate p[i]; p0 reads 1 (R41). -/
def Core.pr (k : Core) (i : BitVec 3) : Bool := if i = 0 then true else k.p.getLsbD i.toNat
/-- Writes p[i]; a write to p0 is ignored (R41). -/
def Core.setP (k : Core) (i : BitVec 3) (b : Bool) : Core :=
  if i = 0 then k
  else { k with p := if b then k.p ||| (1#8 <<< i.toNat) else k.p &&& ~~~(1#8 <<< i.toNat) }
/-- Whether a predicated instruction executes: p[pred] xor pneg (R47). -/
def Core.execs (k : Core) (pred : BitVec 3) (pneg : Bool) : Bool := xor (k.pr pred) pneg
/-- The predicates as s.pred shows them: p7 to p0, bit 0 set (R69). -/
def Core.preds (k : Core) : BitVec 8 := k.p ||| 1#8

/-- A 16-bit immediate sign-extended (R56). -/
def simm64 (i : BitVec 16) : Word := i.signExtend 64
/-- A 16-bit immediate zero-extended (R56). -/
def zimm64 (i : BitVec 16) : Word := i.zeroExtend 64
/-- A 13-bit offset sign-extended (R48). -/
def off64 (o : BitVec 13) : Word := o.signExtend 64
/-- A branch displacement in bytes (R49). -/
def disp64 (d : BitVec 21) : Word := d.signExtend 64 <<< 2
/-- Bytes of a size code (R48). -/
def sizeBytes (z : BitVec 2) : Nat := 2 ^ z.toNat
/-- Extends the low bytes of a load as `uns` selects (R48). -/
def extendLoad (bytes : Nat) (uns : Bool) (v : Nat) : Word :=
  if uns then BitVec.ofNat 64 v
  else if bytes = 1 then (BitVec.ofNat 8 v).signExtend 64
  else if bytes = 2 then (BitVec.ofNat 16 v).signExtend 64
  else if bytes = 4 then (BitVec.ofNat 32 v).signExtend 64
  else BitVec.ofNat 64 v

/-- An M-format word (R46). -/
def encM (op : BitVec 6) (rd ra : BitVec 5) (size : BitVec 2) (uns : Bool) (off : BitVec 13) : Word32 :=
  op ++ rd ++ ra ++ size ++ BitVec.ofBool uns ++ off
/-- An S-format word (R46). -/
def encS (rd ra : BitVec 5) (sreg : BitVec 12) (sfunc : BitVec 4) : Word32 := 0x30#6 ++ rd ++ ra ++ sreg ++ sfunc
/-- An X-format word (R46, R91). -/
def encX (rd ra rb : BitVec 5) (xop : BitVec 5) (xmod : BitVec 6) : Word32 := 0x38#6 ++ rd ++ ra ++ rb ++ xop ++ xmod

/-! Fields of an instruction word (R46). -/

/-- Bits hi to lo of an instruction word. -/
def iw (w : Word32) (hi lo : Nat) : Nat := bitsOf w.toNat hi lo

/-- Whether an integer-ALU word of the full profile is an encoding of R52: rb of a one-operand form must be 0. -/
def legalAlu (w : Word32) : Bool :=
  let f := iw w 6 0
  decide (f ≤ 0x0E) || (decide (0x10 ≤ f) && decide (f ≤ 0x16) && decide (iw w 15 11 = 0))
/-- Whether a compare word is an encoding of R54. -/
def legalCmp (w : Word32) : Bool :=
  let f := iw w 6 0
  decide (iw w 25 24 = 0) &&
  (decide (f ≤ 5) || (decide (8 ≤ f) && decide (f ≤ 0x0B) && decide (iw w 20 19 = 0) && decide (iw w 15 14 = 0)))
/-- Whether an immediate word of the full profile is an encoding of R56. -/
def legalImm (w : Word32) : Bool :=
  let op := iw w 31 26
  if 0x0C ≤ op ∧ op ≤ 0x0E then decide (iw w 15 6 = 0)
  else if op = 0x0F then decide (iw w 20 16 = 0)
  else if op = 0x10 then decide (iw w 20 18 = 0)
  else if 0x11 ≤ op then decide (iw w 25 24 = 0)
  else true
/-- Whether a system word is an encoding of R61, R67 and R69: a listed sfunc and special register, and for FENCE the fields
that must be 0; R67 marks no other field so (R51). -/
def legalSys (w : Word32) : Bool :=
  let f := iw w 3 0
  let sreg := iw w 15 4
  let listed := decide (sreg ≤ 0x0E) || decide (sreg = 0x10) || (decide (0x40 ≤ sreg) && decide (sreg ≤ 0xC1))
  if f ≤ 1 then listed
  else if f = 6 then decide (iw w 25 16 = 0) && decide (iw w 15 8 = 0)
  else decide (f ≤ 7)
/-- The device-operation modifiers an operation lists (R103 step 2, R113 to R146): every other value is illegal. -/
def legalXmod (xop xmod : Nat) : Bool :=
  if xop ≤ 3 then true
  else if xop = 5 ∨ xop = 7 ∨ xop = 9 ∨ xop = 0x0A ∨ xop = 0x0C ∨ xop = 0x12 ∨ xop = 0x15 ∨ xop = 0x18 then
    decide (xmod ≤ 1)
  else if xop = 0x0D then decide (xmod ≤ 2)
  else decide (xmod = 0)
/-- Whether a word is an instruction of the full profile (R50 to R67, R91); a legal word of the X format is checked
for its modifiers by its own operation. -/
def legalFull (w : Word32) : Bool :=
  let op := iw w 31 26
  if op = 1 then legalAlu w
  else if op = 2 then decide (iw w 6 0 ≤ 6)
  else if op = 3 then legalCmp w
  else if op = 4 then decide (iw w 6 0 = 0) && decide (iw w 15 11 = 0)
  else if op = 5 then decide (iw w 6 4 ≤ 2) && decide (iw w 2 2 = 0)
  else if 8 ≤ op ∧ op ≤ 0x13 then legalImm w
  else if op = 0x18 then !(decide (iw w 15 14 = 3) && decide (iw w 13 13 = 1))
  else if op = 0x19 then decide (iw w 13 13 = 0)
  else if op = 0x20 then true
  else if op = 0x30 then legalSys w
  else if op = 0x38 then decide (iw w 10 6 ≤ 0x18) && legalXmod (iw w 10 6) (iw w 5 0)
  else false

end Sys2Proof.Machine
end

