-- ==== Sys2Proof/Machine/Deck.lean ====
section
/-! DEFINITION. The deck core around an instruction: pending events, taking an event and the double fault, region
and map checks, the fetch, and the frame every full-profile instruction runs in (R43, R44, R71 to R90, R653). -/

namespace Sys2Proof.Machine

/-! Dispatch queues (R118, R452, R458). -/

/-- Whether two commands overlap: both hold a range, of one drive, and share a block (R451). -/
def overlaps (x y : Slot) : Bool :=
  x.hasRange && y.hasRange && x.drive == y.drive &&
  decide (x.slba < y.slba + y.nblocks) && decide (y.slba < x.slba + x.nblocks)
/-- Whether a waiting command can be taken: its not-before time has come, every overlapping command accepted before it
has been taken, on an ordered queue every Flush before it has completed, and a firmware activation does not hold it
(R118, R123, R452, R458). -/
def eligible (s : State) (x : Slot) : Bool :=
  x.phase == .queued && decide (x.notBefore ≤ s.time) &&
  s.liveSlots.all (fun e =>
    (!(decide (e.2.order < x.order) && overlaps e.2 x) || e.2.phase == .taken) &&
    !(x.ordered && e.2.sqid == x.sqid && decide (e.2.order < x.order) && decide (e.2.opcode = 0) && !e.2.job)) &&
  (match s.host.activation with
   | some v => decide (x.d ≤ v.t + 2000000000)
   | none => true)
/-- The eligible commands of a drive's dispatch queue. -/
def eligibleOn (s : State) (k : Nat) : List (Nat × Slot) :=
  s.adm.slots.filter (fun e => e.2.drive == k && eligible s e.2)

/-! Events (R71 to R77). -/

/-- A synchronous event: its cause, s.eaddr and s.einfo (R71). -/
structure Ev where
  cause : Nat
  eaddr : Word
  einfo : Word
  deriving DecidableEq, Repr

/-- The newest record that notifies core c beyond what it has acknowledged (R610). -/
def faultPending (s : State) (c : Nat) : Option Nat :=
  ((s.flt.recs.filter (fun r => r.notifies c && decide (r.seq > (s.core c).fltAck))).map FaultRec.seq).getLast?
/-- The lowest set bit of db.pend (R73). -/
def lowestSet (n : Nat) (v : BitVec 32) : Option Nat := (List.range n).find? (fun i => v.getLsbD i)

/-- The detail an asynchronous cause would report, when it is pending on core c (R71, R69, R118, R147, R483, R577, R610,
R73, R655). -/
def pendingInfo (s : State) (c cause : Nat) : Option Nat :=
  let k := s.core c
  if cause = 0x20 then (if k.timecmp.toNat ≤ s.cycle then some 0 else none)
  else if cause = 0x21 then (if eligibleOn s (c / 8) ≠ [] then some (c / 8) else none)
  else if cause = 0x22 then k.cq.head?
  else if cause = 0x23 then (if s.ring.rx ≠ [] then some 0 else none)
  else if cause = 0x24 then k.ntc.head?.map Notice.code
  else if cause = 0x25 then faultPending s c
  else if cause = 0x26 then lowestSet 32 k.dbPend
  else if cause = 0x27 then (if k.cerPend then some k.cerSrc else none)
  else none
/-- s.evpend (R69). -/
def evpend (s : State) (c : Nat) : Nat :=
  ((List.range 8).map (fun i => if (pendingInfo s c (0x20 + i)).isSome then 2 ^ i else 0)).sum
/-- The pending enabled causes, lowest first (R72). -/
def enabledPending (s : State) (c : Nat) : List Nat :=
  ((List.range 8).filter (fun i => (pendingInfo s c (0x20 + i)).isSome && flag (s.core c).evmask i)).map (· + 0x20)

/-- Taking an event (R74): s.epc, s.estatus, s.cause, s.eaddr and s.einfo are written, the level becomes Supervisor or
stays Boot, ie is cleared and exl set, and pc goes to s.evbase + 0x80 * cause. -/
def takeEvent (c : Nat) (e : Ev) (ret : Word) (s : State) : State :=
  let k := s.core c
  (s.setCore c { k with
    run := .running
    epc := ret
    estatus := BitVec.ofNat 64 (k.level.code + k.status.toNat % 4 * 4)
    cause := BitVec.ofNat 64 e.cause
    eaddr := e.eaddr
    einfo := e.einfo
    level := if k.level = .boot then .boot else .supervisor
    status := 2
    pc := k.evbase + BitVec.ofNat 64 (0x80 * e.cause) }).count (c / 8) (32 * (c % 8) + 4) 1

/-- Raising a synchronous event: a protected write is logged first (R71 cause 0x0D, R609); with exl set it is a double
fault (R76), else the core takes it. -/
def syncEvent (c : Nat) (mts : Bool) (e : Ev) (s : State) : State :=
  let s := if e.cause = 0x0D then
      logFault 0x0005 (c / 8) c 0 0 (e.eaddr.toNat % 2 ^ 40 + b2n s.sealed * 2 ^ 40 + b2n mts * 2 ^ 41) s
    else s
  if flag (s.core c).status 1 then deckCoreFault c 1 s
  else takeEvent c e (s.core c).pc s

/-! Where an address lies, and who may use it (R79 to R83, R88, R89). -/

/-- An entry of the physical map (R88). -/
inductive Loc where
  | rom (off : Nat)
  | mem (key : Nat)
  | page (fdie : Bool) (d off : Nat)
  | absent
  deriving DecidableEq, Repr

/-- The kind of an access (R71 cause 0x0E numbers them so). -/
inductive Kind where
  | fetch | load | store | atomic
  deriving DecidableEq, Repr
/-- s.einfo of a bus error (R71). -/
def Kind.code : Kind → Nat
  | .fetch => 0 | .load => 1 | .store => 2 | .atomic => 3

/-- Where core c's access at address a goes (R88, R89). -/
def locate (s : State) (c a : Nat) : Loc :=
  let d := c / 8
  let n := s.nslices
  if a < 0x4_0000 then (if (s.core c).level = .boot then .rom a else .absent)
  else if 0x10_0000 ≤ a ∧ a < 0x18_0000 then .mem (localBase c + (a - 0x10_0000))
  else if 0x0100_0000 ≤ a ∧ a < 0x0140_0000 then .mem (localBase (8 * d) + (a - 0x0100_0000))
  else if 0x1000_0000 ≤ a ∧ a < 0x1010_0000 then .page false d (a - 0x1000_0000)
  else if 0x1100_0000 ≤ a ∧ a < 0x1100_0000 + n * 0x10_0000 then
    .page false ((a - 0x1100_0000) / 0x10_0000) ((a - 0x1100_0000) % 0x10_0000)
  else if 0x1200_0000 ≤ a ∧ a < 0x1200_0000 + n * 0x10_0000 then
    .page true ((a - 0x1200_0000) / 0x10_0000) ((a - 0x1200_0000) % 0x10_0000)
  else if 0x2000_0000 ≤ a ∧ a < 0x2100_0000 then
    (if (s.way d (8 + (a - 0x2000_0000) / 0x20_0000)).lock = .scratch then .mem (scratchBase d + (a - 0x2000_0000))
     else .absent)
  else if 0x3000_0000 ≤ a ∧ a < 0x3001_0000 then .mem a
  else if 0x10_0000_0000 ≤ a ∧ a < 0x10_0000_0000 + n * 0x1_0000_0000 ∧
      (a - 0x10_0000_0000) % 0x1_0000_0000 < 0xE000_0000 then .mem a
  else .absent

/-- Whether the map permits this kind of access there (R88, R589). -/
def mapPermits (l : Loc) (kind : Kind) : Bool :=
  match l, kind with
  | .absent, _ => false
  | .rom _, .fetch => true
  | .rom _, .load => true
  | .rom _, _ => false
  | .page _ _ _, .load => true
  | .page _ _ _, .store => true
  | .page _ _ _, _ => false
  | .mem a, kind =>
    if memKind a = 4 then
      match kind with
      | .fetch => false
      | .load => true
      | _ => decide (aonBase + 0xFE00 ≤ a)
    else true

/-- Whether region n of a core is enabled and holds an address (R79, R81, R82). -/
def regionHolds (k : Core) (a n : Nat) : Bool :=
  let attr := k.rgnAttr.toList.getD n 0
  let size := fld attr 5 0
  let base := fld (k.rgnBase.toList.getD n 0) 39 12 * 2 ^ 12
  decide (12 ≤ size) && decide (size ≤ 40) && decide (fld attr 13 12 ≤ 1) &&
  decide (base / 2 ^ size * 2 ^ size ≤ a) && decide (a < base / 2 ^ size * 2 ^ size + 2 ^ size)
/-- Whether a core's regions allow an access at its level; at Boot level regions are not consulted (R79, R83). -/
def regionOk (k : Core) (kind : Kind) (a : Nat) : Bool :=
  match k.level with
  | .boot => true
  | lvl =>
    match (List.range 64).find? (regionHolds k a) with
    | none => false
    | some n =>
      let attr := k.rgnAttr.toList.getD n 0
      let sup := decide (lvl = .supervisor)
      let right := fun (t u : Nat) => flag attr (if sup then u else t)
      match kind with
      | .fetch => right 11 8
      | .load => right 9 6
      | .store => right 10 7
      | .atomic => right 9 6 && right 10 7

/-- The fault of a single access of `size` bytes by core c, the first of R653 that applies; uncorrectable errors are
found where the access is made. -/
def accessFault (s : State) (c : Nat) (kind : Kind) (a size : Nat) : Option Ev :=
  let ad := BitVec.ofNat 64 a
  if a % size ≠ 0 then
    some ⟨3, ad, BitVec.ofNat 64 (match kind with | .store => 1 | .atomic => 2 | _ => 0)⟩
  else if !regionOk (s.core c) kind a then
    some ⟨match kind with | .fetch => 4 | .load => 5 | _ => 6, ad,
      BitVec.ofNat 64 (match kind with | .fetch => 0 | _ => size)⟩
  else if !mapPermits (locate s c a) kind then some ⟨0x0E, ad, BitVec.ofNat 64 kind.code⟩
  else none

/-! The frame of an instruction. -/

/-- What an instruction's own part does: it completes, or it raises a synchronous event. -/
inductive Eff where
  | done (s : State)
  | trap (e : Ev) (s : State)

/-- Whether core c executes: the part has it, no controlled stop holds it (R606), and it runs, or waits in a WFE with
an enabled event pending (R67). -/
def awake (s : State) (c : Nat) : Bool :=
  s.hasCore c && !s.stopped &&
  ((s.core c).run == .running || ((s.core c).run == .wfe && !(enabledPending s c).isEmpty))

/-- What the checks of a fetch at core c's pc raise (R71 causes 0x04, 0x0E). -/
def fetchFault (s : State) (c : Nat) : Option Ev := accessFault s c .fetch (s.core c).pc.toNat 4
/-- The line of core c's instruction cache that its pc lies in: a place in memory, or in the boot ROM (R66, R88). -/
def fetchLine (s : State) (c : Nat) : Nat :=
  Config.icacheLine (match locate s c (s.core c).pc.toNat with
    | .mem key => key
    | .rom off => off
    | _ => 0)
/-- Whether the instruction at core c's pc is in its instruction cache: it is then executed from there, whatever memory has
come to hold (R66). -/
def fetchHit (s : State) (c : Nat) : Bool := (s.icacheOf c).contains (fetchLine s c)
/-- The fetch of core c's next instruction, the checks passed: from its instruction cache, or on a miss, which is counted, from
memory, through the staging cache in GDDR6; a correctable error is corrected and reported, an uncorrectable one raises cause
0x07, and the line comes into the instruction cache (R66, R71, R402, R416, R624). -/
def fetch (c : Nat) (s : State) : Eff :=
  if fetchHit s c then .done s
  else
    let s := s.count (c / 8) (32 * (c % 8) + 2) 1
    match locate s c (s.core c).pc.toNat with
    | .mem key =>
      let t := reachMem c false false key 4 s
      if t.hasBad key 4 then .trap ⟨7, (s.core c).pc, BitVec.ofNat 64 (memKind key)⟩ t
      else .done ((healRead (some c) key 4 t).fillIcache c (fetchLine s c))
    | _ => .done (s.fillIcache c (fetchLine s c))

/-- One full-profile instruction of core c: nothing where the core does not execute; else its fetch, then its own part.
A completed one retires and, unless it has set pc itself, pc moves on by 4; an event is taken (R71, R74). A core whose registers
or pipeline hold an uncorrectable error faults (R600). -/
def deckRun (c : Nat) (advance mts : Bool) (body : State → Eff) (s : State) : State :=
  if !awake s c then s
  else if (s.core c).broken then deckCoreFault c 3 s
  else
    let s := s.modCore c (fun k => { k with run := .running })
    match fetchFault s c with
    | some e => syncEvent c false e s
    | none =>
      match fetch c s with
      | .trap e t => syncEvent c false e t
      | .done s =>
        match body s with
        | .done t =>
          (if advance then t.modCore c (fun k => { k with pc := k.pc + 4 }) else t).count (c / 8) (32 * (c % 8)) 1
        | .trap e t => syncEvent c mts e t

/-- An instruction that only rewrites its core. -/
def deckCore (c : Nat) (f : Core → Core) (s : State) : State := deckRun c true false (fun s => .done (s.modCore c f)) s

/-! A register access of a core, as a command of its own (R79, R85, R88, R653). -/

/-- The physical address of a page's offset (R88). -/
def pageAddr (fdie : Bool) (d off : Nat) : Nat := if fdie then fAddr d off else cAddr d off
/-- The address core c uses for a register: in the window of every die's pages or, with `own` and where the register lies there,
in the window of its own die's page (R88). -/
def regAt (own : Bool) (c : Nat) (fdie : Bool) (d off : Nat) : Nat :=
  if own && !fdie && c / 8 == d then 0x1000_0000 + off else pageAddr fdie d off
/-- A doubleword load or store of core c of a register, by a command that stands for the access alone: it meets what such an
access meets, a region fault or a bus error, and a store of protected fields below Boot level or after seal raises 0x0D, which
R653 does not place and which comes after them (R10, R79, R85, R89, R653; log entry 119); else the register does its part. -/
def regAccess (c : Nat) (kind : Kind) (own fdie : Bool) (d off : Nat) (prot : Bool) (f : State → State) (s : State) : State :=
  if !awake s c then s
  else if (s.core c).broken then deckCoreFault c 3 s
  else
    let s := s.modCore c (fun k => { k with run := .running })
    match accessFault s c kind (regAt own c fdie d off) 8 with
    | some e => syncEvent c false e s
    | none =>
      if prot && !(decide ((s.core c).level = .boot) && !s.sealed) then
        syncEvent c false ⟨0x0D, BitVec.ofNat 64 (regAt own c fdie d off), BitVec.ofNat 64 (b2n s.sealed)⟩ s
      else f s

/-- The event of an illegal encoding (R71). -/
def illegal (k : Core) (w : Word32) : Ev := ⟨1, k.pc, w.zeroExtend 64⟩
/-- The event of a missing right (R71). -/
def privilege (k : Core) (w : Word32) : Ev := ⟨2, k.pc, w.zeroExtend 64⟩

end Sys2Proof.Machine
end

