-- ==== Sys2Proof/Machine/Flags.lean ====
section
/-! DEFINITION. The fixed-point arithmetic of the loop profile and its two flags (R95, R96, R99 to R101): exact
results, rounding, saturation (s.flags.sat) and accumulator overflow (s.flags.ovf). -/

namespace Sys2Proof.Machine

/-- A result narrowed to Q1.31 (R96): the value, and whether it saturated. -/
def saturate (x : Int) : Word32 × Bool :=
  if x > 0x7FFF_FFFF then (0x7FFF_FFFF#32, true)
  else if x < -0x8000_0000 then (0x8000_0000#32, true)
  else (BitVec.ofInt 32 x, false)
/-- x / 2^n rounded: one half of the last kept place is added, then truncation toward minus infinity (R96). -/
def roundShift (x : Int) (n : Nat) : Int := (x + 2 ^ (n - 1)) / 2 ^ n
/-- A sum narrowed to an accumulator: it wraps at 72 bits, and wrapping sets ovf (R96). -/
def wrapAcc (x : Int) : Acc × Bool := (BitVec.ofInt 72 x, decide (x < -(2 ^ 71 : Int) ∨ (2 ^ 71 : Int) ≤ x))

/-- Writes a saturating result and its flag; the flag is sticky (R101). -/
def LoopRegs.setSat (r : LoopRegs) (rd : BitVec 5) (v : Word32 × Bool) : LoopRegs :=
  { r with g := r.g.set (rd.toNat % 16) v.1 (Nat.mod_lt _ (by decide)), sat := r.sat || v.2 }
/-- Writes an accumulator and its flag (R96). -/
def LoopRegs.setAcc (r : LoopRegs) (k : BitVec 2) (v : Acc × Bool) : LoopRegs :=
  { r with a := r.a.set k.toNat v.1 k.isLt, ovf := r.ovf || v.2 }
/-- g[i] of a loop engine; a loop program names g0 to g15 only (R51). -/
def LoopRegs.r (r : LoopRegs) (i : BitVec 5) : Word32 := r.g[i.toNat % 16]'(Nat.mod_lt _ (by decide))
/-- Writes g[i]. -/
def LoopRegs.setR (r : LoopRegs) (i : BitVec 5) (v : Word32) : LoopRegs :=
  { r with g := r.g.set (i.toNat % 16) v (Nat.mod_lt _ (by decide)) }
/-- Accumulator ak. -/
def LoopRegs.acc (r : LoopRegs) (k : BitVec 2) : Acc := r.a[k.toNat]'(k.isLt)
/-- p[i] of a loop engine: p0 reads 1 (R42). -/
def LoopRegs.pr (r : LoopRegs) (i : BitVec 3) : Bool := if i = 0 then true else r.p.getLsbD (i.toNat % 4)
/-- Writes p[i]; a write to p0 is ignored. -/
def LoopRegs.setP (r : LoopRegs) (i : BitVec 3) (b : Bool) : LoopRegs :=
  if i.toNat % 4 = 0 then r
  else { r with p := if b then r.p ||| (1#4 <<< (i.toNat % 4)) else r.p &&& ~~~(1#4 <<< (i.toNat % 4)) }
/-- Whether a predicated loop instruction executes (R47, R100). -/
def LoopRegs.execs (r : LoopRegs) (pred : BitVec 3) (pneg : Bool) : Bool := xor (r.pr pred) pneg
/-- s.flags (R101). -/
def LoopRegs.flags (r : LoopRegs) : Word32 := BitVec.ofNat 32 (b2n r.sat + 2 * b2n r.ovf)

/-- A number of n bytes in data memory, little-endian (R93). -/
def dmemNum (m : Tbl Byte) (a n : Nat) : Nat := ofLe ((List.range n).map (fun i => Tbl.at m (a + i)))
/-- A signed word of data memory. -/
def dmemInt (m : Tbl Byte) (a : Nat) : Int := fromField 32 (dmemNum m a 4)
/-- Writes bytes of data memory. -/
def dmemPoke (m : Tbl Byte) (a : Nat) : List Byte → Tbl Byte
  | [] => m
  | b :: t => dmemPoke (Tbl.upd a b m) (a + 1) t
/-- The address of item i of the block at rb. R99 has the block word-aligned and says nothing of one that is not, nor of one
that reaches past the end of data memory: the low two bits of rb are ignored, and each item's address is taken modulo 32 KiB, as
R93 takes a load's (DESIGN CHOICE, log entry 122). -/
def biqAddr (rb : Word32) (i : Nat) : Nat := (rb.toNat / 4 * 4 + 4 * i) % 0x8000
/-- One biquad step (R99): the sum is exact, y is rounded and saturated, the delay line moves and y is the result. -/
def biquad (m : Tbl Byte) (x : Word32) (rb : Word32) : (Word32 × Bool) × Tbl Byte :=
  let v := fun i => dmemInt m (biqAddr rb i)
  let acc := v 0 * x.toInt + v 1 * v 5 + v 2 * v 6 - v 3 * v 7 - v 4 * v 8
  let y := saturate (roundShift acc 30)
  let w := fun (m : Tbl Byte) (i : Nat) (q : Nat) =>
    let a := biqAddr rb i
    if 0x7000 ≤ a ∧ a < 0x7800 then m else dmemPoke m a (leBytes 4 q)
  (y, w (w (w (w m 6 (toField 32 (v 5))) 5 x.toNat) 8 (toField 32 (v 7))) 7 y.1.toNat)

end Sys2Proof.Machine
end

