-- ==== Sys2Proof/Machine/LoopProgram.lean ====
section
/-! DEFINITION. Loop programs: the fields and cycles of a loop-profile word, the slots and channels of the engines,
and the checks the loader makes, in their order (R97, R100, R102, R195, R199, R201, R203, R207, R208, R656). -/

namespace Sys2Proof.Machine

/-- Slot length of a logical engine, in frames (R195). -/
def slotLen (e : Nat) : Nat := if e ≤ 3 then 1 else if e ≤ 5 then 16 else 8
/-- Commit phase of a logical engine (R199). -/
def commitPhase (e : Nat) : Nat := if e ≤ 3 then 120 else if e ≤ 5 then 4000 else 2000
/-- Cycle by which a logical engine's SLOTEND must have completed (R199). -/
def slotLimit (e : Nat) : Nat := if e ≤ 3 then 480 else if e ≤ 5 then 7980 else 3980
/-- Output channels of a logical engine's loops, by loop number; 0xFF for one its program holds (R196). -/
def loopChannels (e : Nat) : List Nat :=
  if e = 0 then [0x00, 0x02] else if e = 1 then [0x01] else if e = 2 then [0x03, 0x05] else if e = 3 then [0x04]
  else if e = 4 then [0xFF, 0xFF] else if e = 5 then [0xC4]
  else if e = 6 then (List.range 12).map (0x20 + ·) else (List.range 12).map (0x2C + ·)
/-- Hold limit of a logical engine's outputs, in LOOP ticks (R224). -/
def holdLimit (e : Nat) : Nat := if e = 4 ∨ e = 5 then 40000 else 20000

/-- Whether a channel is a SAMPLE channel (R201). -/
def sampleChannel (ch : Nat) : Bool :=
  decide (ch ≤ 0x0B) || (decide (0x10 ≤ ch) && decide (ch ≤ 0x27)) || (decide (0x30 ≤ ch) && decide (ch ≤ 0x3C)) ||
  (decide (0x40 ≤ ch) && decide (ch ≤ 0x51)) || (decide (0xC0 ≤ ch) && decide (ch ≤ 0xDF)) || decide (ch = 0xE0)
/-- Whether a SAMPLE channel comes over the slice link; the others are found on the C-die (R201). -/
def linkChannel (ch : Nat) : Bool := decide (ch ≤ 0x4F)
/-- Arrival phase of a SAMPLE channel (R201). -/
def arrival (ch : Nat) : Nat := if linkChannel ch then 24 else 4
/-- Stall bound of a SAMPLE channel (R201). -/
def stallBound (ch : Nat) : Nat := if linkChannel ch then 40 else 8
/-- Whether a channel is a crossbar word (R203). -/
def isCrossbar (ch : Nat) : Bool := decide (0xC0 ≤ ch) && decide (ch ≤ 0xDF)
/-- Whether R203 gives an output channel, other than a crossbar word, to a logical engine. -/
def ownsChannel (e ch : Nat) : Bool :=
  if ch = 0 ∨ ch = 2 then e == 0 else if ch = 1 then e == 1 else if ch = 3 ∨ ch = 5 then e == 2
  else if ch = 4 then e == 3 else if 0x08 ≤ ch ∧ ch ≤ 0x0F then e == 5
  else if 0x10 ≤ ch ∧ ch ≤ 0x13 then e == 4
  else if 0x20 ≤ ch ∧ ch ≤ 0x2B ∨ 0x38 ≤ ch ∧ ch ≤ 0x43 then e == 6
  else if 0x2C ≤ ch ∧ ch ≤ 0x37 ∨ 0x44 ≤ ch ∧ ch ≤ 0x4F then e == 7
  else ch == 0xF0
/-- The heads a logical engine serves (R217). -/
def headsOf (e : Nat) : List Nat :=
  if e = 0 ∨ e = 1 ∨ e = 6 then [0] else if e = 2 ∨ e = 3 ∨ e = 7 then [1] else [0, 1]
/-- Cycle by which an EMIT of a channel must complete: the emit deadline, or the commit phase for a crossbar word
(R199, R207). The supervision word is taken at SLOTEND (R205). -/
def emitLimit (e ch : Nat) : Nat :=
  if ch = 0xF0 then slotLimit e else if isCrossbar ch then commitPhase e else commitPhase e - 20

/-! Words of a program. -/

def isRepeat (w : Word32) : Bool := iw w 31 26 == 0x29
def isSample (w : Word32) : Bool := iw w 31 26 == 0x2A && iw w 15 12 == 1
def isEmit (w : Word32) : Bool := iw w 31 26 == 0x2A && iw w 15 12 == 2
def isSlotEnd (w : Word32) : Bool := iw w 31 26 == 0x2A && iw w 15 12 == 3
def isStl (w : Word32) : Bool := iw w 31 26 == 0x1B

/-- Check 2 of R656: the encoding is one of R100, and every field that the tables mark "must be 0" is (R51: QNEG and QABS rb,
shifts imm16[15:6], MOVI ra, MOVK ra[4:1], REPEAT, SAMPLE, EMIT, SLOTEND), but for the fields that name a predicate or an
accumulator, which check 3 takes (log entry 10). -/
def loopEncoding (w : Word32) : Bool :=
  let op := iw w 31 26
  let f := iw w 6 0
  let z := fun hi lo => decide (iw w hi lo = 0)
  if op = 1 then (decide (f ≤ 0x0E) && decide (f ≠ 9)) || (decide (f = 0x10) && z 15 11)
  else if op = 2 then z 6 0
  else if op = 3 then decide (f ≤ 5) || (decide (8 ≤ f) && decide (f ≤ 0x0B))
  else if 8 ≤ op ∧ op ≤ 0x13 then
    (if 0x0C ≤ op ∧ op ≤ 0x0E then z 15 6 else if op = 0x0F then z 20 16 else if op = 0x10 then z 20 17 else true)
  else if op = 0x1A then decide (iw w 15 14 ≠ 3)
  else if op = 0x1B then decide (iw w 15 14 ≠ 3) && z 13 13
  else if op = 0x28 then
    (decide (f ≤ 1) || (decide (f = 2 ∨ f = 3) && z 15 11) || decide (f = 4 ∨ f = 5) ||
      (decide (8 ≤ f) && decide (f ≤ 0x0C)) || decide (f = 0x10))
  else if op = 0x29 then z 25 16 && z 7 5
  else if op = 0x2A then
    z 11 8 && ((isSample w && z 20 16) || (isEmit w && z 25 21) || (isSlotEnd w && z 25 16 && z 7 0))
  else if op = 0x30 then
    decide (iw w 15 4 ≤ 2) && decide (iw w 3 0 ≤ 1)
  else false

/-- Check 3 of R656: no register above g15, predicate above p3 or accumulator above a3. A field that the form does not use
names none (log entry 10). -/
def loopRegisters (w : Word32) : Bool :=
  let op := iw w 31 26
  let f := iw w 6 0
  let rd := iw w 25 21
  let ra := iw w 20 16
  let rb := iw w 15 11
  let reg := fun (x : Nat) => decide (x ≤ 15)
  let pr := decide (iw w 10 10 = 0)
  if op = 1 ∨ op = 2 then pr && reg rd && reg ra && reg rb
  else if op = 3 then
    pr && decide (rd ≤ 3) && (if f ≤ 5 then reg ra && reg rb else decide (ra ≤ 3) && decide (rb ≤ 3))
  else if 0x11 ≤ op ∧ op ≤ 0x13 then decide (rd ≤ 3) && reg ra
  else if op = 0x10 then reg rd
  else if 8 ≤ op ∧ op ≤ 0x0F ∨ op = 0x1A ∨ op = 0x1B then reg rd && reg ra
  else if op = 0x28 then
    pr && (if f = 8 then decide (rd ≤ 3)
           else if f = 9 then decide (rd ≤ 3) && reg ra
           else if f = 0x0A ∨ f = 0x0B then decide (rd ≤ 3) && reg ra && reg rb
           else if f = 0x0C then reg rd && decide (ra ≤ 3)
           else reg rd && reg ra && reg rb)
  else if op = 0x30 then (if iw w 3 0 = 0 then reg rd else reg ra)
  else if op = 0x2A then reg rd && reg ra
  else true

/-- Length of the body of a REPEAT, and its passes (R97). -/
def repLen (w : Word32) : Nat := iw w 4 0 + 1
def repPasses (w : Word32) : Nat := iw w 15 8 + 1

/-- Check 4 of R656: no REPEAT in a body, no body past the end, no SLOTEND in a body (R97). -/
def loopRepeats : List Word32 → Bool
  | [] => true
  | w :: t =>
    (!isRepeat w || (decide (repLen w ≤ t.length) &&
      (t.take (repLen w)).all (fun v => !isRepeat v && !isSlotEnd v))) && loopRepeats t

/-- The instructions of one slot in the order they run, every pass of each REPEAT laid out. -/
def unroll : Nat → List Word32 → List Word32
  | 0, _ => []
  | _, [] => []
  | n + 1, w :: t =>
    if isRepeat w then
      w :: (List.replicate (repPasses w) (t.take (repLen w))).flatten ++ unroll n (t.drop (repLen w))
    else w :: unroll n t

/-- Cycles of an instruction apart from a stall (R100). -/
def loopCycles (w : Word32) : Nat :=
  let op := iw w 31 26
  let f := iw w 6 0
  if op = 2 ∨ op = 0x1A then 2
  else if op = 0x28 then
    (if f = 4 ∨ f = 0x0A ∨ f = 0x0B ∨ f = 0x0C then 2 else if f = 0x10 then 7 else 1)
  else 1
/-- Cycle an instruction completes at on the worst-case timeline (R207): a SAMPLE waits to its stall bound. -/
def worstEnd (w : Word32) (t : Nat) : Nat :=
  if isSample w then max t (stallBound (iw w 7 0)) + 1 else t + loopCycles w
/-- Whether every EMIT and the SLOTEND meet their limits on the worst-case timeline (R207). -/
def timelineOk (e : Nat) : List Word32 → Nat → Bool
  | [], _ => true
  | w :: rest, t =>
    let u := worstEnd w t
    (!isEmit w || decide (u ≤ emitLimit e (iw w 7 0))) && (!isSlotEnd w || decide (u ≤ slotLimit e)) &&
    timelineOk e rest u

/-- Channels a program emits. -/
def emittedBy (code : List Word32) : List Nat := (code.filter isEmit).map (fun w => iw w 7 0)
/-- Crossbar words a program claims (R207). -/
def claims (code : List Word32) : List Nat := (emittedBy code).filter isCrossbar

/-- The instructions of a code section. -/
def wordsOf : Nat → List Byte → List Word32
  | 0, _ => []
  | n + 1, bs => BitVec.ofNat 32 (leAt bs 0 4) :: wordsOf n (bs.drop 4)

/-- Whether a loop image's header lies in range, so that the rest of the image has a length (R80, R208). -/
def headerRange (h : List Byte) : Bool :=
  let ncode := leAt h 8 4
  let dlen := leAt h 12 4
  decide (1 ≤ ncode) && decide (ncode ≤ 4096) && decide (dlen ≤ 28416) && decide (dlen % 4 = 0)
/-- Length of a loop image (R208). -/
def imageLen (h : List Byte) : Nat := 192 + 4 * leAt h 8 4 + leAt h 12 4

/-- The loop table of an image: output channel and bump limit of each entry used (R208). -/
def loopTable (img : List Byte) : List (Nat × Nat) :=
  (List.range (leAt img 7 1)).map (fun i => (leAt img (64 + 8 * i) 1, leAt img (64 + 8 * i + 2) 2))

/-- Check 1 of R656: the header, the image length, the crc and the engine field (R207, R208). -/
def headerOk (e : Nat) (img : List Byte) : Bool :=
  decide (leAt img 0 4 = 0x4D49504C) && decide (leAt img 4 2 = 1) && decide (leAt img 6 1 = e) &&
  decide (leAt img 7 1 ≤ 16) && headerRange img && decide (img.length = imageLen img) &&
  decide (leAt img 16 2 % 4 = 0) && decide (leAt img 16 2 + leAt img 12 4 ≤ 0x6F00) && decide (leAt img 18 2 = 0) &&
  (((img.drop 24).take 40).all (fun b => b == 0)) &&
  (List.range 16).all (fun i =>
    let en := (img.drop (64 + 8 * i)).take 8
    if i < leAt img 7 1 then decide (leAt en 1 1 = 0) && decide (leAt en 4 4 = 0) else en.all (fun b => b == 0)) &&
  decide (leAt img 20 4 = crc32c (img.take 20 ++ [0, 0, 0, 0] ++ img.drop 24))

/-- The detail with which the loader refuses an image for logical engine e, or none when it accepts it; `claimed` are
the crossbar words other engines of the slice claim (R207, R656). -/
def loadRefusal (e : Nat) (claimed : List Nat) (img : List Byte) : Option Nat :=
  let ncode := leAt img 8 4
  let code := wordsOf ncode (img.drop 192)
  let slot := unroll ncode code
  if !headerOk e img then some 5
  else if !code.all loopEncoding then some 1
  else if !code.all loopRegisters then some 2
  else if !loopRepeats code then some 3
  else if (code.filter isSlotEnd).length ≠ 1 ∨ (code.getLast?.map isSlotEnd).getD false = false then some 5
  else if !(code.all (fun w =>
        (!isSample w || sampleChannel (iw w 7 0)) &&
        (!isEmit w || (if isCrossbar (iw w 7 0) then !claimed.contains (iw w 7 0) else ownsChannel e (iw w 7 0)))) &&
      decide ((emittedBy slot).Nodup)) then some 1
  else if !(loopTable img).all (fun l => l.1 == 0xFF || (emittedBy code).contains l.1) then some 5
  else if 512 < (slot.filter isStl).length ∨ timelineOk e slot 0 = false then some 4
  else none

end Sys2Proof.Machine
end

