-- ==== Sys2Proof/Machine/LoopEngine.lean ====
section
/-! DEFINITION. The loop engines around an instruction: places, the frame of an instruction with its cycles and
REPEAT (R94, R97), and engine faults with the spare's takeover (R218 to R223). -/

namespace Sys2Proof.Machine

/-- A physical engine of slice k. -/
def State.engine (s : State) (k e : Nat) : Engine := Tbl.at s.engines (16 * k + e)
/-- Replaces a physical engine. -/
def State.setEngine (s : State) (k e : Nat) (x : Engine) : State :=
  { s with engines := Tbl.upd (16 * k + e) x s.engines }
/-- Updates a physical engine. -/
def State.modEngine (s : State) (k e : Nat) (f : Engine → Engine) : State := s.setEngine k e (f (s.engine k e))
/-- The logical engine the spare of slice k serves; 15 for none (R226). -/
def spareFor (s : State) (k : Nat) : Nat := s.cf k 0x5000 11 8
/-- The logical engine a physical engine serves, if any. -/
def logicalOf (s : State) (k e : Nat) : Option Nat :=
  if e < 8 then (if spareFor s k = e then none else some e)
  else if e = 8 ∧ spareFor s k ≠ 15 then some (spareFor s k) else none
/-- The physical engine that serves a logical engine. -/
def physicalOf (s : State) (k e : Nat) : Nat := if spareFor s k = e then 8 else e

/-- The value last committed on an output channel of slice k; none before the first (R203, R206). -/
def State.out (s : State) (k ch : Nat) : Option Word32 := Tbl.at s.outs (256 * k + ch)
/-- Commits a value on an output channel. -/
def State.setOut (s : State) (k ch : Nat) (v : Word32) : State :=
  { s with outs := Tbl.upd (256 * k + ch) (some v) s.outs }

/-- The first frame of the slot in progress of a logical engine (R198). -/
def slotFirst (s : State) (l : Nat) : Nat := s.frame / slotLen l * slotLen l
/-- LOOP ticks since the start of that slot. -/
def slotElapsed (s : State) (l : Nat) : Nat := s.now % (500 * slotLen l)
/-- The tick at which that slot started. -/
def slotTick (s : State) (l : Nat) : Nat := s.now - slotElapsed s l

/-- Word 0 of lp.eng[e].status and its fields (R226). -/
def lpStatus (e : Nat) : Nat := 0x5100 + 8 * e

/-- What status shows of logical engine l, which physical engine e serves: the held bit, and the state, 3 for a fault with no
spare, 0 with no program, 2 while its outputs are held, 1 running (R217, R220, R226). -/
def showEngine (k e l : Nat) (s : State) : State :=
  let x := s.engine k e
  let held := x.held || x.takeover
  let state := if x.fault then 3 else if x.code = [] then 0 else if held then 2 else 1
  (s.setCf k (lpStatus l) 3 3 (b2n held)).setCf k (lpStatus l) 1 0 state
/-- The value last committed on an output channel; where there is none, or the loop names no channel, a free value (R212,
R216). -/
def lastCommitted (k ch : Nat) (s : State) : Word32 × State :=
  match s.out k ch with
  | some v => (v, s)
  | none => (s.freshWord.1.truncate 32, s.freshWord.2)

/-- The fault-log record of a loop engine: event 1 takeover, 2 trip, 3 bump, 4 spare fault, with the check (R609). -/
def logEngine (k e event check : Nat) (s : State) : State :=
  logFault 0x0011 k e k 0xFF (event + check * 2 ^ 8) s

/-- The checkpoint of an engine at a fault (R219): that of the slot in progress, or, once its slot has ended without a fault, what
it holds. -/
def checkpointOf (s : State) (l : Nat) (x : Engine) : LoopRegs × Tbl LoopMode :=
  if x.inSlot ∨ x.slotFrame = some (slotFirst s l) then (x.check, x.checkModes) else (x.r, x.modes)
/-- The spindle and stepper programs of slice k return to the checkpoint of logical engine 5 (R276, R285). -/
def restorePrograms (k l : Nat) (x : Engine) (s : State) : State :=
  if l = 5 ∧ (x.inSlot ∨ x.slotFrame = some (slotFirst s l)) then
    match Tbl.at s.progs k with
    | some p => { s with
        spins := Tbl.upd k { p.spin with high := (Tbl.at s.spins k).high, vins := (Tbl.at s.spins k).vins } s.spins
        axes := ((List.range 4).zip p.axes).foldl (fun t e => Tbl.upd (4 * k + e.1) e.2 t) s.axes
        steps := ((List.range 2).zip p.steps).foldl (fun t e => Tbl.upd (2 * k + e.1) e.2 t) s.steps }
    | none => s
  else s
/-- An engine fault of physical engine e of slice k (R220, R223): write inhibit on the heads it serves; while the
spare is free, the spare takes program, checkpoint and waiting requests over, in a copy of up to 4 µs, the outputs are held, lp.map
and status are updated, and the faulted pair enters the fault state. With the spare failed or in use it is controlled-stop
code 2. -/
def engineFault (k e : Nat) (s : State) : State :=
  match logicalOf s k e with
  | none => s
  | some l =>
    let s := (headsOf l).foldl (fun s h => raiseWi k h 5 s) s
    let x := s.engine k e
    let s := s.setCf k 0x5000 7 0 (Nat.lor (s.cf k 0x5000 7 0) (if e < 8 then 2 ^ e else 0))
    if e = 8 ∨ s.cf k 0x5000 12 12 = 1 ∨ spareFor s k ≠ 15 then
      controlledStop 2 (showEngine k e l (s.setEngine k e { x with fault := true, inSlot := false }))
    else
      let n := s.freshNat
      let s := restorePrograms k l x n.2
      let c := checkpointOf s l x
      let s := s.setEngine k 8 { x with r := c.1, modes := c.2, pc := 0, inSlot := false, rep := none,
                                        emitted := [], sup := none, takeover := true, slotFrame := none
                                        copyAt := s.now + n.1 % 1601 }
      let s := s.setEngine k e { x with fault := true, inSlot := false, emitted := [] }
      logEngine k l 1 0 (showEngine k 8 l ((s.setCf k 0x5000 11 8 l).setCf k (lpStatus l) 6 6 1))

/-- Whether physical engine e of slice k executes: a slot of its is in progress, it is not faulted, and no controlled
stop holds it (R98, R211, R606). -/
def loopAwake (s : State) (k e : Nat) : Bool :=
  decide (k < s.nslices) && decide (e ≤ 8) && !s.stopped && (s.engine k e).inSlot && !(s.engine k e).fault &&
  (logicalOf s k e).isSome

/-- The program counter and REPEAT state after an instruction: at the end of a body with passes left, its start again
(R97). -/
def Engine.advance (x : Engine) : Engine :=
  match x.rep with
  | some r =>
    if x.pc + 1 = r.start + r.len then
      (if r.left = 0 then { x with pc := x.pc + 1, rep := none }
       else { x with pc := r.start, rep := some { r with left := r.left - 1 } })
    else { x with pc := x.pc + 1 }
  | none => { x with pc := x.pc + 1 }

/-- One loop-profile instruction (R94): nothing where the engine does not execute or the form is one no program can
hold (R51, R102); else its effect, its cycles, and the next instruction. -/
def loopRun (k e cycles : Nat) (loadable : Bool) (f : Engine → Engine) (s : State) : State :=
  if !loopAwake s k e || !loadable then s
  else s.setEngine k e (f { s.engine k e with cyc := (s.engine k e).cyc + cycles }).advance

/-- An instruction that only rewrites its engine's registers and data memory. -/
def loopRegs (k e cycles : Nat) (loadable : Bool) (f : LoopRegs → LoopRegs) (s : State) : State :=
  loopRun k e cycles loadable (fun x => { x with r := f x.r }) s

/-- Whether a register field names a register of the loop profile (R51). -/
def lreg (i : BitVec 5) : Bool := decide (i.toNat ≤ 15)
/-- Whether a predicate field names a predicate of the loop profile (R100). -/
def lpred (i : BitVec 3) : Bool := decide (i.toNat ≤ 3)

end Sys2Proof.Machine
end

