-- ==== Sys2Proof/Machine/Alu.lean ====
section
/-! DEFINITION. Integer ALU, multiply and divide, and immediate forms of both profiles (R52, R53, R56, R100). An
operation is one function of two words of its width: 64 bits on a deck core, 32 on a loop engine. -/

namespace Sys2Proof.Machine

/-- An operation on two words of any width. -/
abbrev BinOp := (n : Nat) → BitVec n → BitVec n → BitVec n

/-- A three-register A-format instruction of either profile, under its predicate (R47, R52, R100). -/
def aluRRR (f : BinOp) (cycles : Nat) (a : Agent) (rd ra rb : BitVec 5) (pred : BitVec 3) (pneg : Bool) (s : State) :
    State :=
  match a with
  | .deck c => deckCore c (fun k => if k.execs pred pneg then k.setR rd (f 64 (k.r ra) (k.r rb)) else k) s
  | .loop k e => loopRegs k e cycles (lreg rd && lreg ra && lreg rb && lpred pred)
      (fun r => if r.execs pred pneg then r.setR rd (f 32 (r.r ra) (r.r rb)) else r) s
/-- A three-register instruction of the full profile alone. -/
def aluFull (f : Word → Word → Word) (c : Nat) (rd ra rb : BitVec 5) (pred : BitVec 3) (pneg : Bool) (s : State) :
    State :=
  deckCore c (fun k => if k.execs pred pneg then k.setR rd (f (k.r ra) (k.r rb)) else k) s
/-- A one-operand instruction of the full profile alone. -/
def aluUnary (f : Word → Word) (c : Nat) (rd ra : BitVec 5) (pred : BitVec 3) (pneg : Bool) (s : State) : State :=
  deckCore c (fun k => if k.execs pred pneg then k.setR rd (f (k.r ra)) else k) s
/-- A register-immediate instruction of either profile: the immediate as each width reads it (R56, R100). -/
def aluImm (f : BinOp) (ext : (n : Nat) → BitVec 16 → BitVec n) (a : Agent) (rd ra : BitVec 5) (imm : BitVec 16)
    (s : State) : State :=
  match a with
  | .deck c => deckCore c (fun k => k.setR rd (f 64 (k.r ra) (ext 64 imm))) s
  | .loop k e => loopRegs k e 1 (lreg rd && lreg ra) (fun r => r.setR rd (f 32 (r.r ra) (ext 32 imm))) s
/-- A shift by an immediate; a loop engine takes its count from imm16[4:0] (R100). -/
def aluShift (f : BinOp) (a : Agent) (rd ra : BitVec 5) (sh : BitVec 6) (s : State) : State :=
  match a with
  | .deck c => deckCore c (fun k => k.setR rd (f 64 (k.r ra) (sh.zeroExtend 64))) s
  | .loop k e => loopRegs k e 1 (lreg rd && lreg ra)
      (fun r => r.setR rd (f 32 (r.r ra) (sh.zeroExtend 32))) s

/-! The operations (R52). -/

/-- The shift count a register gives: rb[5:0], or rb[4:0] on 32 bits (R52, R100). -/
def shiftCount (n : Nat) (y : BitVec n) : Nat := y.toNat % (if n = 32 then 32 else 64)
def opSll : BinOp := fun n x y => x <<< shiftCount n y
def opSrl : BinOp := fun n x y => x >>> shiftCount n y
def opSra : BinOp := fun n x y => x.sshiftRight (shiftCount n y)
def opMin : BinOp := fun _ x y => if x.slt y then x else y
def opMax : BinOp := fun _ x y => if x.slt y then y else x
def opMinu : BinOp := fun _ x y => if x.ult y then x else y
def opMaxu : BinOp := fun _ x y => if x.ult y then y else x
/-- Leading zero bits: the first set bit from the top, or the width (R52). -/
def leadingZeros (n : Nat) (x : BitVec n) : Nat :=
  match (List.range n).find? (fun i => x.getMsbD i) with
  | some i => i
  | none => n
/-- Trailing zero bits (R52). -/
def trailingZeros (n : Nat) (x : BitVec n) : Nat :=
  match (List.range n).find? (fun i => x.getLsbD i) with
  | some i => i
  | none => n
/-- Bits that are 1 (R52). -/
def ones (n : Nat) (x : BitVec n) : Nat := ((List.range n).filter (fun i => x.getLsbD i)).length

/-- Signed division, truncating, which never traps: by 0 all ones, and the overflowing case the dividend (R53). -/
def divs (x y : Word) : Word := if y = 0 then -1 else BitVec.ofInt 64 (x.toInt.tdiv y.toInt)
/-- Unsigned division (R53). -/
def divu (x y : Word) : Word := if y = 0 then -1 else x / y
/-- Signed remainder: it takes the sign of ra; by 0 it is ra (R53). -/
def rems (x y : Word) : Word := if y = 0 then x else BitVec.ofInt 64 (x.toInt.tmod y.toInt)
/-- Unsigned remainder (R53). -/
def remu (x y : Word) : Word := if y = 0 then x else x % y

/-! The meanings. -/

def execAdd (a : Agent) (rd ra rb : BitVec 5) (pred : BitVec 3) (pneg : Bool) (s : State) : Res :=
  .next (aluRRR (fun _ x y => x + y) 1 a rd ra rb pred pneg s)
def execSub (a : Agent) (rd ra rb : BitVec 5) (pred : BitVec 3) (pneg : Bool) (s : State) : Res :=
  .next (aluRRR (fun _ x y => x - y) 1 a rd ra rb pred pneg s)
def execAnd (a : Agent) (rd ra rb : BitVec 5) (pred : BitVec 3) (pneg : Bool) (s : State) : Res :=
  .next (aluRRR (fun _ x y => x &&& y) 1 a rd ra rb pred pneg s)
def execOr (a : Agent) (rd ra rb : BitVec 5) (pred : BitVec 3) (pneg : Bool) (s : State) : Res :=
  .next (aluRRR (fun _ x y => x ||| y) 1 a rd ra rb pred pneg s)
def execXor (a : Agent) (rd ra rb : BitVec 5) (pred : BitVec 3) (pneg : Bool) (s : State) : Res :=
  .next (aluRRR (fun _ x y => x ^^^ y) 1 a rd ra rb pred pneg s)
def execAndn (a : Agent) (rd ra rb : BitVec 5) (pred : BitVec 3) (pneg : Bool) (s : State) : Res :=
  .next (aluRRR (fun _ x y => x &&& ~~~y) 1 a rd ra rb pred pneg s)
def execSll (a : Agent) (rd ra rb : BitVec 5) (pred : BitVec 3) (pneg : Bool) (s : State) : Res :=
  .next (aluRRR opSll 1 a rd ra rb pred pneg s)
def execSrl (a : Agent) (rd ra rb : BitVec 5) (pred : BitVec 3) (pneg : Bool) (s : State) : Res :=
  .next (aluRRR opSrl 1 a rd ra rb pred pneg s)
def execSra (a : Agent) (rd ra rb : BitVec 5) (pred : BitVec 3) (pneg : Bool) (s : State) : Res :=
  .next (aluRRR opSra 1 a rd ra rb pred pneg s)
def execRor (c : Nat) (rd ra rb : BitVec 5) (pred : BitVec 3) (pneg : Bool) (s : State) : Res :=
  .next (aluFull (fun x y => x.rotateRight (y.toNat % 64)) c rd ra rb pred pneg s)
def execMin (a : Agent) (rd ra rb : BitVec 5) (pred : BitVec 3) (pneg : Bool) (s : State) : Res :=
  .next (aluRRR opMin 1 a rd ra rb pred pneg s)
def execMax (a : Agent) (rd ra rb : BitVec 5) (pred : BitVec 3) (pneg : Bool) (s : State) : Res :=
  .next (aluRRR opMax 1 a rd ra rb pred pneg s)
def execMinu (a : Agent) (rd ra rb : BitVec 5) (pred : BitVec 3) (pneg : Bool) (s : State) : Res :=
  .next (aluRRR opMinu 1 a rd ra rb pred pneg s)
def execMaxu (a : Agent) (rd ra rb : BitVec 5) (pred : BitVec 3) (pneg : Bool) (s : State) : Res :=
  .next (aluRRR opMaxu 1 a rd ra rb pred pneg s)
/-- SEL always executes: its predicate selects (R52). -/
def execSel (a : Agent) (rd ra rb : BitVec 5) (pred : BitVec 3) (pneg : Bool) (s : State) : Res :=
  .next (match a with
    | .deck c => deckCore c (fun k => k.setR rd (if k.execs pred pneg then k.r ra else k.r rb)) s
    | .loop k e => loopRegs k e 1 (lreg rd && lreg ra && lreg rb && lpred pred)
        (fun r => r.setR rd (if r.execs pred pneg then r.r ra else r.r rb)) s)
/-- CLZ of 0 is the width (R52, R100). -/
def execClz (a : Agent) (rd ra : BitVec 5) (pred : BitVec 3) (pneg : Bool) (s : State) : Res :=
  .next (aluRRR (fun n x _ => BitVec.ofNat n (leadingZeros n x)) 1 a rd ra 0 pred pneg s)
def execCtz (c : Nat) (rd ra : BitVec 5) (pred : BitVec 3) (pneg : Bool) (s : State) : Res :=
  .next (aluUnary (fun x => BitVec.ofNat 64 (trailingZeros 64 x)) c rd ra pred pneg s)
def execPopc (c : Nat) (rd ra : BitVec 5) (pred : BitVec 3) (pneg : Bool) (s : State) : Res :=
  .next (aluUnary (fun x => BitVec.ofNat 64 (ones 64 x)) c rd ra pred pneg s)
def execSextb (c : Nat) (rd ra : BitVec 5) (pred : BitVec 3) (pneg : Bool) (s : State) : Res :=
  .next (aluUnary (fun x => (x.truncate 8).signExtend 64) c rd ra pred pneg s)
def execSexth (c : Nat) (rd ra : BitVec 5) (pred : BitVec 3) (pneg : Bool) (s : State) : Res :=
  .next (aluUnary (fun x => (x.truncate 16).signExtend 64) c rd ra pred pneg s)
def execSextw (c : Nat) (rd ra : BitVec 5) (pred : BitVec 3) (pneg : Bool) (s : State) : Res :=
  .next (aluUnary (fun x => (x.truncate 32).signExtend 64) c rd ra pred pneg s)
def execZextw (c : Nat) (rd ra : BitVec 5) (pred : BitVec 3) (pneg : Bool) (s : State) : Res :=
  .next (aluUnary (fun x => (x.truncate 32).zeroExtend 64) c rd ra pred pneg s)

def execMul (a : Agent) (rd ra rb : BitVec 5) (pred : BitVec 3) (pneg : Bool) (s : State) : Res :=
  .next (aluRRR (fun _ x y => x * y) 2 a rd ra rb pred pneg s)
def execMulhs (c : Nat) (rd ra rb : BitVec 5) (pred : BitVec 3) (pneg : Bool) (s : State) : Res :=
  .next (aluFull (fun x y => BitVec.ofInt 64 (x.toInt * y.toInt / 2 ^ 64)) c rd ra rb pred pneg s)
def execMulhu (c : Nat) (rd ra rb : BitVec 5) (pred : BitVec 3) (pneg : Bool) (s : State) : Res :=
  .next (aluFull (fun x y => BitVec.ofNat 64 (x.toNat * y.toNat / 2 ^ 64)) c rd ra rb pred pneg s)
def execDivs (c : Nat) (rd ra rb : BitVec 5) (pred : BitVec 3) (pneg : Bool) (s : State) : Res :=
  .next (aluFull divs c rd ra rb pred pneg s)
def execDivu (c : Nat) (rd ra rb : BitVec 5) (pred : BitVec 3) (pneg : Bool) (s : State) : Res :=
  .next (aluFull divu c rd ra rb pred pneg s)
def execRems (c : Nat) (rd ra rb : BitVec 5) (pred : BitVec 3) (pneg : Bool) (s : State) : Res :=
  .next (aluFull rems c rd ra rb pred pneg s)
def execRemu (c : Nat) (rd ra rb : BitVec 5) (pred : BitVec 3) (pneg : Bool) (s : State) : Res :=
  .next (aluFull remu c rd ra rb pred pneg s)

def execAddi (a : Agent) (rd ra : BitVec 5) (imm : BitVec 16) (s : State) : Res :=
  .next (aluImm (fun _ x y => x + y) (fun n i => i.signExtend n) a rd ra imm s)
def execAndi (a : Agent) (rd ra : BitVec 5) (imm : BitVec 16) (s : State) : Res :=
  .next (aluImm (fun _ x y => x &&& y) (fun n i => i.zeroExtend n) a rd ra imm s)
def execOri (a : Agent) (rd ra : BitVec 5) (imm : BitVec 16) (s : State) : Res :=
  .next (aluImm (fun _ x y => x ||| y) (fun n i => i.zeroExtend n) a rd ra imm s)
def execXori (a : Agent) (rd ra : BitVec 5) (imm : BitVec 16) (s : State) : Res :=
  .next (aluImm (fun _ x y => x ^^^ y) (fun n i => i.zeroExtend n) a rd ra imm s)
def execSlli (a : Agent) (rd ra : BitVec 5) (sh : BitVec 6) (s : State) : Res := .next (aluShift opSll a rd ra sh s)
def execSrli (a : Agent) (rd ra : BitVec 5) (sh : BitVec 6) (s : State) : Res := .next (aluShift opSrl a rd ra sh s)
def execSrai (a : Agent) (rd ra : BitVec 5) (sh : BitVec 6) (s : State) : Res := .next (aluShift opSra a rd ra sh s)
def execMovi (a : Agent) (rd : BitVec 5) (imm : BitVec 16) (s : State) : Res :=
  .next (aluImm (fun _ _ y => y) (fun n i => i.signExtend n) a rd 0 imm s)
/-- MOVK replaces one halfword of rd; a loop program names halfwords 0 and 1 only (R50, R56, R100). -/
def execMovk (a : Agent) (rd : BitVec 5) (h : BitVec 2) (imm : BitVec 16) (s : State) : Res :=
  .next (match a with
    | .deck c => deckCore c (fun k => k.setR rd
        ((k.r rd &&& ~~~(0xFFFF#64 <<< (16 * h.toNat))) ||| (imm.zeroExtend 64 <<< (16 * h.toNat)))) s
    | .loop k e => loopRegs k e 1 (lreg rd && decide (h.toNat ≤ 1)) (fun r => r.setR rd
        ((r.r rd &&& ~~~(0xFFFF#32 <<< (16 * h.toNat))) ||| (imm.zeroExtend 32 <<< (16 * h.toNat)))) s)

end Sys2Proof.Machine
end

