-- ==== Sys2Proof/Machine/SystemOps.lean ====
section
/-! DEFINITION. System instructions, asynchronous events, illegal words and the timer (R50, R61, R66 to R76, R101). -/

namespace Sys2Proof.Machine

/-- The lowest level of a special register's access (R69). -/
def sregLowest (sreg : Nat) : Level :=
  if sreg = 0 ∨ sreg = 0x0A ∨ sreg = 0x0B ∨ sreg = 0x10 ∨ 0x40 ≤ sreg then .task else .supervisor
/-- Whether a special-register number is listed (R69). -/
def sregListed (sreg : Nat) : Bool :=
  decide (sreg ≤ 0x0E) || decide (sreg = 0x10) || (decide (0x40 ≤ sreg) && decide (sreg ≤ 0xC1))

/-- The value of a special register of core c (R69, R70). -/
def readSreg (s : State) (c sreg : Nat) : Word :=
  let k := s.core c
  if sreg = 0 then BitVec.ofNat 64 k.level.code
  else if sreg = 1 then k.status &&& 3
  else if sreg = 2 then k.epc
  else if sreg = 3 then k.cause
  else if sreg = 4 then k.eaddr
  else if sreg = 5 then k.einfo
  else if sreg = 6 then k.estatus &&& 0xF
  else if sreg = 7 then k.evbase &&& ~~~0x1FFF#64
  else if sreg = 8 then k.evmask &&& 0xFF
  else if sreg = 9 then BitVec.ofNat 64 (evpend s c)
  else if sreg = 0x0A then BitVec.ofNat 64 c
  else if sreg = 0x0B then BitVec.ofNat 64 s.cycle
  else if sreg = 0x0C then k.timecmp
  else if sreg = 0x0D then k.scratch0
  else if sreg = 0x0E then k.scratch1
  else if sreg = 0x10 then k.preds.zeroExtend 64
  else if 0x40 ≤ sreg ∧ sreg < 0x80 then k.rgnBase.toList.getD (sreg - 0x40) 0
  else if 0x80 ≤ sreg ∧ sreg < 0xC0 then k.rgnAttr.toList.getD (sreg - 0x80) 0
  else if sreg = 0xC0 then k.bar
  else if sreg = 0xC1 then BitVec.ofNat 64 (b2n s.sealed)
  else 0

/-- Element i of a 64-vector replaced, where there is one. -/
def setAt (v : Vector Word 64) (i : Nat) (x : Word) : Vector Word 64 := if h : i < 64 then v.set i x h else v

/-- Writes a special register: reserved bits read 0, and a write to a read-only one is ignored (R7, R9, R69, R81,
R82, R84). The protected ones are written at Boot level before seal only; the caller has checked that. -/
def writeSreg (sreg : Nat) (v : Word) (k : Core) : Core :=
  if sreg = 1 then { k with status := v &&& 3 }
  else if sreg = 2 then { k with epc := v }
  else if sreg = 6 then { k with estatus := v &&& 0xF }
  else if sreg = 7 then { k with evbase := v &&& ~~~0x1FFF#64 }
  else if sreg = 8 then { k with evmask := v &&& 0xFF }
  else if sreg = 0x0C then { k with timecmp := v }
  else if sreg = 0x0D then { k with scratch0 := v }
  else if sreg = 0x0E then { k with scratch1 := v }
  else if sreg = 0x10 then { k with p := v.truncate 8 ||| 1 }
  else if 0x40 ≤ sreg ∧ sreg < 0x80 then { k with rgnBase := setAt k.rgnBase (sreg - 0x40) (v &&& 0xFF_FFFF_F000) }
  else if 0x80 ≤ sreg ∧ sreg < 0xC0 then { k with rgnAttr := setAt k.rgnAttr (sreg - 0x80) (v &&& 0x3FFF) }
  else if sreg = 0xC0 then { k with bar := v &&& 0x1FFF_1FFF }
  else k

/-- MFS: rd := the special register; an unlisted number traps with 0x01, one below its lowest level with 0x02 (R69). `ra` is
the field of its word that MFS does not use, which a trap reports (R51, R71). On a loop engine the three registers of R101. -/
def execMfs (a : Agent) (rd ra : BitVec 5) (sreg : BitVec 12) (s : State) : Res :=
  .next (match a with
    | .deck c => deckRun c true false (fun s =>
        let k := s.core c
        let w := encS rd ra sreg 0
        if !sregListed sreg.toNat then .trap (illegal k w) s
        else if k.level.code < (sregLowest sreg.toNat).code then .trap (privilege k w) s
        else .done (s.modCore c (fun k => k.setR rd (readSreg s c sreg.toNat)))) s
    | .loop k e =>
        let v : Word32 :=
          if sreg = 0 then BitVec.ofNat 32 ((logicalOf s k e).getD e)
          else if sreg = 1 then BitVec.ofNat 32 s.frame
          else (s.engine k e).r.flags
        loopRegs k e 1 (lreg rd && decide (sreg.toNat ≤ 2)) (fun r => r.setR rd v) s)

/-- MTS: the special register := ra. Writing the protection set-up below Boot level, or at any level after seal,
raises 0x0D and leaves it unchanged (R69, R85). `rd` is the field of its word that MTS does not use. On a loop engine s.flags
clears by writing 1 (R101). -/
def execMts (a : Agent) (rd ra : BitVec 5) (sreg : BitVec 12) (s : State) : Res :=
  .next (match a with
    | .deck c => deckRun c true true (fun s =>
        let k := s.core c
        let w := encS rd ra sreg 1
        if !sregListed sreg.toNat then .trap (illegal k w) s
        else if k.level.code < (sregLowest sreg.toNat).code then .trap (privilege k w) s
        else if 0x40 ≤ sreg.toNat ∧ sreg.toNat ≤ 0xC0 ∧ (k.level ≠ .boot ∨ s.sealed) then
          .trap ⟨0x0D, sreg.zeroExtend 64, BitVec.ofNat 64 (b2n s.sealed)⟩ s
        else .done (s.modCore c (writeSreg sreg.toNat (k.r ra)))) s
    | .loop k e =>
        loopRegs k e 1 (lreg ra && decide (sreg.toNat ≤ 2)) (fun r =>
          if sreg = 2 then { r with sat := r.sat && !(r.r ra).getLsbD 0, ovf := r.ovf && !(r.r ra).getLsbD 1 }
          else r) s)

/-- The level a code names; 0b10 names none (R43). -/
def levelOf (v : Nat) : Option Level :=
  if v = 0 then some .task else if v = 1 then some .supervisor else if v = 3 then some .boot else none

/-- ERET: level and status from s.estatus, pc := s.epc with bits [1:0], always 0 in pc, cleared (R41). At Task level,
with level code 0b10, or raising the level to Boot, it traps with 0x02: a core that has left Boot level returns to it only by
a reset (R44, R67, R75; log entry 11). `rd`, `ra` and `sreg` are fields of its word that it does not use. -/
def execEret (c : Nat) (rd ra : BitVec 5) (sreg : BitVec 12) (s : State) : Res :=
  .next (deckRun c false false (fun s =>
    let k := s.core c
    let w := encS rd ra sreg 2
    match levelOf (fld k.estatus 1 0) with
    | none => .trap (privilege k w) s
    | some l =>
      if k.level = .task ∨ k.level.code < l.code then .trap (privilege k w) s
      else
        .done (s.setCore c { k with
          level := l, status := BitVec.ofNat 64 (fld k.estatus 3 2), pc := k.epc &&& ~~~3#64 })) s)

/-- ECALL: synchronous event 0x0B with s.einfo := n (R67). -/
def execEcall (c : Nat) (n : BitVec 12) (s : State) : Res :=
  .next (deckRun c true false (fun s => .trap ⟨0x0B, (s.core c).pc, n.zeroExtend 64⟩ s) s)
/-- EBREAK: synchronous event 0x0C (R67). -/
def execEbreak (c : Nat) (s : State) : Res :=
  .next (deckRun c true false (fun s => .trap ⟨0x0C, (s.core c).pc, 0⟩ s) s)
/-- WFE: continues at once with an enabled event pending, whatever ie holds; else the core waits, and goes on with its
next instruction once one pends (R67). Below Supervisor it traps with 0x02. `rd`, `ra` and `sreg` are fields of its word that it does not use. -/
def execWfe (c : Nat) (rd ra : BitVec 5) (sreg : BitVec 12) (s : State) : Res :=
  .next (deckRun c true false (fun s =>
    let k := s.core c
    if k.level = .task then .trap (privilege k (encS rd ra sreg 5)) s
    else if (enabledPending s c).isEmpty then .done (s.setCore c { k with run := .wfe })
    else .done s) s)
/-- FENCE orders accesses; the model performs every access in program order, so it only moves on (R60, R61; log
entry 12). -/
def execFence (c : Nat) (_form : BitVec 4) (s : State) : Res :=
  .next (deckRun c true false (fun s => .done s) s)
/-- FENCE.I discards the core's instruction cache, so that the next fetch is made anew (R66, R67). -/
def execFenceI (c : Nat) (s : State) : Res := .next (deckRun c true false (fun s => .done (s.dropIcache c)) s)

/-- Between instructions, with ie set, the core takes the lowest pending enabled cause (R72, R74); the event clears
nothing in its source. -/
def execTakeAsyncEvent (c : Nat) (s : State) : Res :=
  .next (if !awake s c then s
    else if (s.core c).broken then deckCoreFault c 3 s
    else if flag (s.core c).status 0 = false then s
    else match enabledPending s c with
      | [] => s
      | cause :: _ =>
        takeEvent c ⟨cause, 0, BitVec.ofNat 64 ((pendingInfo s c cause).getD 0)⟩ (s.core c).pc s)

/-- Lowest level right of a device-operation word: s.bar at the issuer's level, but for SEAL's group, 11, which is Boot level's
only, whatever s.bar holds (R84, R91). -/
def barAllows (k : Core) (group : Nat) : Bool :=
  match k.level with
  | .boot => true
  | .supervisor => decide (group ≠ 11) && flag k.bar (16 + group)
  | .task => decide (group ≠ 11) && flag k.bar group
/-- Group of a device operation (R91). -/
def groupOf (xop : Nat) : Nat :=
  if xop ≤ 3 then 0 else if xop ≤ 6 then 1 else if xop ≤ 8 then 2 else if xop ≤ 0x0A then 3 else if xop ≤ 0x0D then 4
  else if xop ≤ 0x0F then 5 else if xop = 0x10 then 6 else if xop ≤ 0x12 then 7 else if xop ≤ 0x14 then 8
  else xop - 0x15 + 9

/-- A fetched word that is no instruction of the full profile traps with cause 0x01 (R40, R50, R51); a device
operation's right is checked before its modifiers (R103). A legal word is not this event. -/
def execIllegalInstruction (c : Nat) (w : Word32) (s : State) : Res :=
  .next (if legalFull w then s
    else deckRun c true false (fun s =>
      let k := s.core c
      if iw w 31 26 = 0x38 ∧ iw w 10 6 ≤ 0x18 ∧ !(barAllows k (groupOf (iw w 10 6))) then .trap (privilege k w) s
      else .trap (illegal k w) s) s)

/-- s.cycle has reached s.timecmp: timer event 0x20 pends by itself (it is the comparison), and a core that waits in
a WFE with it enabled goes on (R67, R69). -/
def execTimerEventPending (c : Nat) (s : State) : Res :=
  .next (if s.hasCore c && !s.stopped && (s.core c).run == .wfe && (enabledPending s c).contains 0x20
    then s.modCore c (fun k => { k with run := .running }) else s)

end Sys2Proof.Machine
end

