-- ==== Sys2Proof/Machine/Device.lean ====
section
/-! DEFINITION. The frame of the device operations (R80, R84, R91, R103 to R107, R654): the order of their checks, their
memory operands, and how rd reports success or a status. -/

namespace Sys2Proof.Machine

/-- A memory operand: where it starts, its length, and whether the operation reads it, writes it, or both (R80). -/
structure Span where
  addr : Nat
  len : Nat
  read : Bool
  write : Bool
  deriving DecidableEq, Repr

/-- The addresses at which an area is held against the regions: its first byte, and each 4 KiB boundary in it, the
smallest region (R80, R82). -/
def Span.points (sp : Span) : List Nat :=
  (List.range (ceilDiv (sp.addr % 4096 + sp.len) 4096)).map (fun i =>
    if i = 0 then sp.addr else (sp.addr / 4096 + i) * 4096)

/-- The region fault of a memory operand (R80): cause 0x05 for an operand read only, 0x06 otherwise; s.eaddr the first
address refused and s.einfo the operand's length (log entry 13). -/
def spanFault (k : Core) (sp : Span) : Option Ev :=
  sp.points.findSome? (fun a =>
    if (sp.write && !regionOk k .store a) || (sp.read && !regionOk k .load a) then
      some ⟨if sp.write then 6 else 5, BitVec.ofNat 64 a, BitVec.ofNat 64 sp.len⟩
    else none)

/-- Where a memory operand lies, when it is wholly in one entry that R654 allows: one core's local memory, the present
scratchpad window, the AON retained SRAM, one die's usable GDDR6. -/
def placeOf (s : State) (c a n : Nat) (write : Bool) : Option Nat :=
  match locate s c a, locate s c (a + n - 1) with
  | .mem k, .mem e =>
    if e + 1 = k + n ∧ memKind k = memKind e ∧
        (memKind k = 1 → (k - 0x0100_0000) / 0x8_0000 = (e - 0x0100_0000) / 0x8_0000) ∧
        (write = true → memKind k = 4 → aonBase + 0xFE00 ≤ k) then some k
    else none
  | _, _ => none

/-- Reads a memory operand: none when a word of it is uncorrectable, which is logged (R654); what is correctable is
corrected, and counts for the core that issued the operation (R416, R652). -/
def readOperand (c key n : Nat) (s : State) : Option (List Byte) × State :=
  let s := settle (some c) key n s
  match (eccKeys key n).find? (fun w => decide (s.eccAt w = .bad)) with
  | some w => (none, logUncorrectable c w (countBad key n s))
  | none => (some (s.bytes key n), healRead (some c) key n s)

/-- Writes an operand at an operation's end: a word that is uncorrectable and covered in part stays poisoned, and is
logged (R654). -/
def writeOperand (initiator key : Nat) (bs : List Byte) (s : State) : State :=
  if mergeFails key bs.length s then
    dmaWrite key bs (logUncorrectable initiator
      (((eccKeys key bs.length).find? (fun w => decide (s.eccAt w = .bad))).getD key) (countBad key bs.length s))
  else dmaWrite key bs s

/-- A privileged requester's write: through the sub-blocks of its sectored ways (R402, R403); a word that is uncorrectable and
covered in part stays poisoned, and is logged. -/
def privWrite (req initiator key : Nat) (bs : List Byte) (s : State) : State :=
  let s := privTouch req true key bs.length s
  memWrite key bs (if mergeFails key bs.length s then
      logUncorrectable initiator (((eccKeys key bs.length).find? (fun w => decide (s.eccAt w = .bad))).getD key)
        (countBad key bs.length s)
    else s)

/-- What an operation's own conditions and effect answer: a result, a status with its detail, or an event. -/
inductive Ans where
  | ok (v : Nat) (s : State)
  | fail (status detail : Nat) (s : State)

/-- The value of rd on failure (R104). -/
def failWord (status detail : Nat) : Word := BitVec.ofNat 64 (2 ^ 63 + detail % 256 * 2 ^ 8 + status % 256)
/-- The value of rd on success: rd[63] is 0 (R104). -/
def okWord (v : Nat) : Word := BitVec.ofNat 64 (v % 2 ^ 63)

/-- The end of an operation: rd is written, and the core's unit of device operations counts (R104, R624). -/
def endOp (c : Nat) (rd : BitVec 5) (v : Word) (s : State) : State :=
  (s.modCore c (fun k => k.setR rd v)).count (c / 8) (32 * (c % 8) + 5) 1

/-- One device operation of core c in the order of R103: the right of s.bar, the listed modifiers, the memory operands'
regions, then the operation's own part, which checks its operands first. -/
def deviceOp (c : Nat) (rd ra rb : BitVec 5) (xop xmod : Nat) (spans : State → Nat → Nat → List Span)
    (body : State → Nat → Nat → Ans) (s : State) : State :=
  deckRun c true false (fun s =>
    let k := s.core c
    let w := encX rd ra rb (BitVec.ofNat 5 xop) (BitVec.ofNat 6 xmod)
    if !barAllows k (groupOf xop) then .trap (privilege k w) s
    else if !legalXmod xop xmod then .trap (illegal k w) s
    else
      let a := (k.r ra).toNat
      let b := (k.r rb).toNat
      match (spans s a b).findSome? (spanFault k) with
      | some e => .trap e s
      | none =>
        match body s a b with
        | .ok v t => .done (endOp c rd (okWord v) t)
        | .fail st d t => .done (endOp c rd (failWord st d) t)) s

/-- An operation without memory operands. -/
def plainOp (c : Nat) (rd ra rb : BitVec 5) (xop xmod : Nat) (body : State → Nat → Nat → Ans) (s : State) : State :=
  deviceOp c rd ra rb xop xmod (fun _ _ _ => []) body s

end Sys2Proof.Machine
end

