-- ==== Sys2Proof/Machine/CacheOps.lean ====
section
/-! DEFINITION. The cache operations CINV.R, CCLEAN.R and CLOCKW (R127 to R130, R404 to R406). -/

namespace Sys2Proof.Machine

/-- Whether a range is one the cache operations take: multiples of 128, in the usable part of one C-die's GDDR6
window (R127). -/
def rangeOk (s : State) (a n : Nat) : Bool :=
  decide (a % 128 = 0) && decide (n % 128 = 0) && decide (gddrBase 0 ≤ a) && decide (memDie a < s.nslices) &&
  decide (a + n ≤ gddrBase (memDie a) + 0xE000_0000)
/-- The lines of a range. -/
def linesIn (s : State) (a n : Nat) : List Line :=
  s.cache.lines.filter (fun l => decide (a ≤ l.addr) && decide (l.addr < a + n))
/-- Whether a line lies in a range-locked way (R127). -/
def inLockedWay (s : State) (l : Line) : Bool :=
  match (s.way l.die l.way).lock with
  | .range _ => true
  | _ => false

/-- A line or sub-block is invalidated: its dirty data is discarded, but a sub-block in a sectored way is written back first
(R127, R407). -/
def invalidateLine (l : Line) (s : State) : State := if l.way < 4 then evictLine l s else discardLine l s
/-- CINV.R: the lines and sub-blocks of a range are invalidated (R127, R407). -/
def execCinvR (c : Nat) (rd ra rb : BitVec 5) (xmod : BitVec 6) (s : State) : Res :=
  .next (plainOp c rd ra rb 0x0B xmod.toNat (fun s a b =>
    if !rangeOk s a b then .fail 0x28 0 s
    else
      let ls := linesIn s a b
      .ok (ls.filter (inLockedWay s)).length (ls.foldl (fun s l => invalidateLine l s) s)) s)

/-- CCLEAN.R, clean: dirty lines of a range are written back and stay valid (R127). -/
def execCcleanR (c : Nat) (rd ra rb : BitVec 5) (xhi : BitVec 5) (s : State) : Res :=
  .next (plainOp c rd ra rb 0x0C (2 * xhi.toNat) (fun s a b =>
    if !rangeOk s a b then .fail 0x28 0 s
    else
      let ls := (linesIn s a b).filter Line.dirty
      .ok ls.length (ls.foldl (fun s l => cleanLine l s) s)) s)

/-- CCLEAN.R, clean and invalidate (R127). -/
def execCcleanInvR (c : Nat) (rd ra rb : BitVec 5) (xhi : BitVec 5) (s : State) : Res :=
  .next (plainOp c rd ra rb 0x0C (2 * xhi.toNat + 1) (fun s a b =>
    if !rangeOk s a b then .fail 0x28 0 s
    else
      let ls := linesIn s a b
      .ok (ls.filter (inLockedWay s)).length (ls.foldl (fun s l => evictLine l s) s)) s)

/-- The lines in a way of a die are cleaned and invalidated. -/
def emptyWay (d w : Nat) (s : State) : State :=
  (s.cache.lines.filter (fun l => l.die == d && l.way == w)).foldl (fun s l => evictLine l s) s
/-- The contents of a scratchpad way go: its bytes read as never written (R90, R130). -/
def forgetScratch (d w : Nat) (s : State) : State :=
  let a := scratchBase d + (w - 8) * 0x20_0000
  let outside := fun (x : Nat) => decide (x < a) || decide (a + 0x20_0000 ≤ x)
  { s with mem := s.mem.filter (fun e => outside e.1), ecc := s.ecc.filter (fun e => outside e.1) }

/-- What the forms of CLOCKW share: the way's number, whose field is all of ra but [3:0] that must be 0 (R105). Each form then
checks its rb (R105), and after it the way, which must be one of 8 to 15 (R130, log entry 104). -/
def clockw (c : Nat) (rd ra rb : BitVec 5) (xhi : BitVec 4) (form : Nat)
    (body : State → Nat → Nat → Nat → Ans) (s : State) : State :=
  plainOp c rd ra rb 0x0D (4 * xhi.toNat + form) (fun s a b =>
    if 16 ≤ a then .fail 0x01 0 s
    else body s (c / 8) a b) s

/-- CLOCKW, unlock (R130). -/
def execClockwUnlock (c : Nat) (rd ra rb : BitVec 5) (xhi : BitVec 4) (s : State) : Res :=
  .next (clockw c rd ra rb xhi 0 (fun s d w b =>
    if b ≠ 0 then .fail 0x01 0 s
    else if w < 8 then .fail 0x28 0 s
    else
      match (s.way d w).lock with
      | .none => .fail 0x29 0 s
      | .scratch => .ok 0 ((forgetScratch d w s).setWay d w { (s.way d w) with lock := .none })
      | .range _ =>
        .ok 0 (((s.cache.lines.filter (fun l => l.die == d && l.way == w)).foldl (fun s l => cleanLine l s) s).setWay d w
          { (s.way d w) with lock := .none })) s)

/-- CLOCKW, scratchpad: a new scratchpad holds never-written words (R130). -/
def execClockwScratchpad (c : Nat) (rd ra rb : BitVec 5) (xhi : BitVec 4) (s : State) : Res :=
  .next (clockw c rd ra rb xhi 1 (fun s d w b =>
    if b ≠ 0 then .fail 0x01 0 s
    else if w < 8 then .fail 0x28 0 s
    else if (s.way d w).lock ≠ .none then .fail 0x29 0 s
    else .ok 0 ((forgetScratch d w (emptyWay d w s)).setWay d w { (s.way d w) with lock := .scratch })) s)

/-- CLOCKW, range lock: the way's lines, and those of the range elsewhere, are cleaned and invalidated (R130, R406). -/
def execClockwRangeLock (c : Nat) (rd ra rb : BitVec 5) (xhi : BitVec 4) (s : State) : Res :=
  .next (clockw c rd ra rb xhi 2 (fun s d w b =>
    if b % 0x20_0000 ≠ 0 ∨ b < gddrBase d ∨ gddrBase d + 0xE000_0000 < b + 0x20_0000 then .fail 0x01 0 s
    else if w < 8 then .fail 0x28 0 s
    else if (s.way d w).lock ≠ .none then .fail 0x29 0 s
    else
      let s' := emptyWay d w s
      let s' := (linesIn s' b 0x20_0000).foldl (fun s l => evictLine l s) s'
      .ok 0 (s'.setWay d w { (s.way d w) with lock := .range b })) s)

end Sys2Proof.Machine
end

