-- ==== Sys2Proof/Machine/ChopEnd.lean ====
section
/-! DEFINITION. The end fields of a channel operation, bytes 40 to 63 of its descriptor (R136, R339, R352, R657). -/

namespace Sys2Proof.Machine

/-- Hoist i of an operation, as its first frame address. -/
def Chop.hoistPfa (o : Chop) (i : Nat) : Nat := o.pfa + 32 * i
/-- The first hoist of a READ or VERIFY that is not complete (R339). -/
def Chop.firstOpen (o : Chop) : Nat := ((List.range o.hoists).find? (fun i => !o.settled.contains i)).getD o.hoists
/-- Bytes 40 to 63 of a descriptor. -/
def endBytes (o : Chop) (cstat stop tend : Nat) : List Byte :=
  leBytes 2 cstat ++ leBytes 1 o.done ++ leBytes 1 o.rung ++ leBytes 4 o.erased ++ leBytes 8 tend ++ leBytes 4 stop ++
    leBytes 4 o.flagged
/-- Writes an operation's end fields (R136, R654). -/
def writeEnd (o : Chop) (cstat stop : Nat) (s : State) : State :=
  writeOperand 0x24 (o.area + 40) (endBytes o cstat stop s.time) s

/-- stop of a WRITE that ends early where no outcome of its burn is reported: the first frame while no hoist has begun;
else a frame of the begun hoists, or the one after them, that the burn had reached: a free choice (R352). Of a SEEK, for which
R657 gives no stop, it is the frame the SEEK names (log entry 127). -/
def brokenStop (o : Chop) (s : State) : Nat × State :=
  if o.op ≠ 2 then (o.hoistPfa (if o.op = 4 then 0 else o.firstOpen), s)
  else if o.begun = [] then (o.pfa, s)
  else
    let n := s.freshNat
    (o.pfa + n.1 % (32 * o.begun.length + 1), n.2)

/-- Before a reset that its C-die enters with its rails in range, a media channel ends every operation it holds with
cstat 0x06: the end fields alone (R657). -/
def abortChops (s : State) : State :=
  upTo s.nslices (fun k s =>
    (s.channel k).queue.foldl (fun s o =>
      let r := brokenStop o s
      writeEnd o 6 r.1 r.2) s) s

end Sys2Proof.Machine
end

