-- ==== Sys2Proof/Machine/Buffers.lean ====
section
/-! DEFINITION. The buffer pool: handles, identities, and BALLOC, BSHARE, BRELEASE and BFREE (R109 to R116, R378 to
R385). Requests are served in the order they arrive, which is that of the commands (R381). -/

namespace Sys2Proof.Machine

/-- Fields of a buffer handle (R109). -/
def handleDie (h : Nat) : Nat := bitsOf h 24 23
def handleIndex (h : Nat) : Nat := bitsOf h 22 8
def handleGen (h : Nat) : Nat := bitsOf h 7 0
/-- First byte of a handle's buffer (R110). -/
def handleAddr (h : Nat) : Nat := gddrBase (handleDie h) + handleIndex h * 0x2_0000
/-- Whether a word names a buffer of this part: reserved bits 0, a C-die of the part, an index that exists (R105,
R109). -/
def handleOk (s : State) (h : Nat) : Bool :=
  decide (h < 2 ^ 25) && decide (handleDie h < s.nslices) && decide (handleIndex h < 28672)
/-- Key of a buffer in `bufs`. -/
def bufKey (d i : Nat) : Nat := d * 32768 + i
/-- A buffer of die d; the last 32 indices are the map engine's for good (R379). -/
def State.buf (s : State) (d i : Nat) : Buf :=
  if 28640 ≤ i then { owners := [63] } else Tbl.at s.bufs (bufKey d i)
/-- Replaces a buffer's state. -/
def State.setBuf (s : State) (d i : Nat) (b : Buf) : State := { s with bufs := Tbl.upd (bufKey d i) b s.bufs }
/-- Buffers of die d that are taken, the map engine's apart, with their keys. -/
def takenBufs (s : State) (d : Nat) : List (Nat × Buf) :=
  s.bufs.filter (fun e => e.1 / 32768 == d && !e.2.owners.isEmpty)
/-- bp.stat.free (R384). -/
def freeCount (s : State) (d : Nat) : Nat := 28640 - (takenBufs s d).length
/-- bp.held[i]: buffers of die d that name identity i (R382, R384). -/
def heldCount (s : State) (d i : Nat) : Nat :=
  if i = 63 then 32 else ((takenBufs s d).filter (fun e => e.2.owners.contains i)).length
/-- The lowest free index of die d, if any: the taken ones lie in rising order (R113, R378). -/
def lowestFree (s : State) (d : Nat) : Option Nat :=
  let n := (takenBufs s d).foldl (fun n e => if e.1 = bufKey d n then n + 1 else n) 0
  if n < 28640 then some n else none

/-- Whether core c may name an identity as its own (R111). -/
def mayName (c ident : Nat) : Bool := decide (ident < 32 ∧ ident = c) || decide (32 ≤ ident ∧ ident ≤ 59)
/-- Whether two handles name the same index of the same die. -/
def sameBuf (h g : Nat) : Bool := handleDie h == handleDie g && handleIndex h == handleIndex g
/-- Whether a CHOP or a QDONE transfer that has not ended lists the buffer, or a buffer test runs on it (R113, R422). -/
def bufBusy (s : State) (h : Nat) : Bool :=
  s.adm.xfers.any (fun x => x.list.any (fun e => sameBuf h e.handle)) ||
  s.chan.any (fun e => e.2.queue.any (fun o => o.list.any (sameBuf h))) ||
  s.cache.bufTest.any (fun e => match e.2 with
    | some t => sameBuf h t.handle
    | none => false)

/-- The checks of R112 common to BSHARE, BRELEASE and BFREE: the status of the first that fails, 0 for none. -/
def ownerCheck (s : State) (c ident h : Nat) (added : Option Nat) : Nat :=
  let b := s.buf (handleDie h) (handleIndex h)
  if !mayName c ident then 0x02
  else if (match added with | some i => decide (59 < i) | none => false) then 0x02
  else if b.gen.toNat ≠ handleGen h then 0x03
  else if b.owners = [] then 0x05
  else if !b.owners.contains ident then 0x04
  else 0

/-- The record of a buffer operation refused for misuse, and its count (R114, R385, R609). -/
def logMisuse (c ident h status : Nat) (s : State) : State :=
  let d := handleDie h
  (logFault 0x0004 d c d 0xFF (h + ident * 2 ^ 32 + status * 2 ^ 40) s).count d 323 1

/-- BALLOC refused with 0x0B in the compatibility mode: one buffer less would not cover the unmet minima of the others
(R382). -/
def compatRefuses (s : State) (d ident : Nat) : Bool :=
  decide (s.cf d 0x3000 0 0 = 1) &&
  decide (freeCount s d - 1 <
    (((List.range 60).filter (fun o => o != ident)).map (fun o =>
      s.cf d (0x3100 + 8 * o) 14 0 - heldCount s d o)).sum)

/-- Writes every byte of n from an address with 0, which gives every word valid check bits (R113). -/
def zeroFill (a n : Nat) (s : State) : State :=
  let s := s.cache.lines.foldl (fun s l =>
    if l.addr < a + n ∧ a ≤ l.addr then (markDirty l.addr s).modLine l.addr (fun m => { m with errs := [] }) else s) s
  let inside := fun (x : Nat) => decide (a ≤ x) && decide (x < a + n)
  let s := { s with mem := s.mem.filter (fun e => !inside e.1), ecc := s.ecc.filter (fun e => !inside e.1) }
  let w := s.cf (memDie a) 0x9818 39 3 * 8
  if inside w ∧ (s.lineAt w).isNone then
    let i := injectInto w s
    i.2.setEcc w i.1
  else s

/-- BALLOC: takes the lowest free index of the named C-die, with the caller its sole owner (R113). -/
def execBalloc (c : Nat) (rd ra rb : BitVec 5) (xmod : BitVec 6) (s : State) : Res :=
  .next (plainOp c rd ra rb 0x00 xmod.toNat (fun s a b =>
    let d := bitsOf a 2 1
    let ident := xmod.toNat
    if 8 ≤ a ∨ b ≠ 0 ∨ s.nslices ≤ d then .fail 0x01 0 s
    else if !mayName c ident then .fail 0x02 0 s
    else
      match lowestFree s d with
      | none => .fail 0x0B 0 (s.count d 321 1)
      | some i =>
        if compatRefuses s d ident then .fail 0x0B 0 (s.count d 321 1)
        else
          let g := (s.buf d i).gen
          let s := s.setBuf d i { gen := g, owners := [ident] }
          let s := if bitSet a 0 then zeroFill (gddrBase d + i * 0x2_0000) 0x2_0000 s else s
          .ok (d * 2 ^ 23 + i * 2 ^ 8 + g.toNat) (s.count d 320 1)) s)

/-- BSHARE: adds an owner, up to four (R113). -/
def execBshare (c : Nat) (rd ra rb : BitVec 5) (xmod : BitVec 6) (s : State) : Res :=
  .next (plainOp c rd ra rb 0x01 xmod.toNat (fun s a b =>
    let ident := xmod.toNat
    let bf := s.buf (handleDie a) (handleIndex a)
    if !handleOk s a ∨ 64 ≤ b then .fail 0x01 0 s
    else
      let st := ownerCheck s c ident a (some b)
      if st ≠ 0 then .fail st 0 (logMisuse c ident a st s)
      else if bf.owners.contains b then .fail 0x09 0 s
      else if 4 ≤ bf.owners.length then .fail 0x08 0 s
      else .ok 0 (s.setBuf (handleDie a) (handleIndex a) { bf with owners := bf.owners ++ [b] })) s)

/-- BRELEASE: removes the caller from the owners, unless it is the only one (R113). -/
def execBrelease (c : Nat) (rd ra rb : BitVec 5) (xmod : BitVec 6) (s : State) : Res :=
  .next (plainOp c rd ra rb 0x02 xmod.toNat (fun s a b =>
    let ident := xmod.toNat
    let bf := s.buf (handleDie a) (handleIndex a)
    if !handleOk s a ∨ b ≠ 0 then .fail 0x01 0 s
    else
      let st := ownerCheck s c ident a none
      if st ≠ 0 then .fail st 0 (logMisuse c ident a st s)
      else if bf.owners.length = 1 then .fail 0x07 0 s
      else .ok 0 (s.setBuf (handleDie a) (handleIndex a)
        { bf with owners := bf.owners.filter (fun o => o != ident) })) s)

/-- BFREE: frees a buffer whose sole owner is the caller and which nothing uses, and advances its generation (R113). -/
def execBfree (c : Nat) (rd ra rb : BitVec 5) (xmod : BitVec 6) (s : State) : Res :=
  .next (plainOp c rd ra rb 0x03 xmod.toNat (fun s a b =>
    let ident := xmod.toNat
    let bf := s.buf (handleDie a) (handleIndex a)
    if !handleOk s a ∨ b ≠ 0 then .fail 0x01 0 s
    else
      let st := ownerCheck s c ident a none
      let st := if st = 0 ∧ bf.owners.length ≠ 1 then 0x06 else st
      if st ≠ 0 then .fail st 0 (logMisuse c ident a st s)
      else if bufBusy s a then .fail 0x0A 0 s
      else .ok 0 ((s.setBuf (handleDie a) (handleIndex a) { gen := bf.gen + 1, owners := [] }).count
        (handleDie a) 322 1)) s)

end Sys2Proof.Machine
end

