-- ==== Sys2Proof/Machine/MapTable.lean ====
section
/-! DEFINITION. The map engine's tables (R356 to R366): versions, durable-ready hoists, frontiers, the burn record and
its retained copy, deltas, and the flag set. -/

namespace Sys2Proof.Machine

/-- Drive k's map engine. -/
def State.map (s : State) (k : Nat) : MapEng := Tbl.at s.maps k
/-- Replaces drive k's map engine. -/
def State.setMap (s : State) (k : Nat) (m : MapEng) : State := { s with maps := Tbl.upd k m s.maps }

/-- Home-table state of a user hoist: 0 unburnt, 1 begun, 2 committed, 3 lost (R362). -/
def MapEng.homeState (m : MapEng) (u : Nat) : Nat := Tbl.at m.home u
/-- Sets a home-table state. -/
def MapEng.setHome (m : MapEng) (u x : Nat) : MapEng := { m with home := Tbl.upd u x m.home }

/-- The entry of a version of a block (R361). -/
def MapEng.entryOf (m : MapEng) (lbn v : Nat) : Option MapEntry :=
  m.entries.find? (fun e => e.lbn == lbn && e.version == v)
/-- Highest version with an entry; 0 for none. -/
def MapEng.topEntry (m : MapEng) (lbn : Nat) : Nat :=
  ((m.entries.filter (fun e => e.lbn == lbn)).map MapEntry.version).foldl max 0
/-- Whether a block counts as written (R356, R357, R432). -/
def MapEng.written (m : MapEng) (lbn : Nat) : Bool :=
  decide (0 < m.topEntry lbn) || decide (2 ≤ m.homeState (lbn / 30))
/-- The version a block's next commit takes (R133, R356, R357). -/
def MapEng.nextVersion (m : MapEng) (lbn : Nat) : Nat := if m.written lbn then m.topEntry lbn + 1 else 0
/-- Where a version of a block lies; none when it was never written or is absent (R132, R357). -/
def MapEng.place (m : MapEng) (lbn v : Nat) : Option Nat :=
  if v = 0 then (if m.homeState (lbn / 30) = 2 then some (homeOf lbn) else none)
  else (m.entryOf lbn v).map MapEntry.pfa
/-- The block and version that the map places at a frame, if any (R335). -/
def MapEng.ownerOf (m : MapEng) (pfa : Nat) : Option (Nat × Nat) :=
  if areaOf (pfaHoist pfa) = .user then
    let lbn := 30 * userHoistOf pfa + pfaFrame pfa % 32
    if pfaFrame pfa % 32 < 30 ∧ lbn < lbnCount ∧ m.homeState (userHoistOf pfa) = 2 then some (lbn, 0) else none
  else (m.entries.find? (fun e => e.pfa == pfa)).map (fun e => (e.lbn, e.version))

/-- Whether the channel has recorded the frame as burnt, and verified where the policy asks for it (R133): its hoist is
durable-ready in the burn record, or the map already places a version in it. -/
def MapEng.ready (m : MapEng) (pfa : Nat) : Bool :=
  m.brec.any (fun e => e.hoist == pfa / 32 && e.state == 3) ||
  (areaOf (pfaHoist pfa) == .user && m.homeState (userHoistOf pfa) == 2) ||
  m.entries.any (fun e => e.pfa == pfa)

/-! Frontiers (R346, R366, R376). -/

/-- Surface of a burn record hoist, and its hoist within the layer. -/
def hoistSurface (h : Nat) : Nat := pfaSurface (32 * h)
def hoistIn (h : Nat) : Nat := pfaHoist (32 * h)
/-- Area number of the frontier table; none for the user and map zones. -/
def frontArea : Area → Option Nat
  | .info => some 0
  | .cal => some 1
  | .spare => some 2
  | _ => none
/-- First hoist of an area with a frontier, and the hoist past its end. -/
def frontStart (a : Nat) : Nat := if a = 0 then 0 else if a = 1 then 192 else 552000
def frontEnd (a : Nat) : Nat := if a = 0 then 192 else if a = 1 then 4992 else 636000
/-- The frontier of an area of a surface; layers 1 to 3 have no disc information (R376). -/
def MapEng.frontOf (m : MapEng) (surface a : Nat) : Nat :=
  if a = 0 ∧ surface % 4 ≠ 0 then 192 else frontStart a + Tbl.at m.front (4 * surface + a)
/-- Moves a frontier past a hoist. -/
def MapEng.passFront (m : MapEng) (h : Nat) : MapEng :=
  match frontArea (areaOf (hoistIn h)) with
  | some a =>
    if m.frontOf (hoistSurface h) a ≤ hoistIn h then
      { m with front := Tbl.upd (4 * hoistSurface h + a) (hoistIn h + 1 - frontStart a) m.front }
    else m
  | none => m
/-- A map hoist's place in the order of the map zone (R366). -/
def mapIndex (h : Nat) : Nat := hoistSurface h * 12000 + (hoistIn h - 540000)
/-- Moves the map frontier past a hoist. -/
def MapEng.passMap (m : MapEng) (h : Nat) : MapEng := { m with mapFront := max m.mapFront (mapIndex h + 1) }
/-- Surface and hoist of the map frontier; 552,000 when surface 7 is full (R376). -/
def MapEng.mapSurface (m : MapEng) : Nat := min 7 (m.mapFront / 12000)
def MapEng.mapHoist (m : MapEng) : Nat := 540000 + (m.mapFront - 12000 * m.mapSurface)

/-- A hoist is entered in the record and its burn has not begun (R346; log entry 20). -/
def MapEng.reserved (m : MapEng) (h : Nat) : Bool := m.brec.any (fun e => e.hoist == h && e.state == 0)

/-- Whether hoist h passes the unburnt test of its area, when the WRITE names it after the hoists `before` (R346): a
hoist that an accepted WRITE names counts as burnt (log entry 20). While the map loads its tables are what has been ingested so
far, and the test is made on them; after an unsafe load every WRITE outside the map zone fails it (R131, R373). The 19 user
hoists after the last that holds a block are never burnt (R169). -/
def MapEng.unburnt (m : MapEng) (h : Nat) (only inline : Bool) (handle : Nat) (before : List Nat) : Bool :=
  match areaOf (hoistIn h) with
  | .user => decide (m.mstate ≠ 3) && decide (userHoistOf (32 * h) ≤ 8138020) && decide (m.homeState (userHoistOf (32 * h)) = 0) && !m.reserved h
  | .map =>
    only && inline && decide (mapIndex h = m.mapFront) && !m.reserved h &&
      (match m.fill with
       | some f => f.handle == handle
       | none => false)
  | ar =>
    match frontArea ar with
    | some a =>
      let same := fun (g : Nat) => hoistSurface g == hoistSurface h && areaOf (hoistIn g) == ar
      let ahead := ((m.brec.filter (fun e => e.state == 0 && same e.hoist)).map Brec.hoist ++ before.filter same)
      decide (m.mstate ≠ 3) &&
        decide (hoistIn h = ahead.foldl (fun f g => max f (hoistIn g + 1)) (m.frontOf (hoistSurface h) a))
    | none => false

/-! Deltas and the burn record. -/

/-- Adds a delta: its sequence number is the next (R364, R368). -/
def MapEng.addDelta (m : MapEng) (type payload : Nat) : MapEng :=
  { m with deltas := m.deltas ++ [⟨m.next, type, payload⟩], next := m.next + 1 }
/-- The word of an entry (R361). -/
def entryWord (lbn v pfa : Nat) : Nat := v * 2 ^ 58 + lbn * 2 ^ 30 + pfa
/-- Updates the burn record entry of a hoist. -/
def MapEng.modBrec (m : MapEng) (h : Nat) (f : Brec → Brec) : MapEng :=
  { m with brec := m.brec.map (fun e => if e.hoist = h then f e else e) }
/-- Frees the entries whose outcome is recorded by deltas that are durable (R363). -/
def MapEng.sweep (m : MapEng) : MapEng :=
  { m with brec := m.brec.filter (fun e => !(e.closed && e.need.isEmpty && e.seqs.all (fun q => decide (q ≤ m.dur)))) }

/-- First byte of drive k's burn record area in the retained SRAM (R597). -/
def brecBase (k : Nat) : Nat := aonBase + 0xA600 + 0x1040 * k
/-- Bytes of the retained copy of a burn record: entries whose burn has begun (R363, R597). -/
def MapEng.brecBytes (m : MapEng) : List Byte :=
  let es := m.brec.filter (fun e => e.state != 0)
  let body := (es.map (fun e => leBytes 4 (e.hoist + e.state * 2 ^ 25))).flatten
  let head := leBytes 4 0x4345_5242 ++ leBytes 2 es.length ++ leBytes 2 0 ++ padTo 32 m.disc ++ leBytes 20 0
  padTo 0x1040 (head ++ leBytes 4 (crc32c (head ++ body)) ++ body)
/-- The map engine writes the retained copy at every change (R348, R363). -/
def saveBrec (k : Nat) (s : State) : State :=
  if 2 ≤ (s.map k).mstate then s.poke (brecBase k) (s.map k).brecBytes else s
/-- Replaces a map engine whose burn record has changed: what can be freed is, and the copy is written. -/
def putMap (k : Nat) (m : MapEng) (s : State) : State := saveBrec k (s.setMap k m.sweep)

/-- Sets or clears the flag of a block's version (R365): with the set full, or 1,024 flag deltas pending, the change is
dropped and logged. -/
def setFlag (k lbn v : Nat) (on : Bool) (s : State) : State :=
  let m := s.map k
  if m.flags.contains (lbn, v) == on then s
  else if (on && decide (16384 ≤ m.flags.length)) ||
      decide (1024 ≤ (m.deltas.filter (fun d => d.type == 4 || d.type == 5)).length) then
    logFault 0x0032 k 0xFF k 0xFF (lbn + v * 2 ^ 28) s
  else
    let m := { m with flags := if on then m.flags ++ [(lbn, v)] else m.flags.filter (fun f => f != (lbn, v)) }
    s.setMap k (m.addDelta (if on then 4 else 5) (entryWord lbn v 0))

/-- A READ's verdict on a frame: the version the map places there is flagged, or its flag cleared (R335, R365). -/
def judgeFrame (k pfa : Nat) (bad : Bool) (s : State) : State :=
  match (s.map k).ownerOf pfa with
  | some (lbn, v) => setFlag k lbn v bad s
  | none => s

/-! A hoist's way through the burn record (R346 to R355, R372). -/

/-- A WRITE is accepted: its hoists are entered, with the policy in force (R346, R355). -/
def reserveHoists (k : Nat) (hs : List Nat) (s : State) : State :=
  let req := decide (s.cf k 0x7108 0 0 = 1)
  let m := s.map k
  s.setMap k { m with brec := m.brec ++ hs.map (fun h => { hoist := h, req := req }) }

/-- The first pulse of a hoist (R347, R348, R362): its entry burns, the burn sequence advances, its home state becomes 1
or its frontier passes it. -/
def beginHoist (k h : Nat) (s : State) : State :=
  let m := (s.map k).modBrec h (fun e => { e with state := 1 })
  let m := { m with hseq := m.hseq + 1 }
  let m := match areaOf (hoistIn h) with
    | .user => m.setHome (userHoistOf (32 * h)) 1
    | .map => m.passMap h
    | _ => m.passFront h
  putMap k m s

/-- A hoist that is lost (R352): its home state becomes 3, and its loss is a delta. -/
def loseHoist (k h : Nat) (s : State) : State :=
  let m := s.map k
  let seq := m.next
  let m := (m.addDelta 3 (h + 2 ^ 32)).modBrec h
    (fun e => { e with state := 4, need := [], closed := true, seqs := e.seqs ++ [seq] })
  let m := if areaOf (hoistIn h) = .user then m.setHome (userHoistOf (32 * h)) 3 else m
  putMap k m s

/-- A hoist outside the user zone is closed as burnt: a delta, and the frames of kind 0x00 that await a commit (R363). -/
def closeHoist (h : Nat) (users : List Nat) (m : MapEng) : MapEng :=
  if areaOf (hoistIn h) = .user then m
  else
    let seq := m.next
    let need := if areaOf (hoistIn h) = .spare then
        users.filter (fun p => !m.entries.any (fun e => e.pfa == p)) else []
    (m.addDelta 3 h).modBrec h (fun e => { e with closed := true, need := need, seqs := e.seqs ++ [seq] })

/-- A hoist whose WRITE ended with cstat 0x00: durable-ready when the policy asks for no verify or it verified inline,
else awaiting verification (R355). `users` are its frames of kind 0x00. -/
def burntHoist (k h : Nat) (inline : Bool) (users : List Nat) (s : State) : State :=
  let m := (s.map k).modBrec h (fun e => { e with state := if e.req && !inline then 2 else 3 })
  putMap k (closeHoist h users m) s

/-- A hoist that passed a VERIFY (R355, R372): an entry of state 2 or 5 becomes durable-ready. One of state 5 is closed
now, unless its home hoist is committed already, which needs no more. -/
def passHoist (k h : Nat) (users : List Nat) (s : State) : State :=
  let m := s.map k
  match m.brec.find? (fun e => e.hoist == h) with
  | some e =>
    if e.state = 2 then putMap k (m.modBrec h (fun e => { e with state := 3 })) s
    else if e.state = 5 then
      let done := areaOf (hoistIn h) == .user && m.homeState (userHoistOf (32 * h)) == 2
      putMap k (closeHoist h users (m.modBrec h (fun e => { e with state := 3, closed := done }))) s
    else s
  | none => s

/-- A state-5 hoist whose 32 frames are blank: its entry is freed, and a home hoist returns to state 0 (R372). -/
def blankHoist (k h : Nat) (s : State) : State :=
  let m := s.map k
  if m.brec.any (fun e => e.hoist == h && e.state == 5) then
    let m := { m with brec := m.brec.filter (fun e => e.hoist != h) }
    putMap k (if areaOf (hoistIn h) = .user then m.setHome (userHoistOf (32 * h)) 0 else m) s
  else s

/-- A hoist that failed a VERIFY: one the burn record holds is lost (R355, R372; log entry 21). -/
def failHoist (k h : Nat) (s : State) : State :=
  if (s.map k).brec.any (fun e => e.hoist == h && decide (e.state ≠ 4)) then loseHoist k h s else s

/-- Takes out the entries of hoists never begun (R352). -/
def releaseHoists (k : Nat) (hs : List Nat) (s : State) : State :=
  let m := s.map k
  putMap k { m with brec := m.brec.filter (fun e => !(e.state == 0 && hs.contains e.hoist)) } s

end Sys2Proof.Machine
end

