-- ==== Sys2Proof/Machine/Map.lean ====
section
/-! DEFINITION. The map operations and the map engine's commands: MAPLOOK, MAPCOMMIT, the filling of map hoists, and the
loading of a disc (R131 to R135, R366 to R377). -/

namespace Sys2Proof.Machine

/-- A namespace's attributes have changed (R431, R433, R459). -/
def namespaceChanged (k : Nat) (s : State) : State :=
  let ch := s.host.changedNs
  raiseAsync 2 0 4 { s with host := { s.host with
    changedNs := if ch.contains (k + 1) then ch else ch ++ [k + 1] } }

/-- The map engine reads its tables. Their layout is the engine's own, so that where a word of its buffers is uncorrectable it is free
whether the read meets it; if it does, mstate becomes 0 until the map is loaded again (R360, R420; log entry 139). -/
def readTables (k : Nat) (s : State) : State :=
  match badWord s (gddrBase k + 28640 * 0x2_0000) (32 * 0x2_0000) with
  | none => s
  | some w =>
    let n := s.freshNat
    if n.1 % 2 = 0 ∨ (n.2.map k).mstate = 0 then n.2
    else
      let was := (n.2.map k).mstate
      let s := logUncorrectable 0x25 w (countBad w 1 (n.2.setMap k { n.2.map k with mstate := 0 }))
      if 2 ≤ was then namespaceChanged k s else s

/-- MAPLOOK: a block and version to a frame address (R132). With rb[63] = 1 the rest of rb must be 0 (R105; log entry 124). -/
def execMaplook (c : Nat) (rd ra rb : BitVec 5) (xmod : BitVec 6) (s : State) : Res :=
  .next (plainOp c rd ra rb 0x0E xmod.toNat (fun s a b =>
    let latest := bitSet b 63
    if lbnCount ≤ a ∨ (if latest then b ≠ 2 ^ 63 else 64 ≤ b) then .fail 0x01 0 s
    else
      let s := readTables (c / 8) s
      let m := s.map (c / 8)
      let v := if latest then m.topEntry a else b
      let ans := fun (w pfa : Nat) =>
        Ans.ok (b2n (m.flags.contains (a, v)) * 2 ^ 37 + w * 2 ^ 36 + v * 2 ^ 30 + pfa) s
      if m.mstate < 2 then .fail 0x30 0 s
      else if latest && !m.written a then ans 0 (homeOf a)
      else
        match m.place a v with
        | some pfa => ans (b2n (m.written a)) pfa
        | none => .fail 0x31 0 s) s)

/-- The end of a commit (R133, R356, R364): the entry or the home-table change, its delta, the clear of an earlier flag
of the same version, and what the burn record awaits. -/
def commitVersion (k lbn v pfa : Nat) (s : State) : Nat × State :=
  let m := s.map k
  let seq := m.next
  let m := if v = 0 then (m.setHome (lbn / 30) 2).addDelta 2 (pfa / 32)
    else { (m.addDelta 1 (entryWord lbn v pfa)) with
           entries := m.entries ++ [⟨lbn, v, pfa⟩],
           superseded := if m.superseded.contains (lbn / 30) then m.superseded
             else m.superseded ++ [lbn / 30] }
  let flagged := m.flags.contains (lbn, v)
  let m := if flagged then
      { (m.addDelta 5 (entryWord lbn v 0)) with flags := m.flags.filter (fun f => f != (lbn, v)) }
    else m
  let m := m.modBrec (pfa / 32) (fun e =>
    { e with need := e.need.filter (fun p => p != pfa)
             closed := e.closed || decide (v = 0)
             seqs := e.seqs ++ (if flagged then [seq, seq + 1] else [seq]) })
  (seq, putMap k m s)

/-- MAPCOMMIT: enters a durable-ready version into the map (R133, R134). -/
def execMapcommit (c : Nat) (rd ra rb : BitVec 5) (xmod : BitVec 6) (s : State) : Res :=
  .next (plainOp c rd ra rb 0x0F xmod.toNat (fun s a b =>
    let pfa := bitsOf b 29 0
    let v := bitsOf b 35 30
    if lbnCount ≤ a ∨ 2 ^ 36 ≤ b then .fail 0x01 0 s
    else
      let s := readTables (c / 8) s
      let m := s.map (c / 8)
      if m.mstate < 2 then .fail 0x30 0 s
      else if m.mstate = 3 ∨ !m.ready pfa then .fail 0x34 0 s
      else if v ≠ m.nextVersion a then .fail 0x33 0 s
      else if v = 0 ∧ pfa ≠ homeOf a then .fail 0x01 0 s
      else if 0 < v ∧ 524288 ≤ m.entries.length then .fail 0x32 0 s
      else
        let r := commitVersion (c / 8) a v pfa s
        .ok (r.1 % 2 ^ 32) r.2) s)

/-! Filling a map hoist (R366 to R370). -/

/-- mc.map.dstat (R377). -/
def mapStatus (k seq recs part final result : Nat) (s : State) : State :=
  ((((s.setCf k 0x7220 63 32 seq).setCf k 0x7220 31 16 recs).setCf k 0x7220 15 8 part).setCf k 0x7220 7 7
    final).setCf k 0x7220 3 0 result

/-- Whether a handle names a buffer of drive k's C-die whose owners include core c (R369, R377). -/
def mapHandleOk (s : State) (c k h : Nat) : Bool :=
  let b := s.buf (handleDie h) (handleIndex h)
  handleOk s h && handleDie h == k && b.gen.toNat == handleGen h && b.owners.contains c

/-- A map record (R367). -/
def mapRecord (type flags count base ckid part hseq : Nat) (body : List Byte) : List Byte :=
  padTo 4096 (leBytes 4 0x5250_414D ++ leBytes 1 type ++ leBytes 1 flags ++ leBytes 2 count ++ leBytes 4 base ++
    leBytes 4 ckid ++ leBytes 4 part ++ leBytes 4 hseq ++ leBytes 8 0 ++ body)
/-- The metadata that firmware's part of a map frame carries (R347, R367). -/
def mapMeta : List Byte :=
  padTo 256 (leBytes 4 0x0FFF_FFFF ++ leBytes 1 0 ++ leBytes 1 2 ++ leBytes 2 0 ++ leBytes 4 0xFFFF_FFFF)
/-- A delta's 16 bytes (R368). -/
def Delta.bytes (d : Delta) : List Byte := leBytes 8 d.payload ++ leBytes 4 d.seq ++ leBytes 1 d.type ++ leBytes 3 0

/-- Writes 30 map records and their metadata into a buffer, as the map engine (R402, R403). -/
def writeRecords (h : Nat) (recs : List (List Byte)) (s : State) : State :=
  privWrite 1 0x25 (handleAddr h + 122880) ((List.replicate 30 mapMeta).flatten)
    (privWrite 1 0x25 (handleAddr h) recs.flatten s)

/-- Whether the record holds no entry outside the map zone: the clean flag (R369). -/
def MapEng.isClean (m : MapEng) : Bool := m.brec.all (fun e => areaOf (hoistIn e.hoist) == .map)

/-- The refusals common to both fills, in their order (R377): 0 when there is none. -/
def fillRefusal (s : State) (c k : Nat) : Nat :=
  if (s.map k).mstate ≠ 2 then 5
  else if (s.map k).fill.isSome then 2
  else if !mapHandleOk s c k (s.cf k 0x7210 31 0) then 3
  else 0

/-- mc.map.dcmd 1: the pending deltas, up to 254 to a frame, go into the buffer (R369). The base of a frame that holds
no delta is a free value. -/
def fillDeltas (c k : Nat) (s : State) : State :=
  let s := readTables k s
  let r := fillRefusal s c k
  let m := s.map k
  let h := s.cf k 0x7210 31 0
  if r ≠ 0 then mapStatus k 0 0 0 0 r s
  else if m.deltas = [] then mapStatus k 0 0 0 0 4 s
  else
    let take := m.deltas.take 7620
    let recs := (List.range 30).foldl (fun (acc : List (List Byte) × State) i =>
      let ds := (take.drop (254 * i)).take 254
      let base : Nat × State := match ds with
        | d :: _ => (d.seq, acc.2)
        | [] => acc.2.freshNat
      (acc.1 ++ [mapRecord 1 (2 * b2n m.isClean) ds.length base.1 m.ckid 0 (m.hseq + 1) (ds.map Delta.bytes).flatten],
        base.2)) ([], s)
    let s := writeRecords h recs.1 recs.2
    let s := s.setMap k { m with fill := some { handle := h, seqs := take.map Delta.seq, ckpt := false, final := false } }
    mapStatus k ((take.map Delta.seq).getLast?.getD 0) take.length 0 0 1 s

/-- Units that hold the home table: 8,138,040 user hoists, 32 to a unit (R360, R370). -/
def homeUnits : Nat := 254314
/-- Unit i of the home table: user hoist 32 i + j in bits [2 j + 1:2 j] (R370). -/
def homeUnit (m : MapEng) (i : Nat) : Nat := ((List.range 32).map (fun j => m.homeState (32 * i + j) * 4 ^ j)).sum
/-- The units of a checkpoint (R370): entries, home table, flag set, frontiers, burn sequence; the two lists whose
length varies each follow a unit that holds it (log entry 22). -/
def ckptUnits (m : MapEng) : List Nat :=
  [m.entries.length] ++ m.entries.map (fun e => entryWord e.lbn e.version e.pfa) ++
  (List.range homeUnits).map (homeUnit m) ++
  [m.flags.length] ++ m.flags.map (fun f => entryWord f.1 f.2 0) ++
  (List.range 24).map (fun i => m.frontOf (i / 3) (i % 3)) ++ [m.hseq]

/-- mc.map.dcmd 2: the next 30 frames of a checkpoint go into the buffer; the first fixes S and what is written (R370).
A frame past the final part carries no unit. -/
def fillCheckpoint (c k : Nat) (s : State) : State :=
  let s := readTables k s
  let r := fillRefusal s c k
  let m := s.map k
  let h := s.cf k 0x7210 31 0
  if r ≠ 0 then mapStatus k 0 0 0 0 r s
  else
    let ck := m.ckpt.getD { base := m.dur + 1, units := ckptUnits m }
    let left := ceilDiv ck.units.length 508 - ck.frames
    let n := min 30 left
    let final := decide (left ≤ 30)
    let recs := (List.range 30).map (fun i =>
      let part := ck.frames + i
      let us := (ck.units.drop (508 * part)).take 508
      mapRecord 2 (b2n (final && i + 1 == n) + 2 * b2n m.isClean) us.length ck.base (m.ckid + 1) part (m.hseq + 1)
        (us.map (leBytes 8)).flatten)
    let placed := min (ck.units.length - 508 * ck.frames) (508 * 30)
    let s := writeRecords h recs s
    let s := s.setMap k { m with
      ckpt := some ck
      fill := some { handle := h, seqs := [], ckpt := true, final := final, frames := n } }
    mapStatus k ck.base placed ((ck.frames + n - 1) % 256) (b2n final) 1 s

/-- The end of a map hoist's WRITE (R369, R370): on cstat 0x00 its deltas are durable, or its checkpoint parts are
placed; after a failure both are filled again. -/
def mapHoistEnd (k : Nat) (good : Bool) (s : State) : State :=
  let m := s.map k
  match m.fill with
  | none => s
  | some f =>
    let m := { m with fill := none }
    if !good then s.setMap k m
    else if f.ckpt then
      match m.ckpt with
      | some ck =>
        s.setMap k (if f.final then { m with ckpt := none, ckid := m.ckid + 1 }
          else { m with ckpt := some { ck with frames := ck.frames + f.frames } })
      | none => s.setMap k m
    else
      putMap k { m with deltas := m.deltas.filter (fun d => !f.seqs.contains d.seq)
                        dur := f.seqs.foldl max m.dur } s

/-! Loading a disc (R371 to R374). -/

/-- mc.map.dcmd 3: the tables are cleared and loading begins (R371). -/
def beginLoad (k : Nat) (s : State) : State :=
  let was := (s.map k).mstate
  let s := s.setMap k { mstate := 1, disc := (s.map k).disc }
  let s := { s with host := { s.host with zones := s.host.zones.filter (fun e => e.1 / 8192 != k) } }
  if 2 ≤ was then namespaceChanged k s else s

/-- Whether a frame of a map hoist's buffer is a well-formed map record (R367). -/
def recordOk (r : List Byte) : Bool :=
  let type := leAt r 4 1
  let count := leAt r 6 2
  decide (leAt r 0 4 = 0x5250_414D) &&
    ((type == 1 && decide (count ≤ 254)) || (type == 2 && decide (count ≤ 508)))

/-- The deltas of a type 1 record. -/
def recordDeltas (r : List Byte) : List Delta :=
  (List.range (leAt r 6 2)).map (fun i =>
    ⟨leAt r (32 + 16 * i + 8) 4, leAt r (32 + 16 * i + 12) 1, leAt r (32 + 16 * i) 8⟩)

/-- Takes one record into a loading map: deltas are kept for the end, units gather; part 0 starts a checkpoint afresh
(R370, R371). -/
def takeRecord (m : MapEng) (r : List Byte) : MapEng :=
  let m := { m with clean := bitSet (leAt r 5 1) 1, record := true, hseq := max m.hseq (leAt r 20 4 - 1) }
  if leAt r 4 1 = 1 then { m with taken := m.taken ++ recordDeltas r, ckid := max m.ckid (leAt r 12 4) }
  else
    let us := (List.range (leAt r 6 2)).map (fun i => leAt r (32 + 8 * i) 8)
    let ck := if leAt r 16 4 = 0 then { base := leAt r 8 4, units := us, frames := 1 }
      else match m.ckpt with
        | some ck => { ck with units := ck.units ++ us, frames := ck.frames + 1 }
        | none => { base := leAt r 8 4, units := [], frames := 0 }
    { m with ckpt := some { ck with filled := ck.filled || bitSet (leAt r 5 1) 0 }
             ckid := if bitSet (leAt r 5 1) 0 then leAt r 12 4 else m.ckid }

/-- mc.map.dcmd 4: takes the map hoist in the buffer (R371, R377). The map frontier passes the hoist that its metadata
names. -/
def ingest (c k : Nat) (s : State) : State :=
  let m := s.map k
  let h := s.cf k 0x7210 31 0
  if m.mstate ≠ 1 then mapStatus k 0 0 0 0 5 s
  else if !mapHandleOk s c k h then mapStatus k 0 0 0 0 3 s
  else
    let r := privRead 1 (handleAddr h) 130560 s
    let s := r.2
    let recs := (List.range 30).map (fun i => s.bytes (handleAddr h + 4096 * i) 4096)
    match r.1 with
    | some w => mapStatus k 0 0 0 0 6 (logUncorrectable 0x25 w s)
    | none =>
    if !recs.all recordOk then mapStatus k 0 0 0 0 6 s
    else
      let self := s.num (handleAddr h + 122880 + 12) 4 % 2 ^ 30
      let burn := s.num (handleAddr h + 122880 + 28) 4
      let m := recs.foldl takeRecord m
      let m := { m with hseq := max m.hseq burn }
      let m := if areaOf (pfaHoist self) = .map then m.passMap (self / 32) else m
      mapStatus k 0 ((recs.map (fun r => leAt r 6 2)).sum) 0 0 1 (s.setMap k m)

/-- The entry a word spells (R361). -/
def wordEntry (w : Nat) : MapEntry := ⟨bitsOf w 57 30, bitsOf w 63 58, bitsOf w 29 0⟩

/-- The tables a whole checkpoint gives (R370). -/
def applyCkpt (m : MapEng) (ck : Ckpt) : MapEng :=
  let us := ck.units
  let ne := us.headD 0
  let rest := us.drop (1 + ne)
  let homes := rest.take homeUnits
  let nf := (rest.drop homeUnits).headD 0
  let rest := rest.drop (homeUnits + 1)
  let fronts := (rest.drop nf).take 24
  let m := { m with
    base := ck.base
    dur := ck.base - 1
    entries := ((us.drop 1).take ne).map wordEntry
    flags := (rest.take nf).map (fun w => ((wordEntry w).lbn, (wordEntry w).version))
    hseq := max m.hseq ((rest.drop (nf + 24)).headD 0)
    superseded := [] }
  let m := { m with home := ((List.range homeUnits).zip homes).flatMap (fun e =>
    if e.2 = 0 then [] else
      ((List.range 32).map (fun j => (32 * e.1 + j, e.2 / 4 ^ j % 4))).filter (fun x => x.2 != 0)) }
  ((List.range 24).zip fronts).foldl (fun m e =>
    { m with front := Tbl.upd (4 * (e.1 / 3) + e.1 % 3) (e.2 - frontStart (e.1 % 3)) m.front }) m

/-- One delta applied while loading (R368). -/
def applyDelta (m : MapEng) (d : Delta) : MapEng :=
  let e := wordEntry d.payload
  let h := d.payload % 2 ^ 25
  let m := { m with dur := max m.dur d.seq }
  if d.type = 1 then { m with entries := m.entries ++ [e] }
  else if d.type = 2 then m.setHome (userHoistOf (32 * h)) 2
  else if d.type = 3 then
    (match areaOf (hoistIn h) with
     | .user => if bitSet d.payload 32 then m.setHome (userHoistOf (32 * h)) 3 else m
     | .map => m.passMap h
     | _ => m.passFront h)
  else if d.type = 4 then
    { m with flags := if m.flags.contains (e.lbn, e.version) then m.flags else m.flags ++ [(e.lbn, e.version)] }
  else if d.type = 5 then { m with flags := m.flags.filter (fun f => f != (e.lbn, e.version)) }
  else m

/-- The tables that the ingested records give: the checkpoint, then every delta of sequence S or above in order of
sequence (R371). -/
def rebuild (m : MapEng) : MapEng :=
  let m := match m.ckpt with
    | some ck => if ck.filled then applyCkpt m ck else m
    | none => m
  let ds := sortBy (fun (a b : Delta) => decide (a.seq < b.seq)) (m.taken.filter (fun d => decide (m.base ≤ d.seq)))
  let m := ds.foldl applyDelta m
  { m with next := m.dur + 1, taken := [], ckpt := none }

/-- The entries of drive k's retained burn record, when it belongs to the disc and its CRC is good (R371, R597). -/
def retainedBrec (s : State) (k : Nat) : Option (List Nat) :=
  let b := s.bytes (brecBase k) 0x1040
  let n := leAt b 4 2
  let body := (b.drop 64).take (4 * n)
  if leAt b 0 4 = 0x4345_5242 ∧ n ≤ 1024 ∧ (b.drop 8).take 32 = padTo 32 (s.map k).disc ∧
      leAt b 60 4 = crc32c (b.take 60 ++ body) then
    some ((List.range n).map (fun i => leAt body (4 * i) 4 % 2 ^ 25))
  else none

/-- A hoist of the retained record after a load (R371): state 5, its frontier moved past it, a home hoist that is not
committed or lost counted as begun. -/
def enterUnknown (m : MapEng) (h : Nat) : MapEng :=
  let m := { m with brec := m.brec ++ [{ hoist := h, state := 5 }], hseq := m.hseq + 1 }
  match areaOf (hoistIn h) with
  | .user => if m.homeState (userHoistOf (32 * h)) = 0 then m.setHome (userHoistOf (32 * h)) 1 else m
  | .map => m.passMap h
  | _ => m.passFront h

/-- The zone states of a disc just loaded (R439): a zone none of whose user hoists has been begun is Empty, and is not
listed. -/
def loadZones (k : Nat) (s : State) : State :=
  let m := s.map k
  let touched := (m.home.map (fun e => e.1 / 1024)).dedup
  let zone := fun (z : Nat) =>
    let last := if z = 7947 then 8138020 else 1024 * z + 1023
    if m.homeState (1024 * z) = 0 then ({} : Zone)
    else if m.homeState last ≠ 0 then { state := .full, wp := 30720 }
    else
      let first := ((List.range 1024).find? (fun i => decide (m.homeState (1024 * z + i) = 0))).getD 0
      { state := .closed, wp := 30 * first }
  let old := s.host.zones.filter (fun e => e.1 / 8192 != k)
  { s with host := { s.host with zones := touched.foldl (fun t z => Tbl.upd (8192 * k + z) (zone z) t) old } }

/-- mc.map.dcmd 5: the tables are rebuilt and the retained burn record read; the map becomes read-write, or read-only
when the record does not prove what the disc holds (R371, R373; log entry 23 for a disc with no map record). -/
def endLoad (k : Nat) (s : State) : State :=
  let m := s.map k
  if m.mstate ≠ 1 then s
  else
    let r := rebuild m
    let m := match retainedBrec s k with
      | some hs => { (hs.foldl enterUnknown r) with mstate := 2 }
      | none => { r with mstate := if m.clean || !m.record then 2 else 3 }
    namespaceChanged k (loadZones k (saveBrec k (s.setMap k { m with clean := false, record := false })))

/-! The commands. -/

/-- Core c writes 1 to mc.map.dcmd of die k (R369). -/
def execMapFillDeltas (c : Nat) (own : Bool) (k : Nat) (s : State) : Res :=
  .next (regAccess c .store own false k 0x7218 false (fillDeltas c k) s)
/-- Core c writes 2 to mc.map.dcmd of die k (R370). -/
def execMapFillCheckpoint (c : Nat) (own : Bool) (k : Nat) (s : State) : Res :=
  .next (regAccess c .store own false k 0x7218 false (fillCheckpoint c k) s)
/-- A write of 3 to mc.map.dcmd of die k (R371). -/
def execMapBeginLoad (k : Nat) (s : State) : Res := .next (beginLoad k s)
/-- Core c writes 4 to mc.map.dcmd of die k (R371). -/
def execMapIngest (c : Nat) (own : Bool) (k : Nat) (s : State) : Res :=
  .next (regAccess c .store own false k 0x7218 false (ingest c k) s)
/-- A write of 5 to mc.map.dcmd of die k (R371). -/
def execMapEndLoad (k : Nat) (s : State) : Res := .next (endLoad k s)
/-- A write of a hoist to mc.map.brec of die k: an entry of state 3 awaits no further commit (R363, R377). -/
def brecWrite (k h : Nat) (s : State) : State :=
  let m := s.map k
  putMap k (m.modBrec h (fun e => if e.state = 3 then { e with need := [] } else e)) s
def execBrecWrite (k : Nat) (hoist : BitVec 25) (s : State) : Res := .next (brecWrite k hoist.toNat s)

end Sys2Proof.Machine
end

