-- ==== Sys2Proof/Machine/Admission.lean ====
section
/-! DEFINITION. The admission unit (R463 to R479): features that admission reads, cost tables and bounds, the time and
energy tests, the earliest feasible deadline, staged data, and overruns. Times are in ns, energies in µJ (a pennant
is 10,000). -/

namespace Sys2Proof.Machine

/-! Features (R434, R437, R441 to R446). -/

/-- Default of a feature value, keyed identifier * 0x10000 + index: for 0xC0 index c is class c's deadline in 100 µs,
8 + c its flags, 16 + q the class of queue q (R443); for 0xC3 the ladder depth (R445); 0x06 is WCE (R437); 0x04 the warning
threshold of R447 and 0x0B every event (log entry 31). -/
def featDefault (key : Nat) : Nat :=
  let f := key / 0x10000
  let i := key % 0x10000
  if f = 0xC0 then
    (if i < 8 then [100, 1000, 10000, 100000, 600000, 6000000, 36000000, 144000000].getD i 0
     else if i < 16 then 0 else 3)
  else if f = 0xC3 then 6
  else if f = 0x06 then 1
  else if f = 0x04 ∧ i = 0 then 363
  else if f = 0x0B then 0x303
  else 0
/-- A feature's current value. -/
def State.feat (s : State) (f i : Nat) : Nat := Tbl.get featDefault s.host.feat (f * 0x10000 + i)
/-- Sets a feature's current value. -/
def State.setFeat (s : State) (f i v : Nat) : State :=
  { s with host := { s.host with feat := Tbl.set featDefault (f * 0x10000 + i) v s.host.feat } }
/-- Class of a submission queue, and whether the class is ordered (R443, R452). -/
def State.classOf (s : State) (sqid : Nat) : Nat := s.feat 0xC0 (16 + sqid) % 8
def State.ordered (s : State) (c : Nat) : Bool := bitSet (s.feat 0xC0 (8 + c)) 0

/-! Cost tables (R467). -/

/-- Doubleword i of drive k's cost table in force; reference values after reset. -/
def State.costWord (s : State) (k i : Nat) : Word :=
  Tbl.get (fun a => BitVec.ofNat 64 (ctRef (a % 128))) s.adm.ctab (128 * k + i)
/-- The four bytes at an offset of drive k's cost table. -/
def State.costAt (s : State) (k off : Nat) : Nat :=
  bitsOf ((s.costWord k (off / 8)).toNat) (off % 8 * 8 + 31) (off % 8 * 8)
/-- Entry i of the seek table: farthest distance and µs. -/
def State.seekAt (s : State) (k i : Nat) : Nat × Nat := (s.costAt k (48 + 8 * i) % 65536, s.costAt k (52 + 8 * i))
/-- The last nonzero seek, µs. -/
def State.lastSeek (s : State) (k : Nat) : Nat :=
  (((List.range 8).map (fun i => (s.seekAt k i).2)).filter (fun t => t != 0)).getLast?.getD 0
/-- The seek for a distance: the first entry that covers it. -/
def State.seekFor (s : State) (k dist : Nat) : Nat :=
  match ((List.range 8).map (s.seekAt k)).find? (fun e => e.2 != 0 && decide (dist ≤ e.1)) with
  | some e => e.2
  | none => s.lastSeek k

/-! The row in force (R446, R469, R485). -/

/-- A field of the trade row in force for drive k. -/
def State.rowField (s : State) (k hi lo : Nat) : Nat := s.cf 0 (0xC100 + 0x20 * s.modeRow + 8 * k) hi lo
/-- The row's spindle speed, and the speed costs are made at: limited to sp.vin.ceil (R469). -/
def State.rowSpeed (s : State) (k : Nat) : Nat := if s.rowField k 0 0 = 1 then 3600 else 7200
def State.ceil (s : State) (k : Nat) : Nat := s.cf k 0x4208 13 0
def State.costSpeed (s : State) (k : Nat) : Nat := min (s.rowSpeed k) (s.ceil k)
/-- Beam-count mode in force: the smaller count of the host's value and the row (R446). -/
def State.beamMode (s : State) (k : Nat) : Nat :=
  let norm := fun (x : Nat) => if x = 3 then 0 else x
  max (norm (s.feat 0xC4 k)) (norm (s.rowField k 9 8))

/-! Cost bounds (R468 to R471). -/

/-- A duration in µs, scaled when the speed in use is below the row's (R469). -/
def scaled (s : State) (k t : Nat) : Nat :=
  if s.costSpeed k < s.rowSpeed k then ceilDiv (t * s.rowSpeed k) (max 1 (s.costSpeed k)) else t

/-- The home frame addresses of a range. -/
def homesOf (slba n : Nat) : List Nat := (List.range n).map (fun i => homeOf (slba + i))
/-- A frame's (side, layer, hoist group). -/
def groupKey (a : Nat) : Nat := a / 2 ^ 27 * 2 ^ 20 + pfaHoist a / 3
/-- A frame's (side, band). -/
def bandKey (a : Nat) : Nat := pfaSide a * 2 ^ 16 + bandOf a

/-- The positioning term of one head (R470): `first` is the first home frame of the range on its side. -/
def positionCost (s : State) (k first : Nat) : Nat :=
  let h := pfaSide first
  let off := 0x4100 + 8 * h
  let idle := s.liveSlots.all (fun e => e.2.drive != k && !e.2.allDrives)
  let layer := s.costAt k 20
  if idle ∧ s.cf k off 2 2 = 1 then
    let at_ := s.cf k off 31 18
    let b := bandOf first
    (if at_ = b then 0 else s.seekFor k (max at_ b - min at_ b)) +
      (if s.cf k off 17 16 = pfaLayer first then 0 else layer)
  else s.lastSeek k + layer

/-- Cost bound of a Read, Verify or Version Read in µs (R468). -/
def readCost (s : State) (k op slba n d : Nat) : Nat :=
  let homes := homesOf slba n
  let groups := (homes.map groupKey).dedup
  let zone := ((homes.map (fun a => bandOfPos (8 * (pfaHoist a / 3)))).foldl min 13075) / 1024
  let bands := (homes.map bandKey).dedup.length
  let hs := fun (g : Nat) => ((homes.filter (fun a => groupKey a == g)).map (fun a => a / 32)).dedup.length
  let most := (groups.map hs).foldl max 0
  let speed := if s.rowField k 0 0 = 1 then 1 else 0
  let n0 := s.costSpeed k
  let trev : Rat := 60000000 / n0
  let fixed := s.costAt k 0
  let host : Rat := if op = 0x0C then 0 else (n * s.costAt k 16 : Nat) / 1000
  let st := s.cf k 0x4200 3 0
  let sp := s.cf k 0x4200 21 8
  let spin := if [0, 8, 1, 2, 3].contains st then s.costAt k 32
    else if 100 * (max sp n0 - min sp n0) > n0 then (if sp < n0 then s.costAt k 24 else s.costAt k 28) else 0
  let side := fun (x : Nat) => match homes.find? (fun a => pfaSide a == x) with
    | some a => positionCost s k a
    | none => 0
  let mode := s.beamMode k
  let passes := if mode = 0 then 1 else if mode = 1 then ceilDiv most 2 else most
  let cross := pfaLayer (homeOf (slba + n - 1)) - pfaLayer (homeOf slba)
  let sup := if op = 0x80 then 1
    else ((List.range n).filter (fun i => (s.map k).superseded.contains ((slba + i) / 30))).length
  let ladder := s.costAt k (216 + 8 * d + 4 * speed)
  let slow := (if speed = 1 then scaled s k else id) (s.costAt k (216 + 8 * d + 4))
  let total : Rat := (fixed : Rat) + host + (spin : Rat) + (max (side 0) (side 1) : Nat) + 2 * trev +
    (groups.length * scaled s k (s.costAt k (112 + 8 * zone + 4 * speed)) : Nat) + ((passes - 1 : Nat) : Rat) * trev +
    (cross * (s.costAt k 20 + s.lastSeek k) : Nat) + (s.costAt k 36 * sup : Nat) + (bands * scaled s k ladder : Nat) +
    (if 4 ≤ d then (s.costAt k 28 + s.costAt k 24 + s.lastSeek k : Nat) + (bands : Rat) * (2 * 60000000 / 3600 + slow)
     else 0)
  total.ceil.toNat

/-- Cost bound of an I/O command in µs (R468). -/
def costOf (s : State) (k op slba n d : Nat) : Nat :=
  if op = 0x00 then s.costAt k 8
  else if op = 0x79 ∨ op = 0x7A then s.costAt k 12
  else if op = 0x01 ∨ op = 0x7D then s.costAt k 4 + ceilDiv (n * s.costAt k 16) 1000
  else readCost s k op slba n d

/-- Energy bound in pennants (R471); the spec gives Zone Management no energy. -/
def energyOf (s : State) (k op c : Nat) : Nat :=
  if op = 0x79 ∨ op = 0x7A then 0
  else if op = 0x00 ∨ op = 0x01 ∨ op = 0x7D then ceilDiv (c * s.costAt k 312) 1000000
  else ceilDiv (c * s.rowField k 47 32) 1000000

/-! The drain entry (R475). -/

/-- Cost of a drain of w staged writes and h staged hoists of drive k, µs. -/
def drainCost (s : State) (k w h : Nat) : Nat :=
  let m := s.beamMode k
  let burn := ((List.range 8).map (fun c => s.costAt k (272 + 12 * (s.feat 0xC2 c) + 4 * m))).foldl max 0
  s.costAt k 44 + w * s.costAt k 40 + h * burn
/-- Drain limit dmax in ns (R486). -/
def State.dmax (s : State) : Nat :=
  let d := s.cf 0 0xA000 47 32
  (if 1000 ≤ d ∧ d ≤ 18000 then d else 18000) * 1000000
/-- Whether a live command pulls drive k's drain key: a Flush of the drive, or a FUA Write (R475). -/
def pullsDrain (k : Nat) (x : Slot) : Bool :=
  x.live && !x.job && (x.drive == k || x.allDrives) &&
    (x.opcode == 0 || ((x.opcode == 1 || x.opcode == 0x7D) && x.fua))
/-- The guard instants that pull drive k's drain key. -/
def drainPulls (s : State) (k : Nat) : List Nat := ((s.liveSlots.filter (fun e => pullsDrain k e.2)).map
  (fun e => guardOf e.2.d))
/-- Drive k's drain key (R475). -/
def drainKey (s : State) (k : Nat) : Nat :=
  match drainPulls s k with
  | [] => s.time + s.dmax
  | g :: gs => gs.foldl min g

/-! The tests (R472 to R474). -/

/-- An entry of the tests: its drives, its dispatch key, its limit, its remaining time in ns, its unmet energy in µJ, and
whether key and limit move with the deadline being tried. -/
structure TestEntry where
  drives : List Nat
  key : Nat
  lim : Nat
  drain : Bool
  order : Nat
  rem : Nat
  need : Nat
  moves : Bool
  /-- Its deadline lies past an activation window: it is costed from the window's end (R458). -/
  late : Bool
  deriving DecidableEq, Repr

/-- What a command asks the tests. -/
structure Ask where
  k : Nat
  allDrives : Bool
  op : Nat
  slba : Nat
  n : Nat
  hasRange : Bool
  fua : Bool
  /-- C in µs and E in pennants. -/
  c : Nat
  e : Nat
  deriving DecidableEq, Repr

/-- Live commands with their keys after a new command of deadline d has handed its urgency on (R465): from the latest
accepted to the earliest, an untaken command with a later key takes key d when it overlaps the new command or one that
has taken it. -/
def inherit (s : State) (a : Ask) (d : Nat) : List (Nat × Slot) :=
  let new : Slot := { drive := a.k, slba := a.slba, nblocks := a.n, hasRange := a.hasRange }
  let down := sortBy (fun (x y : Nat × Slot) => decide (y.2.order < x.2.order)) s.liveSlots
  ((down.foldl (fun (acc : List Slot × List (Nat × Slot)) e =>
    if e.2.phase = .queued ∧ d < e.2.key ∧ acc.1.any (fun f =>
        f.hasRange && e.2.hasRange && f.drive == e.2.drive && decide (f.slba < e.2.slba + e.2.nblocks) &&
        decide (e.2.slba < f.slba + f.nblocks)) then
      (acc.1 ++ [e.2], acc.2 ++ [(e.1, { e.2 with key := d })])
    else (acc.1, acc.2 ++ [e])) ([new], []))).2

/-- Drives a command needs. -/
def drivesOf (s : State) (k : Nat) (all : Bool) : List Nat := if all then List.range s.nslices else [k]

/-- The end of a firmware activation's window, when one is pending (R458). -/
def windowEnd (s : State) : Option Nat := s.host.activation.map (fun v => v.t + 2000000000)

/-- Every entry of the tests with a new command of deadline d (R472, R473, R475, R476). -/
def entries (s : State) (a : Ask) (d : Nat) : List TestEntry :=
  let late := fun (x : Nat) => match windowEnd s with
    | some w => decide (w < x)
    | none => false
  let old := (inherit s a d).map (fun e =>
    { drives := drivesOf s e.2.drive e.2.allDrives, key := e.2.key, lim := guardOf e.2.d, drain := false
      order := e.2.order
      rem := if e.2.phase = .taken then e.2.cost * 1000 - serviceOf s e.2 else e.2.cost * 1000
      need := e.2.energy * 10000 - e.2.held - e.2.spent, moves := false, late := late e.2.d : TestEntry })
  let new : TestEntry := { drives := drivesOf s a.k a.allDrives, key := d, lim := guardOf d, drain := false
                           order := s.adm.nextOrder, rem := a.c * 1000, need := a.e * 10000, moves := true, late := late d }
  let write := a.op == 1 || a.op == 0x7D
  let fc := s.costAt a.k 8
  let flush := if write && a.fua then
      [{ new with order := s.adm.nextOrder + 1, rem := fc * 1000, need := energyOf s a.k 0 fc * 10000 }] else []
  let drains := (List.range s.nslices).flatMap (fun k =>
    let grows := write && a.k == k
    let w := Tbl.at s.adm.stagedW k + b2n grows
    let h := Tbl.at s.adm.stagedH k + (if grows then ceilDiv a.n 30 + 1 else 0)
    if w = 0 then []
    else
      let pulled := (a.op == 0 && (a.k == k || a.allDrives)) || (grows && a.fua)
      let key0 := drainKey s k
      let moves := pulled && (drainPulls s k).all (fun g => decide (guardOf d < g))
      let key := if moves then guardOf d else key0
      let c := drainCost s k w h
      [{ drives := [k], key := key, lim := key, drain := true, order := 0, rem := c * 1000
         need := c * s.costAt k 308 / 100, moves := moves, late := false : TestEntry }])
  old ++ [new] ++ flush ++ drains

/-- The dispatch-key order of the time test: a drain entry before an entry of equal key (R472). -/
def keyBefore (x y : TestEntry) : Bool :=
  decide (x.key < y.key) || (x.key == y.key && ((x.drain && !y.drain) || (x.drain == y.drain && decide (x.order < y.order))))

/-- The instants by which each entry of drive k is done (R472), beside the entries. -/
def timeLine (s : State) (k : Nat) (es : List TestEntry) : List (TestEntry × Nat) :=
  ((sortBy keyBefore (es.filter (fun e => e.drives.contains k))).foldl
    (fun (acc : Nat × List (TestEntry × Nat)) e =>
      let start := if e.late then max acc.1 ((windowEnd s).getD 0) else acc.1
      (start + e.rem, acc.2 ++ [(e, start + e.rem)])) (s.time, [])).2
/-- The energy each entry and those before it still need, in order of limit (R473). -/
def needLine (es : List TestEntry) : List (TestEntry × Nat) :=
  ((sortBy (fun (x y : TestEntry) => decide (x.lim < y.lim)) es).foldl
    (fun (acc : Nat × List (TestEntry × Nat)) e => (acc.1 + e.need, acc.2 ++ [(e, acc.1 + e.need)])) (0, [])).2

/-- Whether the pools can give `need` µJ by an instant (R473). -/
def poolsGive (s : State) (need by_ : Nat) : Bool :=
  let can := fun (pool : Int) (rate : Nat) =>
    decide ((need : Int) * 100000 ≤ pool * 100000 + (rate : Int) * ((by_ : Int) - (s.time : Int)))
  can s.adm.heat s.rateTest && (!s.keepsSupply || can s.adm.sup s.rateSupply)

/-- The time test on every drive the command needs (R472). -/
def timeTest (s : State) (a : Ask) (d : Nat) : Bool :=
  let es := entries s a d
  (drivesOf s a.k a.allDrives).all (fun k => (timeLine s k es).all (fun e => decide (e.2 ≤ e.1.lim)))
/-- The energy test on the package (R473). -/
def energyTest (s : State) (a : Ask) (d : Nat) : Bool :=
  (needLine (entries s a d)).all (fun e => poolsGive s e.2 e.1.lim)

/-- Rounds a time up to a multiple of 100 µs. -/
def up100 (t : Nat) : Nat := ceilDiv t 100000 * 100000

/-- The instant by which the pools give `need` µJ, if they ever do (R474). -/
def poolsBy (s : State) (need : Nat) : Option Nat :=
  let by_ := fun (pool : Int) (rate : Nat) =>
    let lack := (need : Int) * 100000 - pool * 100000
    if lack ≤ 0 then some s.time
    else if rate = 0 then none
    else some (s.time + ceilDiv lack.toNat rate)
  match by_ s.adm.heat s.rateTest with
  | none => none
  | some h => if s.keepsSupply then (by_ s.adm.sup s.rateSupply).map (fun t => max h t) else some h

/-- Deadlines at which the order of the entries can change, or from which a moving entry is in time in the order that
holds at d: the least deadline that passes is among them (R474). -/
def deadlinesFrom (s : State) (a : Ask) (d : Nat) : List Nat :=
  let es := entries s a d
  let times := (drivesOf s a.k a.allDrives).flatMap (fun k =>
    ((timeLine s k es).filter (fun e => e.1.moves)).map (fun e => up100 (e.2 + 100000)))
  let needs := ((needLine es).filter (fun e => e.1.moves)).filterMap (fun e =>
    (poolsBy s e.2).map (fun t => up100 (t + 100000)))
  d :: times ++ needs

/-- The earliest feasible deadline (R474). -/
def earliest (s : State) (a : Ask) : Option Nat :=
  let marks := (entries s a (up100 s.time)).flatMap (fun e => if e.moves then [] else [e.key, e.lim])
  let marks := marks ++ (match windowEnd s with
    | some w => [w]
    | none => [])
  let starts := (up100 s.time) :: marks.flatMap (fun m => [up100 m, up100 m + 100000, up100 m + 200000])
  let cands := ((starts.filter (fun d => decide (s.time ≤ d))).flatMap (deadlinesFrom s a)).filter (fun d =>
    timeTest s a d && energyTest s a d)
  match cands with
  | [] => none
  | d :: ds => some (ds.foldl min d)

/-- Dword 0 of a refusal: the earliest feasible deadline in ms from now, or all ones (R449, R474). -/
def refusalDword (s : State) (a : Ask) : Nat :=
  match earliest s a with
  | some d => ceilDiv (d - s.time) 1000000 % 2 ^ 32
  | none => 0xFFFF_FFFF

/-- What the decision answers: accepted, or refused at a step with a Dword 0 (R466). -/
inductive Verdict where
  | accept
  | refuse (step dword : Nat)
  deriving DecidableEq, Repr

/-- The order of the decision (R466) for a command of deadline d. -/
def decide6 (s : State) (a : Ask) (d : Nat) : Verdict :=
  let spins := !(a.op == 0x79 || a.op == 0x7A)
  let writes := a.op == 1 || a.op == 0x7D || a.op == 0
  let ks := drivesOf s a.k a.allDrives
  let inWindow := match s.host.activation with
    | some v => decide (v.t < d) && decide (d ≤ v.t + 2000000000)
    | none => false
  if s.modeSet = 3 ∧ spins then .refuse 1 0xFFFF_FFFF
  else if (writes && ks.any (fun k => s.cf k 0x4208 32 32 == 0 || decide (s.ceil k < 3600))) ||
      (spins && ks.any (fun k => decide (s.ceil k < 1200))) then .refuse 2 0xFFFF_FFFF
  else if inWindow then
    .refuse 3 (ceilDiv ((windowEnd s).getD 0 + a.c * 1000 - s.time) 1000000)
  else if 8192 ≤ (s.liveSlots.filter (fun e => e.2.hasRange)).length then .refuse 4 (refusalDword s a)
  else if !timeTest s a d then .refuse 5 (refusalDword s a)
  else if !energyTest s a d then .refuse 6 (refusalDword s a)
  else .accept

/-! Staged data and modes. -/

/-- Counts a staged write of n blocks (R475). -/
def stageWrite (k n : Nat) (s : State) : State :=
  { s with adm := { s.adm with stagedW := Tbl.upd k (Tbl.at s.adm.stagedW k + 1) s.adm.stagedW
                               stagedH := Tbl.upd k (Tbl.at s.adm.stagedH k + (ceilDiv n 30 + 1)) s.adm.stagedH } }

/-- When the commands a lowering mode change waits for have all completed, the row in force becomes the mode set, with
notice 0x03 for each drive (R483, R484). -/
def releaseMode (s : State) : State :=
  match s.adm.modeWait with
  | none => s
  | some n =>
    if s.liveSlots.any (fun e => decide (e.2.order < n)) then s
    else
      let s := { s with adm := { s.adm with modeWait := none } }
      let s := (s.setCf 0 0xC000 9 9 0).setCf 0 0xC000 6 4 s.modeSet
      upTo s.nslices (fun k s => noticeAll 3 s.modeRow k s) s

/-! Zones (R434, R438, R439). -/

/-- Whether the zoned profile is selected (R434). -/
def State.zoned (s : State) : Bool := s.feat 0x19 0 == 1
/-- Blocks of a zone that can be written (R438). -/
def zoneCap (z : Nat) : Nat := if z = 7947 then 8785 else 30720
/-- A zone. -/
def State.zone (s : State) (k z : Nat) : Zone := Tbl.at s.host.zones (8192 * k + z)
/-- Replaces a zone. -/
def State.setZone (s : State) (k z : Nat) (x : Zone) : State :=
  { s with host := { s.host with zones := Tbl.upd (8192 * k + z) x s.host.zones } }
/-- A Flush that leaves a user hoist part full burns it with fills: each open zone's write pointer moves to the next
multiple of 30 blocks (R439; log entry 25). -/
def fillZones (k : Nat) (s : State) : State :=
  if s.zoned then
    (s.host.zones.filter (fun e => e.1 / 8192 == k && decide (e.2.wp % 30 ≠ 0) && e.2.state != .full)).foldl (fun s e =>
      let wp := min (zoneCap (e.1 % 8192)) (ceilDiv e.2.wp 30 * 30)
      s.setZone k (e.1 % 8192) { wp := wp, state := if zoneCap (e.1 % 8192) ≤ wp then .full else e.2.state }) s
  else s

/-! Accepting (R463 to R466). -/

/-- A slot for a new command: the next in rotation that no live command holds (R117, R122, R428). -/
def freeSlot (s : State) : Option Nat :=
  ((List.range 16384).map (fun i => (s.adm.nextSlot + i) % 16384)).find? (fun i => !(s.slot i).live)

/-- Enters an accepted command into its slot and its drive's dispatch queue, and hands its urgency on (R463 to R466). -/
def enterSlot (i : Nat) (x : Slot) (s : State) : State :=
  let old := s.slot i
  let gen := if old.phase = .free then old.gen else old.gen + 1
  let a : Ask := { k := x.drive, allDrives := x.allDrives, op := x.opcode, slba := x.slba, n := x.nblocks,
                   hasRange := x.hasRange, fua := x.fua, c := x.cost, e := x.energy }
  let keys := inherit s a x.d
  let s := keys.foldl (fun s e => s.modSlot e.1 (fun y => { y with key := e.2.key })) s
  let s := s.setSlot i { x with gen := gen, phase := .queued, key := x.d, order := s.adm.nextOrder }
  let used := (s.liveSlots.filter (fun e => e.2.hasRange)).length
  { s with adm := { s.adm with nextSlot := (i + 1) % 16384, nextOrder := s.adm.nextOrder + 1,
                               trackHigh := max s.adm.trackHigh used } }

end Sys2Proof.Machine
end

