-- ==== Sys2Proof/Machine/Commands.lean ====
section
/-! DEFINITION. Commands and budget: QTAKE, QDONE, QDEFER, GRANT and GRETURN (R117 to R124), the deadline guard (R464),
jobs, cost tables, drains (R467, R475 to R478), and the pools (R480 to R484). -/

namespace Sys2Proof.Machine

/-- The bytes of an operand area as they stand; none of them where the area lies nowhere. -/
def peek (s : State) (c a n : Nat) : List Byte :=
  match placeOf s c a n false with
  | some k => s.bytes k n
  | none => []

/-- What a tag names: a slot whose command is live, or the status its operations return (R117, R122). -/
def tagSlot (s : State) (tag : Nat) : Nat ⊕ Nat :=
  if tag ≠ noTag ∧ 2 ^ 22 ≤ tag then .inr 0x01
  else
    match s.slotOfTag tag with
    | none => .inr 0x11
    | some i =>
      if (s.slot i).live then .inl i
      else
        match (s.slot i).ended with
        | .firmware => .inr 0x11
        | .guard => .inr 0x12
        | .aborted => .inr 0x14

/-! QTAKE (R118, R119). -/

/-- The eligible command of drive k with the earliest dispatch key, ties to the earlier accepted (R118, R465). -/
def nextCommand (s : State) (k : Nat) : Option (Nat × Slot) :=
  (sortBy (fun (x y : Nat × Slot) => decide (x.2.key < y.2.key) ||
    (x.2.key == y.2.key && decide (x.2.order < y.2.order))) (eligibleOn s k)).head?

/-- Tag of the latest earlier-accepted overlapping command that is not complete (R119). -/
def predTag (s : State) (x : Slot) : Nat :=
  match (sortBy (fun (a b : Nat × Slot) => decide (a.2.order < b.2.order))
      (s.liveSlots.filter (fun e => decide (e.2.order < x.order) && overlaps e.2 x))).getLast? with
  | some e => s.tagOf e.1
  | none => noTag

/-- The QTAKE record of a slot (R119, R477). -/
def takeRecord128 (s : State) (i : Nat) : List Byte :=
  let x := s.slot i
  let flags := if x.job then 0
    else b2n x.ordered + 2 * b2n (x.opcode == 1 || x.opcode == 0x7D) + 4 * b2n (x.opcode == 0)
  padTo 64 x.sqe ++ leBytes 4 (s.tagOf i) ++ leBytes 2 (if x.job then 0xFFFF else x.sqid) ++
  leBytes 1 (if x.job then 0 else x.cls) ++ leBytes 1 flags ++ leBytes 8 x.d ++ leBytes 8 x.accepted ++
  leBytes 4 x.cost ++ leBytes 2 (min x.energy 65535) ++ leBytes 2 0 ++
  leBytes 4 (if x.job then noTag else predTag s x) ++ leBytes 4 (if x.job then 0 else x.nblocks) ++
  leBytes 8 (if x.job then 0 else x.slba) ++ leBytes 16 0

/-- QTAKE: delivers the next eligible command of the core's drive (R119). -/
def execQtake (c : Nat) (rd ra rb : BitVec 5) (xmod : BitVec 6) (s : State) : Res :=
  .next (deviceOp c rd ra rb 0x04 xmod.toNat (fun _ a _ => [⟨a, 128, false, true⟩]) (fun s a b =>
    if a % 128 ≠ 0 ∨ b ≠ 0 then .fail 0x01 0 s
    else
      match placeOf s c a 128 true with
      | none => .fail 0x01 0 s
      | some key =>
        match nextCommand s (c / 8) with
        | none => .fail 0x10 0 s
        | some e =>
          let rec' := takeRecord128 s e.1
          let s := s.modSlot e.1 (fun x => { x with phase := .taken, takenBy := some c, takenAt := s.time })
          .ok (s.tagOf e.1) (writeOperand c key rec' s)) s)

/-! QDONE (R120 to R122). -/

/-- An entry of a transfer list, if its eight bytes keep the rules of R120 and R138. -/
def xferEntry (s : State) (k : Nat) (bs : List Byte) : Option XferEntry :=
  let h := leAt bs 0 4
  let first := leAt bs 4 1
  let count := leAt bs 5 1
  if handleOk s h ∧ handleDie h = k ∧ first ≤ 29 ∧ 1 ≤ count ∧ first + count ≤ 30 ∧ leAt bs 6 2 = 0 then
    some ⟨h, first, count⟩
  else none

/-- The transfer-list area of a completion block. A block whose count is over 64 leaves its list unchecked against the regions, and
is refused afterwards (R80, R120; log entry 123). -/
def doneList (bs : List Byte) : List Span :=
  let n := leAt bs 24 2
  if 1 ≤ n ∧ n ≤ 64 then [⟨leAt bs 16 8, 8 * n, true, false⟩] else []

/-- The memory operands of a QDONE: its block, and its list when the count asks for one (R120). -/
def doneSpans (c : Nat) (s : State) (a _ : Nat) : List Span :=
  ⟨a, 32, true, true⟩ :: doneList (peek s c a 32)

/-- What remains of QDONE once its block has been read (R120 to R122, R138). A command that is not started, or that a POST in
progress names when another POST comes, answers 0x01 (log entry 125). -/
def doneBody (c : Nat) (post : Bool) (key : Nat) (bs : List Byte) (s : State) : Ans :=
  let status := leAt bs 6 2
  let n := leAt bs 24 2
  let laddr := leAt bs 16 8
  if 64 < n ∨ laddr % 8 ≠ 0 ∨ leAt bs 26 2 ≠ 0 ∨ status % 2 = 1 ∨
      (post ∧ bitsOf status 11 9 = 7 ∧ bitsOf status 8 1 = 0x81) then .fail 0x01 0 s
  else
    let r : Option (List Byte) × State :=
      if n = 0 then (some [], s)
      else
        match placeOf s c laddr (8 * n) false with
        | none => (none, s)
        | some lk => readOperand c lk (8 * n) s
    match r.1 with
    | none => .fail 0x01 0 r.2
    | some lb =>
      let s := r.2
      let es := (List.range n).map (fun i => xferEntry s (c / 8) ((lb.drop (8 * i)).take 8))
      if !es.all Option.isSome then .fail 0x01 0 s
      else
        match tagSlot s (leAt bs 0 4) with
        | .inr st => .fail st 0 s
        | .inl i =>
          let x := s.slot i
          if x.phase ≠ .taken ∨ (post ∧ x.posting) ∨ (x.job ∧ (!post ∨ n ≠ 0)) then .fail 0x01 0 s
          else
            let s := s.modSlot i (fun x => { x with posting := x.posting || post })
            .ok 0 { s with adm := { s.adm with xfers := s.adm.xfers ++
              [{ tag := s.tagOf i, ctag := leAt bs 4 2, core := c, area := key, post := post, status := status
                 dw0 := leAt bs 8 4, dw1 := leAt bs 12 4, list := es.filterMap id }] } }

/-- QDONE of either form (R120). -/
def qdone (c : Nat) (rd ra rb : BitVec 5) (xmod : Nat) (s : State) : State :=
  deviceOp c rd ra rb 0x05 xmod (doneSpans c) (fun s a b =>
    if a % 32 ≠ 0 ∨ b ≠ 0 then .fail 0x01 0 s
    else
      match placeOf s c a 32 true with
      | none => .fail 0x01 0 s
      | some key =>
        let r := readOperand c key 28 s
        match r.1 with
        | none => .fail 0x01 0 r.2
        | some bs => doneBody c (bitSet xmod 0) key bs r.2) s
def execQdoneData (c : Nat) (rd ra rb : BitVec 5) (xhi : BitVec 5) (s : State) : Res :=
  .next (qdone c rd ra rb (2 * xhi.toNat) s)
def execQdonePost (c : Nat) (rd ra rb : BitVec 5) (xhi : BitVec 5) (s : State) : Res :=
  .next (qdone c rd ra rb (2 * xhi.toNat + 1) s)

/-- First bytes of the blocks a transfer lists, in order (R120). -/
def Xfer.blocks (x : Xfer) : List Nat :=
  x.list.flatMap (fun e => (List.range e.count).map (fun i => handleAddr e.handle + 4096 * (e.first + i)))

/-- Whether a command takes data from the host, or sends data to it (R436, R440). -/
def takesData (op : Nat) : Bool := op == 1 || op == 0x7D
def sendsData (op : Nat) : Bool := op == 2 || op == 0x80 || op == 0x7A

/-- The host's data goes into the first m listed blocks (R430). -/
def fromHost (blocks : List Nat) (data : List Byte) (s : State) : State :=
  ((List.range blocks.length).zip blocks).foldl
    (fun s e => dmaWrite e.2 (padTo 4096 ((data.drop (4096 * e.1)).take 4096)) s) s

/-- SMART counts of the host port (R447): blocks read and written, and completed read and write commands. -/
def smartAdd (key n : Nat) (s : State) : State :=
  { s with host := { s.host with smart := Tbl.upd key (Tbl.at s.host.smart key + n) s.host.smart } }

/-- A command completed by firmware (R475, R478, R487): staged writes, counters, an overrun of kind 1, its
completion. -/
def completeByFirmware (i core sct sc more dw0 dw1 : Nat) (s : State) : State :=
  let x := s.slot i
  let late := decide (x.cost * 1000 < serviceOf s x)
  let r1 := slotOverrun s i 1
  let s := if takesData x.opcode && !x.job && decide (sct = 0) && decide (sc = 0) then stageWrite x.drive x.nblocks s
    else s
  let s := if x.opcode = 0 ∧ !x.job ∧ sct = 0 ∧ sc = 0 then (drivesOf s x.drive x.allDrives).foldl (fun s k => fillZones k s) s
    else s
  let s := if x.job then s
    else s.modStat x.cls (fun t => { t with byFirmware := t.byFirmware + 1
                                            overruns := t.overruns + b2n late })
  let s := if x.job then s else smartAdd (if takesData x.opcode then 3 else 2) 1 s
  let s := if late then recordOverrun core r1 s else s
  releaseMode (endCommand i .firmware sct sc more dw0 dw1 s)

/-- Adds staged hoists of a drive (R475). -/
def addHoists (k n : Nat) (s : State) : State :=
  { s with adm := { s.adm with stagedH := Tbl.upd k (Tbl.at s.adm.stagedH k + n) s.adm.stagedH } }

/-- The end of transfer n of those in progress (R120 to R122, R430): the blocks moved, the result, and the completion
of a POST. The host transfer fails when `err`; `moved` blocks had moved when it failed or was stopped; `data` is what
the host supplies. -/
def qdoneEnd (n : Nat) (err : Bool) (moved : Nat) (data : List Byte) (s : State) : State :=
  match s.adm.xfers[n]? with
  | none => s
  | some x =>
    let i := x.tag % 2 ^ 14
    let y := s.slot i
    let same := s.tagOf i == x.tag
    let blocks := x.blocks
    let stopped := x.stop.isSome
    let m := if stopped || err then min moved blocks.length else blocks.length
    let s := if sendsData y.opcode then (blocks.take m).foldl (fun s a => settle none a 4096 s) s else s
    let bad := if sendsData y.opcode then (blocks.take m).findIdx? (fun a => s.hasBad a 4096) else none
    let s := match bad with
      | some j => logUncorrectable 0x20 (blocks.getD j 0) (countBad (blocks.getD j 0) 4096 s)
      | none => s
    let m := bad.getD m
    let err := err || bad.isSome
    let s := if sendsData y.opcode then (blocks.take m).foldl (fun s a => healRead none a 4096 s) s else s
    let s := if takesData y.opcode && same then fromHost (blocks.take m) data s
      else if sendsData y.opcode && same && decide (0 < m) then
        { s with host := { s.host with sent := s.host.sent ++
          [{ sqid := y.sqid, cid := y.cid, data := (blocks.take m).flatMap (fun a => s.bytes a 4096) }] } }
      else s
    let s := smartAdd (b2n (takesData y.opcode)) m s
    let result := match x.stop with
      | some .guard => 2
      | some _ => 3
      | none => if err then 4 else 1
    let s := writeOperand 0x20 (x.area + 28) (leBytes 2 result) s
    let s := { s with adm := { s.adm with xfers := s.adm.xfers.eraseIdx n } }
    let grown := takesData y.opcode && same && decide (0 < m)
    let s := if grown then s.modSlot i (fun y => { y with staged := y.staged + m }) else s
    let s := if grown && x.stop.isSome then
        (if y.staged = 0 then stageWrite y.drive m s
         else addHoists y.drive (ceilDiv (y.staged + m) 30 - ceilDiv y.staged 30) s)
      else s
    let s := if x.post && !stopped && same && y.live then
        (if err then completeByFirmware i x.core 0 0x04 0 x.dw0 x.dw1 s
         else completeByFirmware i x.core (bitsOf x.status 11 9) (bitsOf x.status 8 1) (bitsOf x.status 15 12) x.dw0
           x.dw1 s)
      else s
    pushTag x.core x.ctag s
def execQdoneEnd (n : Nat) (err : Bool) (moved : Nat) (data : List Byte) (s : State) : Res :=
  .next (qdoneEnd n err moved data s)

/-! QDEFER (R123). -/

/-- QDEFER: a started command returns to its dispatch queue (R123). A command that is not started, or that a POST in progress names,
answers 0x01 (log entry 125). -/
def execQdefer (c : Nat) (rd ra rb : BitVec 5) (xmod : BitVec 6) (s : State) : Res :=
  .next (plainOp c rd ra rb 0x06 xmod.toNat (fun s a b =>
    match tagSlot s a with
    | .inr st => .fail st 0 s
    | .inl i =>
      let x := s.slot i
      if x.phase ≠ .taken ∨ x.posting then .fail 0x01 0 s
      else if x.d ≤ b then .fail 0x13 0 s
      else .ok 0 (s.modSlot i (fun x =>
        { x with phase := .queued, notBefore := b, service := serviceOf s x }))) s)

/-- A deferred command's not-before time arrives: it can be taken again (R123). -/
def execDeferTimeReached (slot : Nat) (s : State) : Res :=
  .next (let x := s.slot slot
    if x.phase = .queued ∧ x.notBefore ≤ s.time then s.modSlot slot (fun x => { x with notBefore := 0 }) else s)

/-! GRANT and GRETURN (R124, R481). -/

/-- The key of a GRANT: the guard instant of its tag, or the request time and the account offset (R481). -/
def grantKey (s : State) (tag : Nat) : Nat :=
  match s.slotOfTag tag with
  | some i => guardOf (s.slot i).d
  | none => s.time + s.cf 0 0xA000 15 0 * 1000000

/-- The status of a GRANT's operands: 0 when count and tag are in order; a tag whose command has ended in whatever way answers
0x11, as R106 lists 0x12 and 0x14 for QDONE and QDEFER only (R122; log entry 121). -/
def grantCheck (s : State) (a b : Nat) : Nat :=
  if a < 1 ∨ 4096 < a then 0x01
  else if b = noTag then 0
  else match tagSlot s b with
    | .inl _ => 0
    | .inr 0x01 => 0x01
    | .inr _ => 0x11

/-- GRANT, immediate: the whole count now, or 0x18 (R124, R481). -/
def execGrantImmediate (c : Nat) (rd ra rb : BitVec 5) (xhi : BitVec 5) (s : State) : Res :=
  .next (plainOp c rd ra rb 0x07 (2 * xhi.toNat) (fun s a b =>
    let st := grantCheck s a b
    if st ≠ 0 then .fail st 0 s
    else if grantOk a (grantKey s b) s.adm.tickets s then .ok a (reconsider (grantTo c b a s))
    else .fail 0x18 0 (reconsider s)) s)

/-- A ticket number that no open ticket has. -/
def freeTicket (s : State) : Nat :=
  ((List.range 257).map (fun i => (s.adm.nextTicket + i) % 65536)).find?
    (fun t => !s.adm.tickets.any (fun u => u.id == t)) |>.getD 0

/-- GRANT, queued: the request enters the arbiter's order (R124, R481). -/
def execGrantQueued (c : Nat) (rd ra rb : BitVec 5) (xhi : BitVec 5) (s : State) : Res :=
  .next (plainOp c rd ra rb 0x07 (2 * xhi.toNat + 1) (fun s a b =>
    let st := grantCheck s a b
    if st ≠ 0 then .fail st 0 s
    else if s.capHeat < (a * 10000 : Nat) ∨ (s.keepsSupply ∧ s.capSupply < (a * 10000 : Nat)) then .fail 0x18 0 s
    else if 64 ≤ (s.adm.tickets.filter (fun t => t.core / 8 == c / 8)).length then .fail 0x1A 0 s
    else
      let id := freeTicket s
      let t : Ticket := { id := id, core := c, tag := b, count := a, key := grantKey s b }
      .ok id (reconsider { s with adm := { s.adm with tickets := s.adm.tickets ++ [t]
                                                      nextTicket := (id + 1) % 65536 } })) s)

/-- GRETURN: pennants a tag holds go back to the pools (R124, R481). -/
def execGreturn (c : Nat) (rd ra rb : BitVec 5) (xmod : BitVec 6) (s : State) : Res :=
  .next (plainOp c rd ra rb 0x08 xmod.toNat (fun s a b =>
    if a < 1 ∨ 4096 < a ∨ (b ≠ noTag ∧ 2 ^ 22 ≤ b) then .fail 0x01 0 s
    else if b ≠ noTag ∧ (s.slotOfTag b).isNone then .fail 0x11 0 s
    else
      let held := s.heldBy c b
      if held < a * 10000 then .fail 0x19 0 s
      else .ok ((held - a * 10000) / 10000) (giveBack (a * 10000 : Nat) (setHeld c b (held - a * 10000) s))) s)

/-! The deadline guard and overruns (R464, R478). -/

/-- CHOPs of a tag after the guard (R137): queued ones end unstarted, a running READ after its present hoist. -/
def guardChops (tag : Nat) (s : State) : State :=
  upTo s.nslices (fun k s => s.setQueue k ((s.channel k).queue.map (fun o =>
    if o.tag = tag ∧ o.stopWith = 0 ∧ (¬ o.started ∨ o.op = 1) then { o with stopWith := 3 } else o))) s

/-- At its guard instant the command or job of a slot, not yet completed, is ended: Deadline Reached for a command
(R122, R137, R464, R475, R478). Commands of one instant end in acceptance order. -/
def execGuardInstant (slot : Nat) (s : State) : Res :=
  .next (let x := s.slot slot
    if !x.live || decide (s.time < guardOf x.d) ||
        s.liveSlots.any (fun e => guardOf e.2.d == guardOf x.d && decide (e.2.order < x.order)) then s
    else
      let r := slotOverrun s slot 2
      let s := guardChops (s.tagOf slot) s
      let s := if takesData x.opcode && !x.job && decide (0 < x.staged) then stageWrite x.drive x.staged s else s
      let s := if x.job then s else s.modStat x.cls (fun t => { t with byGuard := t.byGuard + 1 })
      releaseMode (endCommand slot .guard 7 0x81 0 0 0 (recordOverrun (overrunCore x) r s)))

/-- A drain entry's key passes with staged writes left: an overrun of kind 4, once for each key (R478). -/
def execDrainKeyPasses (k : Nat) (s : State) : Res :=
  .next (let w := Tbl.at s.adm.stagedW k
    let key := drainKey s k
    if k < s.nslices ∧ 0 < w ∧ drainPulls s k ≠ [] ∧ key ≤ s.time ∧ Tbl.at s.adm.drainSeen k ≠ key then
      recordOverrun (8 * k)
        { time := s.time, tag := noTag, kind := 4, cls := 0xFF, drive := k, cost := drainCost s k w (Tbl.at s.adm.stagedH k)
          service := 0, energy := 0, spent := 0 }
        { s with adm := { s.adm with drainSeen := Tbl.upd k key s.adm.drainSeen } }
    else s)

/-- A write to adm.drn[k]: staged writes and hoists that became durable (R475). -/
def drainSubtract (k w h : Nat) (s : State) : State :=
  if k < s.nslices then
    { s with adm := { s.adm with stagedW := Tbl.upd k (Tbl.at s.adm.stagedW k - w) s.adm.stagedW
                                 stagedH := Tbl.upd k (Tbl.at s.adm.stagedH k - h) s.adm.stagedH } }
  else s
def execDrainSubtract (k : Nat) (writes : BitVec 16) (hoists : BitVec 32) (s : State) : Res :=
  .next (drainSubtract k writes.toNat hoists.toNat s)

/-- A write to adm.ctc: the shadow tables named go into force (R467). -/
def costCommit (mask : Nat) (s : State) : State :=
  upTo s.nslices (fun k s =>
    if bitSet mask k then
      upTo 128 (fun i s => { s with adm := { s.adm with
        ctab := Tbl.set (fun a => BitVec.ofNat 64 (ctRef (a % 128))) (128 * k + i)
          (s.reg (cAddr 0 (0xB000 + 0x400 * k + 8 * i))) s.adm.ctab } }) s
    else s) s
def execCostTableCommit (mask : BitVec 4) (s : State) : Res := .next (costCommit mask.toNat s)

/-! Jobs (R477). -/

/-- Reports a job request's outcome: jstat and start. -/
def jobAnswer (c outcome tag : Nat) (start : Word) (s : State) : State :=
  let off := 0xA100 + 0x40 * c
  let s := ((s.setCf 0 (off + 0x28) 3 0 outcome).setCf 0 (off + 0x28) 63 32 tag).setReg (cAddr 0 (off + 0x30)) start
  { s with adm := { s.adm with
      jobsAccepted := s.adm.jobsAccepted + b2n (outcome == 1), jobsRefused := s.adm.jobsRefused + b2n (outcome != 1) } }

/-- Core c writes 1 to go of its own adm.job (R477): the job is tested by time and energy, and enters its drive's
dispatch queue when it passes. -/
def jobRequest (c : Nat) (s : State) : State :=
  let off := 0xA100 + 0x40 * c
  let code := s.reg (cAddr 0 off)
  let cost := s.cf 0 (off + 8) 63 32
  let energy := s.cf 0 (off + 8) 31 16
  let k := s.cf 0 (off + 8) 1 0
  let deadline := (s.reg (cAddr 0 (off + 0x10))).toNat
  let nb := (s.reg (cAddr 0 (off + 0x18))).toNat
  let d := deadline / 100000 * 100000
  let a : Ask := { k := k, allDrives := false, op := 0x100, slba := 0, n := 0, hasRange := false, fua := false, c := cost,
                   e := energy }
  let ones : Word := BitVec.ofNat 64 (2 ^ 64 - 1)
  if !s.hasCore c then s
  else if s.nslices ≤ k ∨ s.cf 0 (off + 8) 15 2 ≠ 0 ∨ deadline < s.time + cost * 1000 then jobAnswer c 5 0 ones s
  else
    match freeSlot s with
    | none => jobAnswer c 4 0 ones s
    | some i =>
      if !timeTest s a d then jobAnswer c 2 0 ones s
      else if !energyTest s a d then jobAnswer c 3 0 ones s
      else
        let before := ((timeLine s k (entries s a d)).filter (fun e => e.1.moves)).map (fun e => e.2 - e.1.rem)
        let start := max nb (before.headD s.time)
        let s := enterSlot i { job := true, sqe := padTo 64 (leBytes 8 code.toNat), sqid := 0xFFFF, drive := k, d := d,
                               accepted := s.time, notBefore := nb, cost := cost, energy := energy } s
        jobAnswer c 1 (s.tagOf i) (BitVec.ofNat 64 start) s
def execJobRequest (c : Nat) (own : Bool) (s : State) : Res :=
  .next (regAccess c .store own false 0 (0xA100 + 0x40 * c + 0x20) false (jobRequest c) s)

/-! The pools (R480 to R483). -/

/-- The domain energies of die d over the last 100 µs, in µJ (R494, R495). -/
def lastEnergy (s : State) (d : Nat) : List Nat := (Tbl.at s.therm d).energy.getLastD []
/-- A slice's measured energy over the last 100 µs: every domain of its C-die and its F-die (R482, R496). -/
def sliceEnergy (s : State) (k : Nat) : Nat := (lastEnergy s k).sum + (lastEnergy s (4 + k)).sum
/-- Whether slice k's drive has no loaded disc, which is mstate 0 or 1 (R131, R431), and its tags and cores hold no pennants
(R496). -/
def idleSlice (s : State) (k : Nat) : Bool :=
  decide ((s.map k).mstate < 2) && s.liveSlots.all (fun e => e.2.drive != k || e.2.held == 0) &&
  (List.range 8).all (fun c => Tbl.at s.adm.accounts (8 * k + c) == 0)
/-- The share of the fixed draw attributed to slice k: all of an idle slice; the lead's domains 6 and 7 of slice 0 (R37,
R482, R496). -/
def fixedShare (s : State) (k : Nat) : Nat :=
  if idleSlice s k then sliceEnergy s k
  else if k = 0 then (lastEnergy s 0).getD 6 0 + (lastEnergy s 0).getD 7 0 else 0
/-- The fixed draw of the last 100 µs, in µJ, which is as many pennants per second (R37, R496). -/
def fixedNow (s : State) : Nat := ((List.range s.nslices).map (fixedShare s)).sum

/-- Every 100 µs the pools refill at their rates, and waiting requests are reconsidered; the fixed draw joins its mean of
100 ms (R37, R480, R481, R496). -/
def execPoolRefill (s : State) : Res :=
  .next (let hist := s.adm.fixedHist ++ [fixedNow s]
    let s := { s with adm := { s.adm with fixedHist := hist.drop (hist.length - 1000) } }
    let heat := min (s.adm.heat + (s.rateHeat : Int)) s.capHeat
    let sup := if s.keepsSupply then min (s.adm.sup + (s.rateSupply : Int)) s.capSupply else s.adm.sup
    releaseMode (reconsider { s with adm := { s.adm with heat := heat, sup := sup } }))

/-- Charges energy against a list of holders in order; what is left after all. -/
def chargeTags (slots : List Nat) (uj : Nat) (s : State) : Nat × State :=
  slots.foldl (fun (acc : Nat × State) i =>
    let x := acc.2.slot i
    let n := min x.held acc.1
    (acc.1 - n, acc.2.modSlot i (fun x => { x with held := x.held - n, spent := x.spent + n }))) (uj, s)
/-- Charges energy against core accounts in core order. -/
def chargeAccounts (cores : List Nat) (uj : Nat) (s : State) : Nat × State :=
  cores.foldl (fun (acc : Nat × State) c =>
    let held := Tbl.at acc.2.adm.accounts c
    let n := min held acc.1
    (acc.1 - n, { acc.2 with adm := { acc.2.adm with accounts := Tbl.upd c (held - n) acc.2.adm.accounts } })) (uj, s)

/-- A slice's measured energy, its share of the fixed draw deducted, is charged to the slice's tags in order of G, to its
cores' accounts, and then to the pools as unheld energy (R482). -/
def chargeSlice (k uj : Nat) (s : State) : State :=
  let slots := (sortBy (fun (a b : Nat × Slot) => decide (guardOf a.2.d < guardOf b.2.d))
    (s.liveSlots.filter (fun e => e.2.drive == k))).map Prod.fst
  let r1 := chargeTags slots uj s
  let r2 := chargeAccounts ((List.range 8).map (· + 8 * k)) r1.1 r1.2
  let s := poolTake (r2.1 : Int) r2.2
  { s with adm := { s.adm with unheld := Tbl.upd k (Tbl.at s.adm.unheld k + r2.1) s.adm.unheld } }

/-- Every 100 µs slice k's measured energy, less its share of the fixed draw, is charged, and pm.slice shows both (R482,
R516). -/
def execEnergyCharge (k : Nat) (s : State) : Res :=
  .next (if k < s.nslices then
      let measured := sliceEnergy s k
      let charged := measured - fixedShare s k
      ((chargeSlice k charged s).setCf 0 (0xD180 + 8 * k) 31 16 (min 65535 charged)).setCf 0 (0xD180 + 8 * k) 15 0
        (min 65535 measured)
    else s)

/-- The value a read of ab.ntc gives: the oldest notice (R483, R486). -/
def noticeWord (k : Core) : Word :=
  match k.ntc with
  | [] => 0
  | n :: _ => BitVec.ofNat 64 (2 ^ 63 + b2n k.ntcLost * 2 ^ 62 + n.ident % 2 ^ 24 * 2 ^ 32 + n.value % 2 ^ 16 * 2 ^ 16 +
      n.code % 2 ^ 8)
/-- A read of ab.ntc takes the oldest notice off; it shows and clears the lost mark (R483). -/
def Core.popNotice (k : Core) : Core :=
  match k.ntc with
  | [] => k
  | _ :: rest => { k with ntc := rest, ntcLost := false }
/-- Core c reads its ab.ntc into rd (R483). -/
def execNoticePop (c : Nat) (own : Bool) (rd : BitVec 5) (s : State) : Res :=
  .next (regAccess c .load own false (c / 8) (0xC800 + 8 * (c % 8)) false
    (fun s => s.setCore c (((s.core c).popNotice).setR rd (noticeWord (s.core c)))) s)

end Sys2Proof.Machine
end

