-- ==== Sys2Proof/Machine/FrontEnd.lean ====
section
/-! DEFINITION. What the F-die's inputs and outputs carry (R170 to R180, R188, R194, R206, R228, R229, R242, R259, R299, R343 to
R345): the inputs and their trims, the converters, what SAMPLE latches, the currents of the lasers, the bridges and the gates, and
the states of its outputs. -/

namespace Sys2Proof.Machine

/-! Inputs. -/

/-- The auxiliary inputs, channels 60 to 75 in their order (R171). -/
inductive Aux where
  | currentU | currentV | shockRadial | shockFocus | vin | vana33 | diode | ground0
  | terminalU | terminalV | terminalW | neutral | bandgap | vana | vio18 | ground1
  deriving DecidableEq, Repr
/-- The auxiliary inputs in channel order (R171). -/
def auxiliaries : List Aux :=
  [.currentU, .currentV, .shockRadial, .shockFocus, .vin, .vana33, .diode, .ground0,
   .terminalU, .terminalV, .terminalW, .neutral, .bandgap, .vana, .vio18, .ground1]
/-- A trimmed analogue input: a beam of a head, a quadrant or side spot A to F as 0 to 5, a laser monitor, an auxiliary (R171). -/
inductive Input where
  | data (head beam : Nat)
  | servo (head spot : Nat)
  | monitor (head beam : Nat)
  | auxiliary (a : Aux)
  deriving DecidableEq, Repr
/-- The input of channel number ch of the trim registers, 0 to 75 (R171). -/
def inputOf (ch : Nat) : Input :=
  if ch < 24 then .data (ch / 12) (ch % 12) else if ch < 36 then .servo ((ch - 24) / 6) ((ch - 24) % 6)
  else if ch < 60 then .monitor ((ch - 36) / 12) ((ch - 36) % 12)
  else .auxiliary (auxiliaries.getD (ch - 60) .ground1)
/-- Bits of the converter behind an input, and whether its code is two's complement (R170). -/
def Input.converter : Input → Nat × Bool
  | .data _ _ => (8, true)
  | .servo _ _ => (12, true)
  | .monitor _ _ => (12, false)
  | .auxiliary _ => (12, false)
/-- What the board or the die divides an auxiliary by (R171, R180). -/
def Aux.divider : Aux → Nat
  | .vin => 12 | .vana33 => 3 | .vana => 2 | .vio18 => 2
  | .terminalU => 12 | .terminalV => 12 | .terminalW => 12 | .neutral => 12
  | _ => 1
/-- Full-scale span of the converter behind an input at pga = 1: µV, or nA of a laser monitor's photocurrent (R172). -/
def Input.span : Input → Nat
  | .data _ _ => 400000
  | .servo _ _ => 2000000
  | .monitor _ _ => 400000
  | .auxiliary _ => 1500000
/-- Range of the current-sense amplifiers across the shunt, in mV either way (R179, R180). -/
def senseRange (s : State) (k : Nat) : Rat := 1500 / ((5 * 2 ^ s.ff k 0x2010 17 16 : Nat) : Rat)
/-- An input in units of its converter's span, before the gain stage, from µV or nA at the pin: an auxiliary after its divider; a
current-sense amplifier gives its range about the middle of the span, and so does a shock input for its ±1 V (R172, R180, R185;
log entry 129). -/
def inputLevel (s : State) (k ch : Nat) (v : Int) : Rat :=
  match inputOf ch with
  | .auxiliary a =>
    if a = .currentU ∨ a = .currentV then 1 / 2 + (v : Rat) / (2000 * senseRange s k)
    else if a = .shockRadial ∨ a = .shockFocus then 1 / 2 + (v : Rat) / 2000000
    else (v : Rat) / (a.divider * 1500000 : Nat)
  | i => (v : Rat) / (i.span : Rat)
/-- What input ch of slice k presents to its converter, in units of the converter's full-scale span, when `v` arrives in those
units: gain stage, then offset, by the trims in force (R172, R183). -/
def conditioned (s : State) (k ch : Nat) (v : Rat) : Rat :=
  let pga : Nat := if ch < 36 then 2 ^ s.trim k (0x1400 + 8 * ch) 11 10 else 1
  v * (pga : Rat) * ((1536 + s.trim k (0x1400 + 8 * ch) 9 0 : Nat) : Rat) / 2048 +
    (fromField 10 (s.trim k (0x1000 + 8 * ch) 9 0) : Rat) / 4096
/-- A converter's code for a level in units of its span: the nearest, clipped to the codes there are (R170, R172; log entry
129). -/
def adc (bits : Nat) (signed : Bool) (x : Rat) : Int :=
  let c := (x * (2 ^ bits : Nat) + 1 / 2).floor
  if signed then max (-(2 ^ (bits - 1) : Nat)) (min ((2 ^ (bits - 1) : Nat) - 1) c) else max 0 (min ((2 ^ bits : Nat) - 1) c)
/-- The code to which input ch converts µV or nA at its pin (R170 to R172). -/
def convert (s : State) (k ch : Nat) (v : Int) : Int :=
  let c := (inputOf ch).converter
  adc c.1 c.2 (conditioned s k ch (inputLevel s k ch v))
/-- The trim channel that slot j of a monitor ADC's scan frame converts: 12 monitors, then 8 auxiliaries (R174). -/
def scanChannel (adc j : Nat) : Nat := if j < 12 then 36 + 12 * adc + j else 60 + 8 * adc + (j - 12)
/-- The trim channel behind a SAMPLE channel (R171, R201). -/
def trimChannel (ch : Nat) : Option Nat :=
  if ch ≤ 0x0B then some (24 + ch)
  else if 0x10 ≤ ch ∧ ch ≤ 0x27 then some (36 + (ch - 0x10))
  else if ch = 0x30 ∨ ch = 0x32 then some 60
  else if ch = 0x31 ∨ ch = 0x33 then some 61
  else if 0x34 ≤ ch ∧ ch ≤ 0x37 then some (68 + (ch - 0x34))
  else if ch = 0x38 then some 64
  else if ch = 0x39 then some 62
  else if ch = 0x3A then some 63
  else none

/-- The servo inputs of a head, in converter codes (R171). -/
structure Quadrants where
  a : Int
  b : Int
  c : Int
  d : Int
  e : Int
  f : Int
  deriving DecidableEq, Repr
/-- Focus error (R229). -/
def Quadrants.fm (q : Quadrants) : Rat := ((q.a + q.c - (q.b + q.d) : Int) : Rat) / 4
/-- Tracking error (R229). -/
def Quadrants.tm (q : Quadrants) : Rat := ((q.e - q.f : Int) : Rat) / 2
/-- Reflected light (R229). -/
def Quadrants.sm (q : Quadrants) : Rat := ((q.a + q.b + q.c + q.d : Int) : Rat) / 4
/-- Normalised push-pull (R229). -/
def Quadrants.pm (q : Quadrants) : Rat := ((q.a + q.d - (q.b + q.c) : Int) : Rat) / (4 * q.sm)

/-- Frame positions of a revolution at a band; the lead-in wobbles as band 0 (R150, R152). -/
def positionsOf (band : Nat) : Nat := if band = 0x3FFF then 133 else framesPerRev band
/-- Disc angle at symbol `sym` of position p of a band (R299). -/
def discAngle (band p sym : Nat) : Word32 :=
  BitVec.ofNat 32 (2 ^ 31 * (p * 20640 + sym) / (positionsOf band * 20640))
/-- What a SAMPLE of channel ch gives of what arrives at its input, µV or nA one value a conversion, oldest first (R173, R174,
R201): of a servo input the mean of its conversions, and of a spindle current theirs, with ±1 as full scale in Q1.31; of a
laser monitor their mean, and of an auxiliary the latest, as codes; of what the F-die or the media channel reports as a number, that
number. -/
def sampled (s : State) (k ch : Nat) (vs : List Int) : Word32 :=
  match trimChannel ch with
  | none => BitVec.ofInt 32 (vs.getLastD 0)
  | some t =>
    let cs := vs.map (convert s k t)
    let n : Int := max 1 vs.length
    let mid : Int := if ch = 0x39 ∨ ch = 0x3A ∨ (0x30 ≤ ch ∧ ch ≤ 0x33) then 2048 else 0
    if ch ≤ 0x0B ∨ (0x30 ≤ ch ∧ ch ≤ 0x33) then BitVec.ofInt 32 ((cs.map (fun c => c - mid)).sum * 2 ^ 20 / n)
    else if ch ≤ 0x27 then BitVec.ofInt 32 (cs.sum * 2 ^ 19 / n)
    else BitVec.ofInt 32 ((cs.getLastD mid - mid) * 2 ^ 19)

/-! Outputs. -/

/-- Whether the F-die takes commands for its outputs: it is out of reset and no safety sequence has its outputs (R206, R509,
R588). -/
def fdieDrives (s : State) (k : Nat) : Bool :=
  s.rst.held.isNone && decide (s.cf 0 0x0200 (16 + k) (16 + k) = 1) && !(s.seq k).run && !(s.seq k).ended
/-- A laser current code as its driver holds it: at or below imax, whatever is commanded (R176). -/
def driverCode (s : State) (k h b code : Nat) : Nat := min (code % 4096) (s.trim k (0x1900 + 8 * (12 * h + b)) 43 32)
/-- Current of a laser code, in µA (R175). -/
def laserCurrent (code : Nat) : Nat := min (44 * code) 180000
/-- A value in its output channel's format (R176, R203). -/
def outFormat (s : State) (k ch : Nat) (v : Word32) : Word32 :=
  if 0x10 ≤ ch ∧ ch ≤ 0x12 then (if v.msb then 0 else v)
  else if ch = 0x13 then (if v &&& 3 = 3 then 0 else v &&& 3)
  else if laserChannel ch then
    let beam := (ch - 0x20) % 24
    BitVec.ofNat 32 (driverCode s k (beam / 12) (beam % 12) v.toNat)
  else v
/-- Rated current of a bridge's output channel, in mA, and how many top bits of the command it uses (R177). -/
def bridgeRating (ch : Nat) : Nat × Nat :=
  if ch ≤ 5 then (600, 14) else if ch ≤ 0x0B then (1200, 12) else (300, 12)
/-- Current the last command of a bridge stands for, in mA: its top bits, ±1 being the rated current (R177). -/
def commandedCurrent (s : State) (k ch : Nat) : Option Rat :=
  (Tbl.at s.outs (256 * k + ch)).map (fun v =>
    let r := bridgeRating ch
    (r.1 : Rat) * ((v.sshiftRight (32 - r.2)).toInt : Rat) / ((2 ^ (r.2 - 1) : Nat) : Rat))
/-- The reference microstep table, round(65,535 × cos(π k / 512)) (R279). -/
def refSteps : List Nat :=
  [65535, 65534, 65530, 65524, 65515, 65504, 65491, 65475, 65456, 65435, 65412, 65386, 65357,
   65327, 65293, 65258, 65219, 65179, 65136, 65090, 65042, 64992, 64939, 64883, 64826, 64765,
   64703, 64638, 64570, 64500, 64428, 64353, 64276, 64196, 64114, 64030, 63943, 63853, 63762,
   63668, 63571, 63472, 63371, 63267, 63161, 63053, 62942, 62829, 62713, 62595, 62475, 62352,
   62227, 62100, 61970, 61838, 61704, 61567, 61429, 61287, 61144, 60998, 60850, 60699, 60546] ++
  [60391, 60234, 60075, 59913, 59749, 59582, 59414, 59243, 59070, 58895, 58717, 58537, 58356,
   58171, 57985, 57797, 57606, 57413, 57218, 57021, 56822, 56620, 56417, 56211, 56003, 55794,
   55582, 55367, 55151, 54933, 54713, 54490, 54266, 54039, 53811, 53580, 53348, 53113, 52877,
   52638, 52398, 52155, 51911, 51664, 51416, 51166, 50913, 50659, 50403, 50145, 49885, 49624,
   49360, 49095, 48827, 48558, 48287, 48014, 47740, 47464, 47185, 46905, 46624, 46340, 46055] ++
  [45768, 45479, 45189, 44897, 44603, 44308, 44011, 43712, 43411, 43109, 42806, 42500, 42194,
   41885, 41575, 41263, 40950, 40635, 40319, 40001, 39682, 39361, 39039, 38715, 38390, 38064,
   37736, 37406, 37075, 36743, 36409, 36074, 35738, 35400, 35061, 34721, 34379, 34036, 33692,
   33346, 32999, 32651, 32302, 31952, 31600, 31247, 30893, 30538, 30181, 29824, 29465, 29106,
   28745, 28383, 28020, 27656, 27291, 26925, 26557, 26189, 25820, 25450, 25079, 24707, 24334] ++
  [23960, 23586, 23210, 22834, 22456, 22078, 21699, 21319, 20939, 20557, 20175, 19792, 19408,
   19024, 18639, 18253, 17866, 17479, 17091, 16703, 16313, 15924, 15533, 15142, 14751, 14359,
   13966, 13573, 13179, 12785, 12391, 11996, 11600, 11204, 10808, 10411, 10014, 9616, 9218,
   8820, 8421, 8022, 7623, 7223, 6824, 6424, 6023, 5623, 5222, 4821, 4420, 4019,
   3617, 3216, 2814, 2412, 2010, 1608, 1206, 804, 402, 0]
/-- Entry k of it. -/
def refStep (k : Nat) : Nat := refSteps.getD k 0
/-- Electrical angle, in microsteps of 1/1,024 period, at which the two phases stand in the ratio of a to b (R279, R286). -/
def electricalAngle (a b : Rat) : Nat :=
  let x := max a (-a)
  let y := max b (-b)
  let n := if x = 0 ∧ y = 0 then 0
    else ((List.range 256).filter (fun j => decide (x * (refStep (255 - j) : Rat) ≤ y * (refStep (j + 1) : Rat)))).length
  if 0 ≤ b then (if 0 ≤ a then n else 512 - n) else (if 0 ≤ a then (1024 - n) % 1024 else 512 + n)
/-- The shares of the two phases of the amplitude at an electrical angle, over 65,535, by the magnitudes T of a quarter period
(R279). -/
def phaseShares (t : Nat → Nat) (p : Int) : Int × Int :=
  let e := (p % 1024).toNat
  let q := e % 256
  let a : Int := t q
  let b : Int := t (256 - q)
  match e / 256 with
  | 0 => (a, b)
  | 1 => (-b, a)
  | 2 => (-a, -b)
  | _ => (b, -a)
/-- How a safety sequence parks the sleds: whether at all, away from position 0 or toward it, full steps/s at 16 microsteps
each, current in mA, and for how many ms (R291, R292). -/
def parkPlan (s : State) (k : Nat) : Bool × Bool × Nat × Nat × Nat :=
  let f := s.ff k 0x2038
  (decide (f 0 0 = 1), decide (f 1 1 = 1), max 50 (f 15 4), 10 * min 120 (f 23 16), f 35 24)
/-- Time since slice k's safety sequence was triggered, ns (R509). -/
def seqTime (s : State) (k : Nat) : Nat := ((s.time : Int) - (s.seq k).at_).toNat
/-- Current of a phase of a sled, 0x08 to 0x0B, that a safety sequence parks, mA: from the electrical angle of the last phase currents
committed, one microstep of 16 a full step after another in the park direction; none where the sleds are not parked, or are no longer
(R291, R292). -/
def parkCurrent (s : State) (k ch : Nat) : Option Rat :=
  let p := parkPlan s k
  if p.1 ∧ ¬ (s.seq k).parked ∧ seqTime s k < p.2.2.2.2 * 1000000 then
    let a := ch / 2 * 2
    let start : Int := electricalAngle ((commandedCurrent s k a).getD 0) ((commandedCurrent s k (a + 1)).getD 0)
    let n : Int := (16 * p.2.2.1 * seqTime s k / 1000000000 * 16 : Nat)
    let sh := phaseShares refStep (if p.2.1 then start + n else start - n)
    some ((p.2.2.2.1 : Rat) * ((if ch % 2 = 0 then sh.1 else sh.2 : Int) : Rat) / 65535)
  else none
/-- Current a bridge regulates to, in mA; none while it is not enabled or has had no command (R177, R206, R623). While a safety
sequence runs the voice coils fall to 0 on lines that end 2 ms after its trigger, and the sleds are parked (R291, R509). -/
def bridgeCurrent (s : State) (k ch : Nat) : Option Rat :=
  if s.ff k 0x2020 ch ch = 0 then none
  else if (s.seq k).run ∧ 0x08 ≤ ch ∧ ch ≤ 0x0B then parkCurrent s k ch
  else
    (commandedCurrent s k ch).map (fun i =>
      if (s.seq k).run then i * (((2000000 - seqTime s k : Nat) : Rat) / 2000000) else i)
/-! The spindle's gates (R179, R206, R259, R260). -/

/-- Dead time of the gate driver in ns, its drain-source threshold in mV, and its gate current in mA (R179). -/
def gateParameters (s : State) (k : Nat) : Nat × Nat × Nat :=
  (25 * max 2 (s.ff k 0x2010 8 4), 100 * (s.ff k 0x2010 15 12 + 1), 250 * (s.ff k 0x2010 2 0 + 1))
/-- Short-brake limit, in mV across the shunt: blim / 256 of the current-sense full scale (R179). -/
def brakeLimit (s : State) (k : Nat) : Rat := (s.ff k 0x2010 31 24 : Nat) * senseRange s k / 256
/-- The duty the gate driver gives a phase: an on-time or off-time below twice the dead time is none (R259). -/
def gateDuty (s : State) (k : Nat) (duty : Rat) : Rat :=
  let least : Rat := (2 * (gateParameters s k).1 : Nat)
  if duty * 20000 < least then 0 else if (1 - duty) * 20000 < least then 1 else duty
/-- What drives a phase: its high side, its low side, or neither; never both (R179). -/
inductive Gate where
  | high | low | off
  deriving DecidableEq, Repr
/-- The duty commanded of phase n, U, V or W (R203). -/
def dutyOf (s : State) (k n : Nat) : Rat :=
  (((Tbl.at s.outs (256 * k + 0x10 + n)).getD 0).toNat : Rat) / 2147483648
/-- A phase under PWM, `at_` ns into the PWM period of 20 µs: the high side is on about the centre for the duty, the low side
otherwise, and after each edge neither for the dead time (R179, R259). -/
def pwmGate (dead duty at_ : Rat) : Gate :=
  if duty ≤ 0 then .low else if 1 ≤ duty then .high
  else
    let up := 10000 * (1 - duty)
    let down := 10000 * (1 + duty)
    if up + dead ≤ at_ ∧ at_ < down then .high else if at_ < up ∨ down + dead ≤ at_ then .low else .off
/-- A phase whose low side brakes, with the current in it this period, mV across the shunt: off from the chop on (R179). -/
def brakeGate (s : State) (k : Nat) (mv : Rat) : Gate := if brakeLimit s k ≤ max mv (-mv) then .off else .low
/-- What drives phase n of slice k, by fe.sp.ctl.en, the bridge state and the duties; the safety sequence brakes by itself
(R203, R206, R260, R276, R509). -/
def gateOf (s : State) (k n : Nat) (at_ mv : Rat) : Gate :=
  if (s.seq k).run then (if (s.seq k).braking ∧ ¬ (s.seq k).gatesOff then brakeGate s k mv else .off)
  else if ¬ fdieDrives s k ∨ s.ff k 0x2018 0 0 = 0 then .off
  else
    match (Tbl.at s.outs (256 * k + 0x13)).map BitVec.toNat with
    | some 1 => pwmGate ((gateParameters s k).1 : Rat) (gateDuty s k (dutyOf s k n)) at_
    | some 2 => brakeGate s k mv
    | _ => .off

/-! The lasers (R174 to R176, R188). -/

/-- Frames positions before band b along a layer (R168). -/
def bandStart (b : Nat) : Nat :=
  if b < 14 then 133 * b else let z := (b + 55) / 69; stepStart z + (b + 55 - 69 * z) * (133 + z)
/-- The place within its hoist group of the position under head h (R162, R298). -/
def groupPlace (s : State) (k h : Nat) : Nat :=
  let b := s.cf k (0x4100 + 8 * h) 31 18
  ((if b = 0x3FFF then 0 else bandStart b) + (Tbl.at s.chan k |>.heads |> (Tbl.at · h)).pos) % 8
/-- Hoists of their group, 0 to 2, that operation o works on in the pass that frame i belongs to: in mode 8 two, in mode 4 one
(R188). -/
def passHoists (o : Chop) (i : Nat) : List Nat :=
  let m := if o.mode = 1 then 2 else 1
  let h := pfaHoist (o.pfa + i)
  let named := (List.range 3).filter (fun x =>
    decide (pfaHoist o.pfa ≤ h / 3 * 3 + x) && decide (h / 3 * 3 + x < pfaHoist o.pfa + o.hoists))
  let at_ := (named.filter (fun x => decide (x < h % 3))).length / m
  (named.drop (at_ * m)).take m
/-- The tracks of the classes of some hoists of a group at one of its positions (R162, R188). -/
def classTracks (hs : List Nat) (place : Nat) : List Nat :=
  (List.range 12).filter (fun t => hs.any (fun x => decide (t % 3 = (x + 24 - place) % 3)))
/-- The first frame that an operation has still to read, or, of a WRITE, one of the hoist it began last. -/
def Chop.current (o : Chop) : Nat :=
  if o.op = 2 then 32 * o.begun.foldl max 0
  else ((List.range (32 * o.hoists)).find? (fun i => decide ((Tbl.at o.frames i).got = .unread))).getD 0
/-- Whether the beam-count mode lights beam t of head h now: all beams but while an operation in mode 8 or 4 works on the head
(R188). -/
def modeLights (s : State) (k h t : Nat) : Bool :=
  match (s.channel k).queue.head? with
  | some o =>
    if o.started ∧ pfaSide o.pfa = h ∧ o.mode ≠ 0 then
      (classTracks (passHoists o o.current) (groupPlace s k h)).contains t
    else true
  | none => true
/-- Whether a calibration procedure has beam t of head h dark: that of one beam its beam, that of one head every beam (R191). -/
def calDark (s : State) (k h t : Nat) : Bool :=
  match Tbl.at s.cal k with
  | some c => decide (c.head = h) && (if c.proc ≤ 2 then decide (c.beam = t) else decide (c.proc ≤ 6))
  | none => false
/-- The read code committed for a beam, clamped; none before the first commit (R176, R203, R206). -/
def readCode (s : State) (k h t : Nat) : Option Nat :=
  (Tbl.at s.outs (256 * k + 0x20 + 12 * h + t)).map (fun v => driverCode s k h t v.toNat)
/-- Whether a laser is on: its loop has committed a code of some current, and neither the mode, a calibration, a safety sequence nor
a reset has it off (R175, R188, R191, R194, R206, R509). -/
def laserOn (s : State) (k h t : Nat) : Bool :=
  fdieDrives s k && ((readCode s k h t).getD 0 != 0) && modeLights s k h t && !calDark s k h t
/-- The data ADC and sample lane of a beam that is not lit are powered down (R188). -/
def laneUp (s : State) (k h t : Nat) : Bool := fdieDrives s k && modeLights s k h t
/-- Notes that laser b, 12 * head + beam, of slice k has gone on or off (R174). -/
def relightBeam (k b : Nat) (s : State) : State :=
  match Tbl.at s.lit (24 * k + b), laserOn s k (b / 12) (b % 12) with
  | none, true => { s with lit := Tbl.upd (24 * k + b) (some s.now) s.lit }
  | some _, false => { s with lit := Tbl.upd (24 * k + b) none s.lit }
  | _, _ => s
/-- The same of every laser of the slice. -/
def relight (k : Nat) (s : State) : State := upTo 24 (fun b s => relightBeam k b s) s
/-- Whether the monitor of a beam is flagged off at a tick: its laser has not been on for the last 10 samples, 10 µs (R174). -/
def monitorOff (s : State) (k h t tick : Nat) : Bool :=
  match Tbl.at s.lit (24 * k + 12 * h + t) with
  | some u => decide (tick < u + 4000)
  | none => true
/-- Whether a WRITE burns on head h (R348, R351). -/
def burning (s : State) (k h : Nat) : Bool :=
  match (s.channel k).queue.head? with
  | some o => o.op == 2 && o.started && !o.positioning && decide (o.stopWith = 0) && decide (pfaSide o.pfa = h) && !wiRaised s k h
  | none => false
/-- The six currents of a driver (R175). -/
inductive Drive where
  | off | read | base
  | pulse (n : Nat)
  deriving DecidableEq, Repr
/-- Those a beam is at: off, or read, or while its head burns base and the pulses between which the strategy switches (R175,
R176). -/
def drives (s : State) (k h t : Nat) : List Drive :=
  if !laserOn s k h t then [.off] else if burning s k h then [.base, .pulse 1, .pulse 2, .pulse 3] else [.read]

/-! Other outputs. -/

/-- Level of SV_LD_EN_h: whether the servo laser of head h is on: never in reset or without power (R194, R228, R230). -/
def servoLaserOn (s : State) (k h : Nat) : Bool :=
  fdieDrives s k && decide (s.ff k (0x2140 + 8 * h) 0 0 = 1)
/-- Whether SAFE_N of slice k is driven low (R638, R639). -/
def safeDriven (s : State) (k : Nat) : Bool := decide (s.ff k 0x2040 7 7 = 1)
/-- Whether STRUCK_N is driven low: STRUCK, with every F-die's safety sequence ended (R508). -/
def struckDriven (s : State) : Bool := s.rst.struck.isSome && (List.range s.nslices).all (fun k => !(s.seq k).run)

/-! The disc and the burn. -/

/-- Depth of a layer below the entrance surface, in µm (R149). -/
def layerDepth (l : Nat) : Nat := if l = 0 then 100 else if l = 1 then 82 else if l = 2 then 66 else 52
/-- Reference position of the aberration corrector for a layer, in microsteps from home (R242). -/
def correctorPosition (l : Nat) : Nat := 32 * (110 - layerDepth l)
/-- The write strategy of a side and layer: the words of mc.ws, which a WRITE takes when it starts (R344). -/
def strategy (s : State) (k side layer : Nat) : List Nat :=
  (List.range 4).map (fun w => (s.reg (cAddr k (0x7000 + 0x20 * (4 * side + layer) + 8 * w))).toNat)
/-- The pulse that burns a symbol of level `lvl` after one of level `prev` by a strategy: its start and width in 1/64 symbol, none
where the symbol is burnt at base (R343, R344). -/
def burnPulse (ws : List Nat) (lvl prev : Nat) : Option (Nat × Nat) :=
  let e := 4 * (lvl - 1) + prev
  let v := ws.getD (e / 4) 0
  let w := min 64 (bitsOf v (16 * (e % 4) + 12) (16 * (e % 4) + 6))
  let t := bitsOf v (16 * (e % 4) + 5) (16 * (e % 4))
  if lvl = 0 ∨ w = 0 then none else some (t, min w (64 - t))
/-- The drive of a beam at x/64 of a symbol that is burnt: the pulse of its level, else base (R343). -/
def symbolDrive (ws : List Nat) (lvl prev : Nat) (x : Rat) : Drive :=
  match burnPulse ws lvl prev with
  | some (t, w) => if (t : Rat) ≤ x ∧ x < (t + w : Nat) then .pulse lvl else .base
  | none => .base
/-- Current code of level `lvl`, 1 to 3, on beam b of head h during a burn by a strategy, before the clamp (R345): the stored code
scaled, and moved as the power loop has moved the base code, within 0.75 to 1.25. None where base is at the threshold, to which
R345 gives no ratio. -/
def burnCode (s : State) (ws : List Nat) (k h b lvl : Nat) : Option Nat :=
  let cur := 0x1800 + 8 * (12 * h + b)
  let p : Rat := (s.trim k cur (12 * lvl + 23) (12 * lvl + 12) : Nat)
  let base : Rat := (s.trim k cur 23 12 : Nat)
  let ith : Rat := (s.trim k (0x1900 + 8 * (12 * h + b)) 11 0 : Nat)
  let sc : Rat := (bitsOf (ws.getD 3 0) (16 * lvl - 1) (16 * lvl - 16) : Nat)
  let now : Rat := (((Tbl.at s.outs (256 * k + 0x38 + 12 * h + b)).map BitVec.toNat).getD (s.trim k cur 23 12) : Nat)
  if base = ith then none
  else
    let r := max (3 / 4) (min (5 / 4) ((now - ith) / (base - ith)))
    some (ith + (p - ith) * sc / 16384 * r + 1 / 2).floor.toNat
/-- The code the driver burns with, clamped at imax (R176, R345). -/
def burnDrive (s : State) (ws : List Nat) (k h b lvl : Nat) : Option Nat :=
  (burnCode s ws k h b lvl).map (fun c => min c (s.trim k (0x1900 + 8 * (12 * h + b)) 43 32))
/-- Current of a drive of a beam, µA, by the strategy of the WRITE that runs; none where it has no value: before the first commit, or a pulse for which R345
gives no ratio (R175, R176, R345). -/
def driveCurrent (s : State) (k h t : Nat) : Drive → Option Nat
  | .off => some 0
  | .read => (readCode s k h t).map laserCurrent
  | .base => (Tbl.at s.outs (256 * k + 0x38 + 12 * h + t)).map (fun v => laserCurrent (driverCode s k h t v.toNat))
  | .pulse n => (burnDrive s ((s.channel k).queue.head?.elim [] Chop.ws) k h t n).map laserCurrent

/-! The states of the outputs in reset (R194). -/

/-- What an output of the F-die does of itself in reset, or without power. -/
inductive Idle where
  | clamped | passiveClamp | highZ | phaseNode | passivePhase | low | passiveGround | pullUp | pullDown | idlePattern | nothing
  deriving DecidableEq, Repr
/-- The outputs of R194: their states in reset and unpowered. -/
def idleStates : List (String × Idle × Idle) :=
  [("laser drivers", .clamped, .passiveClamp), ("voice-coil bridges", .highZ, .highZ),
   ("sled and aberration bridges", .highZ, .highZ), ("SP_GH_U, SP_GH_V, SP_GH_W", .phaseNode, .passivePhase),
   ("SP_GL_U, SP_GL_V, SP_GL_W", .low, .passiveGround), ("SHK_CS_N", .pullUp, .highZ), ("SHK_SCK, SHK_MOSI", .pullDown, .highZ),
   ("sample and servo lanes", .idlePattern, .nothing)]
/-- Whether an F-die is without power: the part comes up from off or a brown-out, and its own rails did not stay in range
(R490, R588). -/
def fdieDark (s : State) (k : Nat) : Bool :=
  match s.rst.held with
  | some n => decide (n ≤ 2) && !s.rst.fdie.contains k
  | none => false
/-- Whether an F-die's outputs stand at the states of R194: in reset, and after a safety sequence (R194, R509). -/
def outputsIdle (s : State) (k : Nat) : Bool :=
  !(s.seq k).run && (s.rst.held.isSome || (s.seq k).ended || decide (s.cf 0 0x0200 (16 + k) (16 + k) = 0))
/-- The state of an output of R194 by its place in the list; none while the die drives it. -/
def idleState (s : State) (k i : Nat) : Option Idle :=
  (idleStates[i]?).bind (fun r => if !outputsIdle s k then none else some (if fdieDark s k then r.2.2 else r.2.1))

end Sys2Proof.Machine
end

