-- ==== Sys2Proof/Machine/LoopOps.lean ====
section
/-! DEFINITION. The instructions of the loop profile alone (R93 to R100), and what their completion means for the
slot: SAMPLE's stall, EMIT's deadline, SLOTEND's verdicts (R201 to R205, R214, R217 to R219). -/

namespace Sys2Proof.Machine

/-- The aligned data-memory address of an LDL or STL (R93). -/
def dmemAddr (r : LoopRegs) (ra : BitVec 5) (size : BitVec 2) (off : BitVec 13) : Nat :=
  let a := (r.r ra + off.signExtend 32).toNat % 0x8000
  a / sizeBytes size * sizeBytes size

/-- LDL: a load from data memory, extended to 32 bits (R93). -/
def execLdl (k e : Nat) (rd ra : BitVec 5) (size : BitVec 2) (uns : Bool) (off : BitVec 13) (s : State) : Res :=
  .next (loopRegs k e 2 (lreg rd && lreg ra && decide (size ≠ 3)) (fun r =>
    r.setR rd ((extendLoad (sizeBytes size) uns (dmemNum r.dmem (dmemAddr r ra size off) (sizeBytes size))).truncate 32))
    s)
/-- STL: a store to data memory; the parameter window takes none (R93, R212). -/
def execStl (k e : Nat) (rs ra : BitVec 5) (size : BitVec 2) (off : BitVec 13) (s : State) : Res :=
  .next (loopRegs k e 1 (lreg rs && lreg ra && decide (size ≠ 3)) (fun r =>
    let a := dmemAddr r ra size off
    if 0x7000 ≤ a ∧ a < 0x7800 then r
    else { r with dmem := dmemPoke r.dmem a (leBytes (sizeBytes size) (r.r rs).toNat) }) s)

/-- A predicated fixed-point instruction. -/
def qOp (cycles : Nat) (regs : Bool) (f : LoopRegs → LoopRegs) (k e : Nat) (pred : BitVec 3) (pneg : Bool)
    (s : State) : State :=
  loopRegs k e cycles (regs && lpred pred) (fun r => if r.execs pred pneg then f r else r) s

def execQadd (k e : Nat) (rd ra rb : BitVec 5) (pred : BitVec 3) (pneg : Bool) (s : State) : Res :=
  .next (qOp 1 (lreg rd && lreg ra && lreg rb)
    (fun r => r.setSat rd (saturate ((r.r ra).toInt + (r.r rb).toInt))) k e pred pneg s)
def execQsub (k e : Nat) (rd ra rb : BitVec 5) (pred : BitVec 3) (pneg : Bool) (s : State) : Res :=
  .next (qOp 1 (lreg rd && lreg ra && lreg rb)
    (fun r => r.setSat rd (saturate ((r.r ra).toInt - (r.r rb).toInt))) k e pred pneg s)
def execQneg (k e : Nat) (rd ra : BitVec 5) (pred : BitVec 3) (pneg : Bool) (s : State) : Res :=
  .next (qOp 1 (lreg rd && lreg ra) (fun r => r.setSat rd (saturate (-(r.r ra).toInt))) k e pred pneg s)
def execQabs (k e : Nat) (rd ra : BitVec 5) (pred : BitVec 3) (pneg : Bool) (s : State) : Res :=
  .next (qOp 1 (lreg rd && lreg ra) (fun r => r.setSat rd (saturate ((r.r ra).toInt.natAbs : Int))) k e pred pneg s)
def execQmul (k e : Nat) (rd ra rb : BitVec 5) (pred : BitVec 3) (pneg : Bool) (s : State) : Res :=
  .next (qOp 2 (lreg rd && lreg ra && lreg rb)
    (fun r => r.setSat rd (saturate (roundShift ((r.r ra).toInt * (r.r rb).toInt) 31))) k e pred pneg s)
def execQshl (k e : Nat) (rd ra rb : BitVec 5) (pred : BitVec 3) (pneg : Bool) (s : State) : Res :=
  .next (qOp 1 (lreg rd && lreg ra && lreg rb)
    (fun r => r.setSat rd (saturate ((r.r ra).toInt * 2 ^ ((r.r rb).toNat % 32)))) k e pred pneg s)
def execAclr (k e : Nat) (ak : BitVec 2) (pred : BitVec 3) (pneg : Bool) (s : State) : Res :=
  .next (qOp 1 true (fun r => r.setAcc ak (0, false)) k e pred pneg s)
/-- ALD: the accumulator := ra with its binary point at bit 62, so ra * 2^31 (R95, R100). -/
def execAld (k e : Nat) (ak : BitVec 2) (ra : BitVec 5) (pred : BitVec 3) (pneg : Bool) (s : State) : Res :=
  .next (qOp 1 (lreg ra) (fun r => r.setAcc ak (wrapAcc ((r.r ra).toInt * 2 ^ 31))) k e pred pneg s)
def execQmac (k e : Nat) (ak : BitVec 2) (ra rb : BitVec 5) (pred : BitVec 3) (pneg : Bool) (s : State) : Res :=
  .next (qOp 2 (lreg ra && lreg rb)
    (fun r => r.setAcc ak (wrapAcc ((r.acc ak).toInt + (r.r ra).toInt * (r.r rb).toInt))) k e pred pneg s)
def execQmsu (k e : Nat) (ak : BitVec 2) (ra rb : BitVec 5) (pred : BitVec 3) (pneg : Bool) (s : State) : Res :=
  .next (qOp 2 (lreg ra && lreg rb)
    (fun r => r.setAcc ak (wrapAcc ((r.acc ak).toInt - (r.r ra).toInt * (r.r rb).toInt))) k e pred pneg s)
def execQrnd (k e : Nat) (rd : BitVec 5) (ak : BitVec 2) (pred : BitVec 3) (pneg : Bool) (s : State) : Res :=
  .next (qOp 2 (lreg rd) (fun r => r.setSat rd (saturate (roundShift (r.acc ak).toInt 31))) k e pred pneg s)
/-- BIQ (R99). -/
def execBiq (k e : Nat) (rd ra rb : BitVec 5) (pred : BitVec 3) (pneg : Bool) (s : State) : Res :=
  .next (qOp 7 (lreg rd && lreg ra && lreg rb) (fun r =>
    let b := biquad r.dmem (r.r ra) (r.r rb)
    ({ r with dmem := b.2 } : LoopRegs).setSat rd b.1) k e pred pneg s)

/-- REPEAT: the next len instructions run n times; the two operands are n - 1 and len - 1 (R97). -/
def execRepeat (k e : Nat) (n : BitVec 8) (len : BitVec 5) (s : State) : Res :=
  .next (loopRun k e 1 true (fun x => { x with rep := some ⟨x.pc + 1, len.toNat + 1, n.toNat⟩ }) s)

/-- SAMPLE: rd := the value latched for this slot; before its arrival phase it stalls until then (R98, R201). -/
def execSample (k e : Nat) (rd : BitVec 5) (ch : BitVec 8) (s : State) : Res :=
  .next (loopRun k e 1 (lreg rd && sampleChannel ch.toNat) (fun x =>
    { x with r := x.r.setR rd (Tbl.at x.inputs ch.toNat), cyc := max x.cyc (arrival ch.toNat + 1) }) s)

/-- A SAMPLE that reaches its stall bound: it completes there with the channel's previous latch, and the stale count
rises, in lp.eng[e].status saturating and in its counter unit (R202, R226, R624). -/
def execSampleStale (k e : Nat) (rd : BitVec 5) (ch : BitVec 8) (s : State) : Res :=
  .next (match logicalOf s k e with
    | none => s
    | some l =>
      if !loopAwake s k e || !(lreg rd && sampleChannel ch.toNat) then s
      else
        let s := loopRun k e 1 true (fun x =>
          { x with r := x.r.setR rd (Tbl.at x.before ch.toNat), cyc := max x.cyc (stallBound ch.toNat + 1) }) s
        let n := s.cf k (lpStatus l) 31 16
        (s.setCf k (lpStatus l) 31 16 (if n < 0xFFFF then n + 1 else n)).count k (640 + l) 1)

/-- EMIT: places ra in an output channel for its commit phase; one that completes after its limit is an engine fault
and is not committed (R98, R199, R218). -/
def execEmit (k e : Nat) (ch : BitVec 8) (ra : BitVec 5) (s : State) : Res :=
  .next (match logicalOf s k e with
    | none => s
    | some l =>
      if !loopAwake s k e || !lreg ra then s
      else if emitLimit l ch.toNat < (s.engine k e).cyc + 1 then engineFault k e s
      else loopRun k e 1 (isCrossbar ch.toNat || ownsChannel l ch.toNat) (fun x =>
        if ch = 0xF0 then { x with sup := some (x.r.r ra) }
        else { x with emitted := x.emitted ++ [(ch.toNat, x.r.r ra)] }) s)

/-- Byte of lp.eng[e].sup for check i: enabled, action, limit (R227). -/
def supByte (s : State) (k l i : Nat) : Nat := s.cf k (0x5200 + 8 * l) (8 * i + 7) (8 * i)

/-- The action of a tripped check (R217): a record, write inhibit, a hold of the outputs, or every loop to manual. -/
def supAction (k e l i act : Nat) (s : State) : State :=
  let s := (s.setCf k (lpStatus l) (8 + i) (8 + i) 1)
  let s := logEngine k l 2 i s
  let s := if act = 1 ∨ act = 2 then (headsOf l).foldl (fun s h => raiseWi k h 4 s) s else s
  let s := if act = 2 then showEngine k e l (s.modEngine k e (fun x => { x with held := true, release := false })) else s
  if act = 3 then
    let frame := (s.frame / slotLen l + 1) * slotLen l % 2 ^ 32
    ((List.range (loopChannels l).length).zip (loopChannels l)).foldl (fun s n =>
      let v := if n.2 = 0xFF then ((Tbl.at (s.engine k e).modes n.1).hold, s) else lastCommitted k n.2 s
      v.2.modEngine k e (fun x => { x with xfers := x.xfers ++ [⟨n.1, some v.1, frame⟩] })) s
  else s

/-- The supervision word of a slot: each enabled check counts consecutive implausible slots and acts at its limit
(R205, R217). -/
def takeSupervision (k e l : Nat) (s : State) : State :=
  match (s.engine k e).sup with
  | none => s
  | some v =>
    (List.range 8).foldl (fun s i =>
      let b := supByte s k l i
      if !v.getLsbD i then s.modEngine k e (fun x => { x with supCount := Tbl.upd i 0 x.supCount })
      else
        let n := Tbl.at (s.engine k e).supCount i + 1
        let lim := max 1 (b % 16)
        if bitSet b 7 ∧ lim ≤ n then
          supAction k e l i (b / 32 % 4) (s.modEngine k e (fun x => { x with supCount := Tbl.upd i 0 x.supCount }))
        else s.modEngine k e (fun x => { x with supCount := Tbl.upd i n x.supCount })) s

end Sys2Proof.Machine
end

