-- ==== Sys2Proof/Machine/LoopSlots.lean ====
section
/-! DEFINITION. The slots of the loop engines: LOADL and XFER, a slot's start, its commit phase, parameters, faults and
the spare (R139, R140, R195 to R227). -/

namespace Sys2Proof.Machine

/-- The tick at which logical engine l's first slot begins at a tick or later, and that slot's first frame. -/
def slotTickFrom (l tick : Nat) : Nat := ceilDiv tick (500 * slotLen l) * (500 * slotLen l)
def slotFrom (l tick : Nat) : Nat := slotTickFrom l tick / 500 % 2 ^ 32
/-- Whether a frame has been reached: s.frame is at it, or past it by less than half the count. -/
def frameDue (s : State) (f : Nat) : Bool := decide ((s.frame + 2 ^ 32 - f) % 2 ^ 32 < 2 ^ 31)
/-- The tick from which a request to logical engine l is served: now, or, during a takeover, when the spare starts (R222). -/
def servedFrom (s : State) (l : Nat) (x : Engine) : Nat :=
  if x.takeover ∧ x.slotFrame = none then slotTickFrom l x.copyAt else s.now
/-- Whether F-die k is out of reset (R588). -/
def fready (s : State) (k : Nat) : Bool := decide (s.cf 0 0x0200 (16 + k) (16 + k) = 1)

/-! LOADL and XFER. -/

/-- The memory operands of LOADL: the header, and the rest of the image when the header gives it a length (R80). -/
def loadSpans (c : Nat) (s : State) (_ b : Nat) : List Span :=
  match placeOf s c b 64 false with
  | some a =>
    let h := s.bytes a 64
    if headerRange h then [⟨b, 64, true, false⟩, ⟨b + 64, imageLen h - 64, true, false⟩] else [⟨b, 64, true, false⟩]
  | none => [⟨b, 64, true, false⟩]

/-- Crossbar words that running and pending programs of the slice's other engines claim (R207, R210). -/
def claimedBy (s : State) (k l : Nat) : List Nat :=
  ((List.range 8).filter (fun e => e != l)).flatMap (fun e =>
    let x := s.engine k (physicalOf s k e)
    claims x.code ++ (x.load.map (fun q => claims q.code)).getD [])

/-- The image at key a, whole or as much as has a length; none when a word of it is uncorrectable. -/
def readImage (c a : Nat) (s : State) : Option (List Byte) × State :=
  readOperand c a (if headerRange (s.bytes a 64) then imageLen (s.bytes a 64) else 64) s

/-- LOADL: checks the image and gives it to the engine that serves logical engine ra[3:0], from the first slot that begins
at least two frames after (R139, R207 to R210, R222, R656). -/
def execLoadl (c : Nat) (rd ra rb : BitVec 5) (xmod : BitVec 6) (s : State) : Res :=
  .next (deviceOp c rd ra rb 0x11 xmod.toNat (loadSpans c) (fun s a b =>
    let k := c / 8
    let e := physicalOf s k a
    let x := s.engine k e
    if 8 < a ∨ b % 64 ≠ 0 then .fail 0x01 0 s
    else
      match placeOf s c b (if headerRange ((placeOf s c b 64 false).elim [] (s.bytes · 64)) then
          imageLen ((placeOf s c b 64 false).elim [] (s.bytes · 64)) else 64) false with
      | none => .fail 0x40 5 s
      | some key =>
        match readImage c key s with
        | (none, s) => .fail 0x40 5 s
        | (some img, s) =>
          if a = 8 ∨ x.fault ∨ x.load.isSome ∨ !fready s k then .fail 0x41 0 s
          else
            match loadRefusal a (claimedBy s k a) img with
            | some d => .fail 0x40 d s
            | none =>
              let at_ := servedFrom s a x + 1000
              let f := slotFrom a at_
              let n := leAt img 8 4
              let q : LoadReq := { code := wordsOf n (img.drop 192), loops := loopTable img
                                   data := img.drop (192 + 4 * n), daddr := leAt img 16 2, frame := f }
              let due := if x.code = [] ∧ x.due = none then some (slotTickFrom a at_ + commitPhase a) else x.due
              .ok f ((s.setEngine k e { x with load := some q, due := due }).setCf k (lpStatus a) 5 5 1)) s)

/-- XFER: moves a loop to manual with a value, or to automatic, at the engine's next slot (R140, R196, R215, R222). -/
def xferOp (auto : Bool) (c : Nat) (rd ra rb : BitVec 5) (xhi : BitVec 5) (s : State) : State :=
  plainOp c rd ra rb 0x12 (2 * xhi.toNat + b2n auto) (fun s a b =>
    let k := c / 8
    let l := a % 16
    let n := bitsOf a 7 4
    let e := physicalOf s k l
    let x := s.engine k e
    if 256 ≤ a ∨ 8 ≤ l ∨ (loopChannels l).length ≤ n ∨ 2 ^ 32 ≤ b ∨ (auto = true ∧ b ≠ 0) then .fail 0x01 0 s
    else if x.fault then .fail 0x41 0 s
    else
      let f := slotFrom l (servedFrom s l x + 1)
      .ok f (s.setEngine k e { x with
        xfers := x.xfers ++ [⟨n, if auto then none else some (BitVec.ofNat 32 b), f⟩] })) s
def execXferManual (c : Nat) (rd ra rb : BitVec 5) (xhi : BitVec 5) (s : State) : Res :=
  .next (xferOp false c rd ra rb xhi s)
def execXferAuto (c : Nat) (rd ra rb : BitVec 5) (xhi : BitVec 5) (s : State) : Res :=
  .next (xferOp true c rd ra rb xhi s)

/-! The start of a slot (R198). -/

/-- A loaded program takes the place of the old one: code, loop table, data section; transfer words are cleared (R209). -/
def applyLoad (k e l : Nat) (s : State) : State :=
  let x := s.engine k e
  match x.load with
  | some q =>
    if frameDue s q.frame then
      (s.setEngine k e { x with
        code := q.code, loops := q.loops, load := none
        r := { x.r with dmem := dmemPoke x.r.dmem q.daddr q.data }
        modes := x.modes.map (fun (m : Nat × LoopMode) => (m.1, { m.2 with transfer := false })) }).setCf k
        (lpStatus l) 5 5 0
    else s
  | none => s
/-- Entry k of a microstep table in an engine's window; T[256] is 0 (R279). -/
def stepAt (t : List Byte) (k : Nat) : Nat := if k = 256 then 0 else leAt t (2 * k) 2
/-- Whether a microstep table may be used (R280). -/
def stepTableOk (t : List Byte) : Bool :=
  decide (stepAt t 0 = 65535) && (List.range 255).all (fun k => decide (stepAt t (k + 1) ≤ stepAt t k)) &&
  (List.range 256).all (fun k =>
    let q := stepAt t k * stepAt t k + stepAt t (256 - k) * stepAt t (256 - k)
    decide (81 * (65535 * 65535) ≤ 100 * q) && decide (100 * q ≤ 121 * (65535 * 65535)))
/-- A stepper axis of slice k, and its replacement, whose status block engine 5's program writes (R284). -/
def State.axis (s : State) (k a : Nat) : Axis := Tbl.at s.axes (4 * k + a)
def State.setAxis (s : State) (k a : Nat) (x : Axis) : State :=
  let x := { x with valid := true }
  let bs := leBytes 1 0xA5 ++ leBytes 1 x.state ++ leBytes 1 x.result ++ leBytes 1 x.reason ++ leBytes 4 x.seq ++
    leBytes 4 (toField 32 x.pos) ++ leBytes 2 x.amp ++ leBytes 1 x.load ++ leBytes 1 (b2n x.uncertain + 2 * b2n x.refused)
  let s := { s with axes := Tbl.upd (4 * k + a) x s.axes }
  s.modEngine k (physicalOf s k 5) (fun e => { e with r := { e.r with dmem := dmemPoke e.r.dmem (0x7F40 + 16 * a) bs } })
/-- A captured microstep table is checked: a good one is in force, a bad one is refused on the axes it serves (R280). -/
def checkTable (k n : Nat) (p : List Byte) (s : State) : State :=
  let t := (p.drop (0x200 * n)).take 0x200
  let good := stepTableOk t
  let s := if good then { s with steps := Tbl.upd (2 * k + n) t s.steps } else s
  let s := s.setAxis k (2 * n) { s.axis k (2 * n) with refused := !good }
  s.setAxis k (2 * n + 1) { s.axis k (2 * n + 1) with refused := !good }

/-- A parameter capture at least 2 µs old becomes the parameter window (R213). -/
def applyParam (k e l : Nat) (s : State) : State :=
  let x := s.engine k e
  match x.param with
  | some p =>
    if p.2 + 800 ≤ slotTick s l then
      let s := (s.setEngine k e { x with param := none, r := { x.r with dmem := dmemPoke x.r.dmem 0x7000 p.1 } }).setCf k
        (lpStatus l) 4 4 0
      if l = 5 ∧ x.code ≠ [] then checkTable k 1 p.1 (checkTable k 0 p.1 s) else s
    else s
  | none => s
/-- One transfer of a loop takes effect (R215, R216): to manual with its value; from manual to automatic, word 1 becomes the
last committed output, or stays where the program holds the loop, and the slot is its transfer slot. -/
def applyXfer (k e l : Nat) (q : XferReq) (s : State) : State :=
  let m := Tbl.at (s.engine k e).modes q.loop
  match q.manual with
  | some v => s.modEngine k e (fun x => { x with modes := Tbl.upd q.loop { manual := true, hold := v } x.modes })
  | none =>
    if !m.manual then s
    else
      let ch := (loopChannels l).getD q.loop 0xFF
      let h := if ch = 0xFF then (m.hold, s) else lastCommitted k ch s
      h.2.modEngine k e (fun x => { x with
        modes := Tbl.upd q.loop { manual := false, hold := h.1, transfer := true } x.modes })
/-- The transfers that are due take effect in the order they were issued. A spare's first slot repeats the one that faulted, a
transfer slot too (R220). -/
def applyXfers (k e l : Nat) (s : State) : State :=
  let s := s.modEngine k e (fun x => if x.takeover ∧ x.slotFrame = none then x else { x with
    modes := x.modes.map (fun (m : Nat × LoopMode) => (m.1, { m.2 with transfer := false })) })
  let due := (s.engine k e).xfers.filter (fun q => frameDue s q.frame)
  due.foldl (fun s q => applyXfer k e l q s)
    (s.modEngine k e (fun x => { x with xfers := x.xfers.filter (fun q => !frameDue s q.frame) }))
/-- The control block of loop n is written (R212, R215). -/
def writeControl (k e l n : Nat) (s : State) : State :=
  let m := Tbl.at (s.engine k e).modes n
  let v := lastCommitted k ((loopChannels l).getD n 0xFF) s
  let a := 0x6F00 + 16 * n
  v.2.modEngine k e (fun x =>
    let d := dmemPoke x.r.dmem a (leBytes 4 (b2n m.manual))
    let d := if m.manual || m.transfer then dmemPoke d (a + 4) (leBytes 4 m.hold.toNat) else d
    { x with r := { x.r with dmem := dmemPoke d (a + 8) (leBytes 4 (b2n m.transfer) ++ leBytes 4 v.1.toNat) } })

/-- The slice status word a SAMPLE of channel 0xE0 reads (R201). -/
def sliceStatus (s : State) (k : Nat) : Word32 :=
  BitVec.ofNat 32 (b2n (wiRaised s k 0) + b2n (wiRaised s k 1) * 2 + s.ff k 0x2020 37 32 * 4 + s.ff k 0x2020 47 40 * 2 ^ 8)
/-- The disc angle under head h, from its position count and the symbol count within the position (R298, R299). -/
def angleOf (s : State) (k h : Nat) (sym : Word32) : Word32 :=
  discAngle (s.cf k (0x4100 + 8 * h) 31 18) (Tbl.at (s.channel k).heads h).pos sym.toNat
/-- The value channel ch latches at the start of a slot at tick t (R173, R201, R204, R299): a crossbar word as published before
t, the slice status, 0x8000_0000 of an unlocked wobble or of the monitor of a beam flagged off, 0 of an accelerometer that is not
polled; else what `given` has arrive at the input or, as a symbol count, from the wobble loop, or the value of the previous
latch. -/
def latchOf (s : State) (k t : Nat) (given : List (Nat × List Int)) (prev : Tbl Word32) (ch : Nat) : Word32 :=
  if isCrossbar ch then
    (match Tbl.get (fun _ => (0, 0)) s.published (256 * k + ch) with
      | (u, v) => if t ≤ u ∧ u ≠ 0 then v else (s.out k ch).getD 0)
  else if ch = 0xE0 then sliceStatus s k
  else if (ch = 0x50 ∨ ch = 0x51) ∧ s.cf k (0x4100 + 8 * (ch - 0x50)) 3 3 = 0 then 0x8000_0000
  else if 0x10 ≤ ch ∧ ch ≤ 0x27 ∧ monitorOff s k ((ch - 0x10) / 12) ((ch - 0x10) % 12) t then 0x8000_0000
  else if ch = 0x3B ∨ ch = 0x3C then (if s.ff k 0x2000 0 0 = 0 then 0 else Tbl.at s.shock (2 * k + (ch - 0x3B)))
  else
    match given.find? (fun g => g.1 == ch) with
    | some g => if ch = 0x50 ∨ ch = 0x51 then angleOf s k (ch - 0x50) (sampled s k ch g.2) else sampled s k ch g.2
    | none => Tbl.at prev ch
/-- Every input is latched; the values latched for the slot before stay for a stale SAMPLE (R198, R202). -/
def latchInputs (k e l : Nat) (given : List (Nat × List Int)) (s : State) : State :=
  let t := slotTick s l
  s.modEngine k e (fun x => { x with
    before := x.inputs
    inputs := ((List.range 256).filter sampleChannel).foldl (fun m ch =>
      Tbl.upd ch (latchOf s k t given x.inputs ch) m) [] })

/-- A slot of physical engine e starts (R198, R209 to R216, R219, R224, R226): a release, a load, parameters and transfers take
effect, the control blocks are written, the inputs are latched, and a program runs from address 0. The slot before has ended without
a fault: what the engine then held, with the parameters and modes in force, is the checkpoint. -/
def slotStart (k e l : Nat) (given : List (Nat × List Int)) (s : State) : State :=
  let s := s.modEngine k e (fun x => { x with held := x.held && !x.release, release := false })
  let s := applyParam k e l (applyXfers k e l (applyLoad k e l s))
  let s := (List.range (loopChannels l).length).foldl (fun s n => writeControl k e l n s) s
  let s := if l = 5 then { s with progs := Tbl.upd k (some { spin := Tbl.at s.spins k
                                                             axes := (List.range 4).map (fun a => s.axis k a)
                                                             steps := [Tbl.at s.steps (2 * k), Tbl.at s.steps (2 * k + 1)] }) s.progs }
    else s
  let s := latchInputs k e l given (if l = 6 ∨ l = 7 then relight k s else s)
  let f := slotFirst s l
  let at_ := slotTick s l + commitPhase l
  showEngine k e l (s.modEngine k e (fun x => { x with
    pc := 0, cyc := 0, rep := none, emitted := [], sup := none, committed := false, slotFrame := some f
    check := x.r, checkModes := x.modes, due := if x.code ≠ [] ∧ x.due = none then some at_ else x.due
    inSlot := decide (x.code ≠ []) }))

/-- Whether a slot of physical engine e may start now: the first frame of a slot that has not yet started; of a spare that takes
over, one that begins once its copy has ended (R198, R220). -/
def slotReady (s : State) (k e l : Nat) : Bool :=
  let x := s.engine k e
  decide (k < s.nslices) && !s.down && !s.stopped && !x.fault && !x.inSlot &&
  decide (s.frame % slotLen l = 0) && decide (x.slotFrame ≠ some (slotFirst s l)) &&
  (!(x.takeover && x.slotFrame.isNone) || decide (x.copyAt ≤ slotTick s l))

/-! The commit phase (R199, R203 to R206, R215 to R217). -/

/-- Commits one value: a crossbar word is published, another channel is driven by the F-die (R203, R204). -/
def commitOne (k ch : Nat) (v : Word32) (s : State) : State :=
  if isCrossbar ch then
    { s.setOut k ch v with
      published := Tbl.put (256 * k + ch) (s.now, (s.out k ch).getD 0) s.published }
  else if fdieDrives s k then
    let s := dropSafe k (s.setOut k ch (outFormat s k ch v))
    if 0x20 ≤ ch ∧ ch < 0x38 then relightBeam k (ch - 0x20) s else s
  else s
/-- Whether an emitted value differs from word 1 by more than a bump limit, which counts in 2^-15 of full scale: of a laser channel 4,096 codes in
bits [11:0], of the others a Q1.31 (R203, R208, R216). -/
def bumps (ch limit : Nat) (v word1 : Word32) : Bool :=
  if laserChannel ch then
    decide (limit < 8 * ((v.toNat % 4096 : Nat) - (word1.toNat % 4096 : Nat) : Int).natAbs)
  else decide (limit * 2 ^ 16 < (v.toInt - word1.toInt).natAbs)
/-- The bump check of a transfer slot (R216): the emitted value, the program's last, against word 1. -/
def bumpCheck (k e l n : Nat) (s : State) : State :=
  let x := s.engine k e
  let m := Tbl.at x.modes n
  let ch := (loopChannels l).getD n 0xFF
  match (x.emitted.reverse.find? (fun o => o.1 == ch)), (x.loops.find? (fun o => o.1 == ch)) with
  | some o, some t =>
    if m.transfer ∧ ch ≠ 0xFF ∧ bumps ch t.2 o.2 m.hold then
      logEngine k l 3 n (s.setCf k (lpStatus l) 7 7 1)
    else s
  | _, _ => s
/-- The value emitted last on each channel. -/
def lastEmitted : List (Nat × Word32) → List (Nat × Word32)
  | [] => []
  | o :: l => if l.any (fun p => p.1 == o.1) then lastEmitted l else o :: lastEmitted l
/-- The commit phase: the values emitted last, a manual loop's hold value in place of its own, are committed unless the outputs
are held under act 2; a spare's first commit ends the takeover (R215 to R217, R220, R224). -/
def slotCommit (k e l : Nat) (s : State) : State :=
  let s := (List.range (loopChannels l).length).foldl (fun s n => bumpCheck k e l n s) s
  let x := s.engine k e
  let manual := ((List.range (loopChannels l).length).zip (loopChannels l)).filterMap (fun (n : Nat × Nat) =>
    let m := Tbl.at x.modes n.1
    if m.manual ∧ n.2 ≠ 0xFF then some (n.2, m.hold) else none)
  let vals := (lastEmitted x.emitted).filter (fun o => !manual.any (fun m => m.1 == o.1)) ++ manual
  let s := if x.held then s else vals.foldl (fun s o => commitOne k o.1 o.2 s) s
  let next := slotTick s l + 500 * slotLen l + commitPhase l
  showEngine k e l (s.modEngine k e (fun x => { x with committed := true, takeover := false, due := some next }))
/-- OUTPUT_COMMIT: the slot in progress, at or past its commit phase (R199, R200). -/
def execOutputCommit (k e : Nat) (s : State) : Res :=
  .next (match logicalOf s k e with
    | some l =>
      let x := s.engine k e
      if decide (k < s.nslices) && !s.down && !s.stopped && !x.fault && decide (x.code ≠ []) &&
          decide (x.slotFrame = some (slotFirst s l)) && !x.committed && decide (commitPhase l ≤ slotElapsed s l) then
        slotCommit k e l s
      else s
    | none => s)

/-! Parameters, holds, faults. -/

/-- A write of post to lp.eng[l].post: the staging area is captured whole, unless a byte of it is uncorrectable (R213,
R420). -/
def paramPost (k l : Nat) (s : State) : State :=
  let e := physicalOf s k l
  let a := cAddr k (0x1_0000 + 0x1000 * l)
  match (eccKeys a 0x800).find? (fun w => decide (s.eccAt w = .bad)) with
  | some w => (logUncorrectable 0x26 w (countBad a 0x800 s)).setCf k (lpStatus l) 4 4 0
  | none =>
    let t := healRead none a 0x800 s
    (t.modEngine k e (fun x => { x with param := some (s.bytes a 0x800, s.now) })).setCf k (lpStatus l) 4 4 1
/-- A write of release to lp.eng[l].post: the act 2 hold in force ends at the next slot; with none in force it does nothing (R217,
R226). -/
def holdRelease (k l : Nat) (s : State) : State :=
  s.modEngine k (physicalOf s k l) (fun x => { x with release := x.held })
def execParamPost (k l : Nat) (s : State) : Res :=
  .next (whileUp s (fun s => if k < s.nslices ∧ l < 8 then paramPost k l s else s))
def execHoldRelease (k l : Nat) (s : State) : Res :=
  .next (whileUp s (fun s => if k < s.nslices ∧ l < 8 then holdRelease k l s else s))

/-- ENGINE_FAULT: a lockstep mismatch of physical engine e, or an uncorrectable error in its program or data memory, which is
recorded too (R218, R220, R420). -/
def execEngineFault (k e : Nat) (memory : Bool) (s : State) : Res :=
  .next (whileUp s (fun s =>
    match logicalOf s k e with
    | some _ =>
      if s.nslices ≤ k ∨ s.stopped ∨ (s.engine k e).fault then s
      else
        let n := s.freshNat
        let s := if memory then
            logFault 0x0020 k (0x27 + e) k 0xFF (n.1 % 2 ^ 40 + (0x27 + e) * 2 ^ 40 + 4 * 2 ^ 48) (n.2.count k 358 1)
          else s
        engineFault k e s
    | none => s))
/-- A SLOTEND that has not completed by the limit of R199. -/
def execSlotendDeadlineMiss (k e : Nat) (s : State) : Res :=
  .next (whileUp s (fun s =>
    match logicalOf s k e with
    | some l =>
      if loopAwake s k e ∧ ((s.engine k e).slotFrame ≠ some (slotFirst s l) ∨ slotLimit l ≤ slotElapsed s l) then
        engineFault k e s
      else s
    | none => s))
/-- The idle spare's self-test mismatches (R223). -/
def execSpareSelfTestMismatch (k : Nat) (s : State) : Res :=
  .next (whileUp s (fun s =>
    if k < s.nslices ∧ spareFor s k = 15 ∧ s.cf k 0x5000 12 12 = 0 ∧ ¬ s.stopped then
      logEngine k 8 4 0 (s.setCf k 0x5000 12 12 1)
    else s))
/-- The F-die has had no committed value of logical engine l within its hold limit of the commit phase it was due at (R224). -/
def execHoldLimitExpiry (k l : Nat) (s : State) : Res :=
  .next (whileUp s (fun s =>
    let x := s.engine k (physicalOf s k l)
    match x.due with
    | some t => if k < s.nslices ∧ l < 8 ∧ t + holdLimit l ≤ s.now then triggerSafety k s else s
    | none => s))

end Sys2Proof.Machine
end

