-- ==== Sys2Proof/Machine/Retain.lean ====
section
/-! DEFINITION. The retained settings block, RETAIN and the shadow, and the restore of each section (R143, R589 to
R596). -/

namespace Sys2Proof.Machine

/-- Offset of a section in the retained SRAM (R589). -/
def secOff (i : Nat) : Nat := [0x0100, 0x4100, 0x4180, 0x4200, 0x4400, 0x4500].getD i 0
/-- Length of a section on a part of n slices (R590). -/
def secLen (n i : Nat) : Nat := [4096 * n, 128, 8, 512, 16 * n, 2048 * n].getD i 0

/-- A section header (R591). -/
def sectionHeader (len seq source : Nat) (bs : List Byte) : List Byte :=
  leBytes 4 len ++ leBytes 4 seq ++ leBytes 4 (crc32c bs) ++ leBytes 1 source ++ leBytes 3 0
/-- The block header from its block sequence, the sequence of the last shadow copy, and the six section headers (R591). -/
def blockHeader (n seq shadow : Nat) (heads : List Byte) : List Byte :=
  let b := padTo 252 (leBytes 4 0x4B4C_4253 ++ leBytes 2 1 ++ leBytes 2 n ++ leBytes 4 seq ++ leBytes 4 shadow ++
    padTo 96 heads)
  b ++ leBytes 4 (crc32c b)
/-- The block sequence, and the sequence of the last shadow copy, as the header holds them. -/
def State.blockSeq (s : State) : Nat := s.num (aonBase + 8) 4
def State.shadowSeq (s : State) : Nat := s.num (aonBase + 12) 4

/-- The first half of RETAIN: the new section, its target and the raised sequence written into staging, and the mark
(R592). -/
def stageSection (i : Nat) (bs : List Byte) (s : State) : State :=
  { s with aon := { s.aon with
    staging := some { target := i, seq := (s.blockSeq + 1) % 2 ^ 32, bytes := bs, valid := true } } }
/-- The second half: the section that a marked staging area holds copied into place with its header, the block header
rewritten, and the mark cleared (R591, R592). A copy cut short starts again from the start. -/
def finishStaging (s : State) : State :=
  match s.aon.staging with
  | none => s
  | some g =>
    if !g.valid then s
    else
      let heads := s.bytes (aonBase + 16) 96
      let heads := heads.take (16 * g.target) ++ sectionHeader (secLen s.nslices g.target) g.seq 0 g.bytes ++
        heads.drop (16 * g.target + 16)
      let s := (s.poke (aonBase + secOff g.target) g.bytes).poke aonBase (blockHeader s.nslices g.seq s.shadowSeq heads)
      { s with aon := { s.aon with staging := some { g with valid := false } } }
/-- A section written whole: its bytes, its header, the block header with the sequence raised by 1 (R143, R591, R592). -/
def putSection (i : Nat) (bs : List Byte) (s : State) : State := finishStaging (stageSection i bs s)

/-! The shadow (R593). -/

/-- Whether a block's header and a section's header and bytes are good (R593, R594). -/
def headerGood (n : Nat) (b : List Byte) : Bool :=
  decide (leAt b 0 4 = 0x4B4C_4253) && decide (leAt b 4 2 = 1) && decide (leAt b 6 2 = n) &&
  decide (leAt b 252 4 = crc32c (b.take 252))
def sectionGood (n i : Nat) (b : List Byte) : Bool :=
  let h := (b.drop (16 + 16 * i)).take 16
  decide (leAt h 0 4 = secLen n i) && decide (leAt h 4 4 ≤ leAt b 8 4) &&
  decide (leAt h 8 4 = crc32c ((b.drop (secOff i)).take (secLen n i)))
/-- Whether a copy is valid (R593). -/
def copyGood (n : Nat) (b : List Byte) : Bool := headerGood n b && (List.range 6).all (fun i => sectionGood n i b)
/-- The newest valid copy: its sector and its bytes. -/
def newestCopy (s : State) : Option (Nat × List Byte) :=
  (sortBy (fun (x y : Nat × List Byte) => decide (leAt y.2 8 4 < leAt x.2 8 4))
    (s.aon.shadows.filter (fun e => copyGood s.nslices e.2))).head?
/-- Starts an update: the sector after the newest copy is erased, and the block as it stands is to be programmed
(R593). -/
def startShadow (s : State) : State :=
  let k := match newestCopy s with
    | some e => (e.1 + 1) % 15
    | none => 0
  { s with aon := { s.aon with shadows := Tbl.upd k [] s.aon.shadows
                               shadowRun := some (k, s.bytes aonBase 0x6500) } }

/-- RETAIN: copies a section into the retained SRAM, and starts the shadow update when asked (R143). -/
def execRetain (c : Nat) (rd ra rb : BitVec 5) (xmod : BitVec 6) (s : State) : Res :=
  .next (deviceOp c rd ra rb 0x15 xmod.toNat
    (fun s a b => if a < 6 then [⟨b, secLen s.nslices a, true, false⟩] else []) (fun s a b =>
    if 6 ≤ a ∨ b % 8 ≠ 0 then .fail 0x01 0 s
    else
      match placeOf s c b (secLen s.nslices a) false with
      | none => .fail 0x01 0 s
      | some key =>
        let r := readOperand c key (secLen s.nslices a) s
        match r.1 with
        | none => .fail 0x01 0 r.2
        | some bs =>
          if bitSet xmod.toNat 0 && r.2.aon.shadowRun.isSome then .fail 0x50 0 r.2
          else
            let t := putSection a bs r.2
            .ok t.blockSeq (if bitSet xmod.toNat 0 then startShadow t else t)) s)

/-- A shadow update ends: the copy is in its sector, and bytes 12 to 15 of the header take its sequence (R593). -/
def execRetainShadowDone (s : State) : Res :=
  .next (match s.aon.shadowRun with
    | none => s
    | some (k, image) =>
      let s := { s with aon := { s.aon with shadows := Tbl.upd k image s.aon.shadows, shadowRun := none } }
      s.poke aonBase (blockHeader s.nslices s.blockSeq (leAt image 8 4) (s.bytes (aonBase + 16) 96)))

/-! Features in section 3 (R442, R443, R590). -/

/-- The 512 bytes of section 3 from the current features. -/
def classSection (s : State) : List Byte :=
  let f := fun (fid i : Nat) => s.feat fid i
  padTo 512 (
    ((List.range 8).flatMap (fun c => leBytes 4 (f 0xC0 c) ++ leBytes 1 (f 0xC0 (8 + c)) ++ leBytes 11 0)) ++
    ((List.range 128).flatMap (fun q => leBytes 1 (f 0xC0 (17 + q)))) ++
    ((List.range 8).flatMap (fun c => leBytes 1 (f 0xC2 c))) ++ ((List.range 8).flatMap (fun c => leBytes 1 (f 0xC3 c))) ++
    ((List.range 4).flatMap (fun k => leBytes 1 (f 0xC4 k))) ++ leBytes 1 (f 0x19 0))

/-- The features that section 3 holds, restored. -/
def restoreClasses (bs : List Byte) (s : State) : State :=
  let b := fun (off n : Nat) => leAt bs off n
  let s := upTo 8 (fun c s => (s.setFeat 0xC0 c (b (16 * c) 4)).setFeat 0xC0 (8 + c) (b (16 * c + 4) 1)) s
  let s := upTo 128 (fun q s => s.setFeat 0xC0 (17 + q) (b (128 + q) 1)) s
  let s := upTo 8 (fun c s => (s.setFeat 0xC2 c (b (256 + c) 1)).setFeat 0xC3 c (b (264 + c) 1)) s
  (upTo 4 (fun k s => s.setFeat 0xC4 k (b (272 + k) 1)) s).setFeat 0x19 0 (b 276 1)

/-! The restore (R594 to R596). -/

/-- The bits of a register that its fields with a given access hold. -/
def accessMask (fdie : Bool) (d off : Nat) (p : Access → Bool) : Nat :=
  match regRow fdie d off with
  | some r => ((r.flds.filter (fun f => p f.acc)).map (fun f => (2 ^ (f.hi + 1 - f.lo) - 1) * 2 ^ f.lo)).sum
  | none => 0
/-- Restores the RWR fields of a register from its image. -/
def restoreReg (fdie : Bool) (d off : Nat) (v : Nat) (s : State) : State :=
  let m := accessMask fdie d off (fun a => a == .rwr)
  let a := if fdie then fAddr d off else cAddr d off
  s.setReg a (BitVec.ofNat 64 (Nat.land (s.reg a).toNat (2 ^ 64 - 1 - m) + Nat.land v m))
/-- F-die k's calibration block from section 0 (R186). -/
def restoreCal (k : Nat) (bs : List Byte) (s : State) : State :=
  upTo 512 (fun i s => restoreReg true k (0x1000 + 8 * i) (leAt bs (4096 * k + 8 * i) 8) s) s
/-- What a section restores, F-die blocks aside: they are restored as their die leaves reset (R590). -/
def restoreSection (i : Nat) (bs : List Byte) (s : State) : State :=
  if i = 1 then
    let m := leAt bs 0 1 % 8
    let s := (s.setCf 0 0xC000 2 0 m).setCf 0 0xC000 6 4 m
    upTo 12 (fun j s => restoreReg false 0 (0xC100 + 8 * j) (leAt bs (8 + 8 * j) 8) s) s
  else if i = 2 then
    let s := restoreReg false 0 0xF000 (leAt bs 0 8) s
    { s with ring := { s.ring with cfg := s.reg (cAddr 0 0xF000) } }
  else if i = 3 then restoreClasses bs s
  else if i = 4 then
    upTo s.nslices (fun d s => restoreReg false d 0x7108 (leAt bs (16 * d + 8) 8)
      (restoreReg false d 0x7100 (leAt bs (16 * d) 8) s)) s
  else if i = 5 then
    upTo s.nslices (fun d s => upTo 8 (fun e s =>
      restoreReg false d (0x5200 + 8 * e) (leAt bs (2048 * d + 8 * e) 8) s) s) s
  else s

/-- The first source in which a section is valid, and its bytes: 0 the retained SRAM, 1 the newest shadow copy, 2 the
image defaults `dflt`, laid out as a copy (R594, R595). A section that none holds takes register reset values, as the
image's. -/
def sourceOf (i : Nat) (trusted : Bool) (dflt : List Byte) (s : State) : Nat × Option (List Byte) :=
  let n := s.nslices
  let cut := fun (b : List Byte) => (b.drop (secOff i)).take (secLen n i)
  let own := s.bytes aonBase 0x6500
  let copy := newestCopy s
  if trusted && headerGood n own && sectionGood n i own &&
      (match copy with
       | some e => decide (leAt e.2 8 4 ≤ leAt own 8 4)
       | none => true) then (0, some (cut own))
  else
    match copy with
    | some e => (1, some (cut e.2))
    | none => (2, if headerGood n dflt && sectionGood n i dflt then some (cut dflt) else none)

/-- The bytes a section holds while its registers stand at reset values: those of the registers. -/
def resetSection (i : Nat) (s : State) : List Byte :=
  let n := s.nslices
  if i = 0 then (List.range n).flatMap (fun k => (List.range 512).flatMap (fun j =>
    leBytes 8 (pageReset true k (0x1000 + 8 * j)).toNat))
  else if i = 3 then classSection { s with host := { s.host with feat := [] } }
  else if i = 4 then (List.range n).flatMap (fun d =>
    leBytes 8 (pageReset false d 0x7100).toNat ++ leBytes 8 (pageReset false d 0x7108).toNat)
  else List.replicate (secLen n i) 0

/-- The restore of every section from its source, and the rewrite of the whole block with what it restored: the new
block sequence is one more than the highest found (R594, R595). It answers the sources of sections 0 to 5. -/
def restoreBlock (trusted : Bool) (dflt : List Byte) (s : State) : List Nat × State :=
  let n := s.nslices
  let found := (List.range 6).map (fun i => sourceOf i trusted dflt s)
  let own := if headerGood n (s.bytes aonBase 256) then s.blockSeq else 0
  let top := (s.aon.shadows.map (fun e => if copyGood n e.2 then leAt e.2 8 4 else 0)).foldl max
    (max own (if headerGood n dflt then leAt dflt 8 4 else 0))
  let seq := top + 1
  let secs := (List.range 6).map (fun i =>
    let f := found.getD i (2, none)
    (f.1, f.2.isSome, f.2.getD (resetSection i s)))
  let heads := ((List.range 6).zip secs).flatMap (fun e => sectionHeader (secLen n e.1) seq e.2.1 e.2.2.2)
  let shadow := if headerGood n (s.bytes aonBase 256) then s.shadowSeq else 0
  let s := ((List.range 6).zip secs).foldl (fun s e =>
    let s := s.poke (aonBase + secOff e.1) e.2.2.2
    if e.2.2.1 then restoreSection e.1 e.2.2.2 s else s) s
  (secs.map Prod.fst, s.poke aonBase (blockHeader n seq shadow heads))

/-- The record of a restore from another source than the retained SRAM (R595, R609), and sec.stat.src. -/
def reportSources (srcs : List Nat) (s : State) : State :=
  let s := s.setCf 0 0xE000 21 20 (srcs.foldl max 0)
  if srcs.all (fun x => x == 0) then s
  else logFault 0x0001 0xFF 0xFF 0xFF 0xFF (((List.range 6).zip srcs).map (fun e => e.2 * 256 ^ e.1)).sum s

end Sys2Proof.Machine
end

