-- ==== Sys2Proof/Machine/Snapshot.lean ====
section
/-! DEFINITION. Bunting snapshots: the latch, SNAP and SNAPRD (R125, R126, R572 to R574, R612, R613, R624, R625), and the ring
time they use (R561). -/

namespace Sys2Proof.Machine

/-- hr.toff: the signed offset of ring time, ns (R561, R578). -/
def State.toff (s : State) : Int := (s.reg (cAddr 0 0xF020)).toInt
/-- Ring time, ns: the device timebase plus hr.toff, in 64 bits (R561). -/
def State.ringTime (s : State) : Nat := (((s.time : Int) + s.toff) % 2 ^ 64).toNat
/-- hr.stat.state (R578): 0 bypassed, 1 forming, 2 formed, 3 wrapped, 4 refused. -/
def State.ringState (s : State) : Nat := s.cf 0 0xF008 2 0
/-- Whether the ring is formed, wrapped or not (R125, R141, R559). -/
def State.formed (s : State) : Bool := s.ringState == 2 || s.ringState == 3
/-- hr.rot.rot: the measured rotation, ns (R578). -/
def State.rot (s : State) : Nat := s.cf 0 0xF010 31 0

/-- Whether a unit number names a unit of a die, 0 to 3 a C-die and 4 to 7 an F-die (R624). -/
def unitExists (die u : Nat) : Bool :=
  if die < 4 then
    (decide (u < 256) && decide (u % 32 < 6)) || (decide (256 ≤ u) && decide (u ≤ 336)) ||
    (decide (352 ≤ u) && decide (u ≤ 361)) || (decide (384 ≤ u) && decide (u ≤ 391)) ||
    (decide (die = 0) && decide (416 ≤ u) && decide (u ≤ 427)) || (decide (448 ≤ u) && decide (u ≤ 657))
  else decide (u < 6) || (decide (384 ≤ u) && decide (u ≤ 391))
/-- Whether the part has a die of this number. -/
def dieExists (s : State) (die : Nat) : Bool := decide (die % 4 < s.nslices) && decide (die < 8)

/-- The counts as they stand: CORE cycles follow the timebase (R624; log entry 26). -/
def countsNow (s : State) : Tbl Word :=
  (List.range (8 * s.nslices)).foldl (fun t c =>
    Tbl.upd (c / 8 * 1024 + 32 * (c % 8) + 1) (BitVec.ofNat 64 s.cycle) t) s.snap.count

/-- A latch: every unit of every die into its shadow, with an epoch and, for a ring snapshot, its ring time (R573,
R612, R625). -/
def latch (epoch rtime : Nat) (s : State) : State :=
  let now := countsNow s
  { s with snap := { s.snap with value := now, prev := s.snap.value, epoch := epoch, tlatch := s.time, rtime := rtime } }

/-- The 64 bytes of a unit's shadow (R625): all 0 but unit and die while nothing has been latched. -/
def shadowBytes (s : State) (die u : Nat) : List Byte :=
  let k := die * 1024 + u
  leBytes 8 (Tbl.at s.snap.value k).toNat ++ leBytes 8 (Tbl.at s.snap.prev k).toNat ++ leBytes 4 s.snap.epoch ++
  leBytes 2 u ++ leBytes 1 die ++ leBytes 1 0 ++ leBytes 8 s.snap.tlatch ++ leBytes 8 s.snap.rtime ++ leBytes 24 0

/-- Whether a snapshot is outstanding (R125, R572). -/
def State.snapPending (s : State) : Bool := s.snap.pending.isSome || s.snap.ring.isSome
/-- Epoch of ring snapshot n (R572). -/
def ringEpoch (n : Nat) : Nat := 0x8000_0000 + n

/-- The scheduled latches that are due: one, of the ring epoch, when a ring snapshot and a local one fall on the same
tick; otherwise the earlier (R573, R574). -/
def latchDue (s : State) : State :=
  let ringDue := s.snap.ring.filter (fun r => decide (r.time ≤ s.ringTime))
  let localDue := s.snap.pending.filter (fun q => decide (q.tick ≤ s.now))
  let doLocal := fun (q : SnapReq) (s : State) => latch q.epoch 0 { s with snap := { s.snap with pending := none } }
  let doRing := fun (r : SnapRing) (both : Bool) (s : State) =>
    latch (ringEpoch r.n) r.time ((({ s with snap := { s.snap with
      ring := none, pending := if both then none else s.snap.pending } }).setCf 0 0xF028 31 31 0))
  match ringDue, localDue with
  | none, none => s
  | none, some q => doLocal q s
  | some r, none => doRing r false s
  | some r, some q =>
    let tick := tickOf ((r.time : Int) - s.toff).toNat
    if tick = q.tick then doRing r true s else if q.tick < tick then doLocal q s else doRing r false s
/-- The scheduled LOOP tick has come (R125, R573). -/
def execSnapshotLatch (s : State) : Res := .next (latchDue s)

/-- The local epoch after e (R612). -/
def nextEpoch (e : Nat) : Nat := if e = 0x7FFF_FFFF then 1 else e + 1

/-- SNAP, local form (R125). -/
def execSnapLocal (c : Nat) (rd ra rb : BitVec 5) (xhi : BitVec 5) (s : State) : Res :=
  .next (plainOp c rd ra rb 0x09 (2 * xhi.toNat) (fun s a b =>
    if b ≠ 0 ∨ s.time + 10000000000 < a then .fail 0x01 0 s
    else if s.snapPending then .fail 0x20 0 s
    else
      let e := s.snap.localNext
      let tick := if a ≤ s.time then s.now + 1 else tickOf a
      .ok e { s with snap := { s.snap with pending := some ⟨tick, e⟩, localNext := nextEpoch e } }) s)

/-- SNAPRD (R126). -/
def execSnaprd (c : Nat) (rd ra rb : BitVec 5) (xmod : BitVec 6) (s : State) : Res :=
  .next (deviceOp c rd ra rb 0x0A xmod.toNat (fun _ _ b => [⟨b, 64, false, true⟩]) (fun s a b =>
    let die := bitsOf a 2 0
    let u := bitsOf a 12 3
    if b % 64 ≠ 0 ∨ bitsOf a 31 13 ≠ 0 ∨ !dieExists s die ∨ !unitExists die u then .fail 0x01 0 s
    else
      match placeOf s c b 64 true with
      | none => .fail 0x01 0 s
      | some key =>
        if bitSet xmod.toNat 0 && decide (bitsOf a 63 32 ≠ s.snap.epoch) then .fail 0x22 0 s
        else .ok s.snap.epoch (writeOperand c key (shadowBytes s die u) s)) s)

end Sys2Proof.Machine
end

