-- ==== Sys2Proof/Machine/Ring.lean ====
section
/-! DEFINITION. The Halyard ring: frames, formation, ring time, breaks, snapshots and messages (R550 to R566, R572 to
R579). A frame received is an operand of its command: its port, 0 A or 1 B, and its blocks, whose CRC and layout the
model checks. A frame sent joins `ring.out`. -/

namespace Sys2Proof.Machine

/-- The ring port's state replaced. -/
def State.setRing (s : State) (r : Ring) : State := { s with ring := r }
/-- Own position, and whether the package takes part (R551, R556). -/
def State.pos (s : State) : Nat := fld s.ring.cfg 8 0
def State.joins (s : State) : Bool := flag s.ring.cfg 16 && flag s.ring.cfg 9
/-- Whether the bypass is open, so that both rings are retimed (R551). -/
def State.bypassOpen (s : State) : Bool := s.joins && decide (s.ringState ≠ 4) && !s.down
/-- Whether the map holds a position (R554, R557). -/
def State.present (s : State) (p : Nat) : Bool := bitSet s.ring.map p

/-! Frames (R553, R554). -/

/-- The fields of a frame. -/
structure RFrame where
  type : Nat
  src : Nat
  dst : Nat
  bc : Bool
  ring : Nat
  hops : Nat
  seq : Nat
  data : List Word
  deriving DecidableEq, Repr, Inhabited

/-- The header block. -/
def RFrame.header (f : RFrame) : Word :=
  BitVec.ofNat 64 (f.type * 2 ^ 60 + f.src * 2 ^ 51 + f.dst * 2 ^ 42 + b2n f.bc * 2 ^ 41 + f.ring * 2 ^ 40 +
    f.hops * 2 ^ 30 + f.seq * 2 ^ 14 + f.data.length * 2 ^ 10)
/-- CRC-32C over blocks, each in its little-endian bytes. -/
def blocksCrc (bs : List Word) : Nat := crc32c (bs.flatMap (fun w => leBytes 8 w.toNat))
/-- A frame's blocks: header, data, trailer. -/
def RFrame.blocks (f : RFrame) : List Word :=
  let b := f.header :: f.data
  b ++ [BitVec.ofNat 64 (blocksCrc b)]

/-- Whether nblk fits the type, a LOAN with its step (R554). -/
def nblkFits (type n step : Nat) : Bool :=
  if type = 1 ∨ type = 6 then n == 2
  else if type = 2 then n == 8
  else if type = 3 then n == 8 || n == 2
  else if type = 4 ∨ type = 8 then n == 1
  else if type = 5 then n == 1 || (decide (step = 6) && decide (1 ≤ n) && decide (n ≤ 5))
  else if type = 7 then decide (1 ≤ n) && decide (n ≤ 8)
  else if type = 9 then n == 1 || n == 2
  else false

/-- A frame from its blocks; none when its CRC, its type or its nblk is wrong (R553, R554). -/
def parseFrame (blocks : List Word) : Option RFrame :=
  match blocks with
  | [] => none
  | h :: rest =>
    let n := fld h 13 10
    let data := rest.take n
    if rest.length = n + 1 ∧ fld (rest.getD n 0) 31 0 = blocksCrc (h :: data) ∧ nblkFits (fld h 63 60) n (fld (data.getD 0 0) 3 0) then
      some { type := fld h 63 60, src := fld h 59 51, dst := fld h 50 42, bc := flag h 41, ring := fld h 40 40
             hops := fld h 39 30, seq := fld h 29 14, data := data }
    else none

/-- Data block i of a frame, as a number. -/
def RFrame.at_ (f : RFrame) (i : Nat) : Nat := (f.data.getD i 0).toNat

/-- The port a frame of a ring leaves by: toward a silent neighbour it goes back on the other ring (R564). -/
def outPort (s : State) (ring : Nat) : Nat :=
  if ring = 1 ∧ s.cf 0 0xF008 18 18 = 1 then 0 else if ring = 0 ∧ s.cf 0 0xF008 19 19 = 1 then 1 else ring
/-- Sends a frame by a port. -/
def emitFrame (port : Nat) (f : RFrame) (s : State) : State :=
  s.setRing { s.ring with out := s.ring.out ++ [⟨port, f.blocks⟩] }
/-- Takes the next sequence number. -/
def nextSeq (s : State) : Nat × State :=
  (s.ring.seq, s.setRing { s.ring with seq := (s.ring.seq + 1) % 65536 })
/-- Sends an own frame on a ring with a sequence number. -/
def sendOn (ring type dst : Nat) (bc : Bool) (seq : Nat) (data : List Nat) (s : State) : State :=
  emitFrame (outPort s ring) { type := type, src := s.pos, dst := dst, bc := bc, ring := ring, hops := 0, seq := seq
                               data := data.map (BitVec.ofNat 64) } s
/-- Broadcasts an own frame on both rings under one sequence number. -/
def broadcast (type : Nat) (data : List Nat) (s : State) : State :=
  let q := nextSeq s
  sendOn 1 type 0 true q.1 data (sendOn 0 type 0 true q.1 data q.2)

/-- Present positions met from p to q going up, q included and p not (R560). -/
def hopsUp (map p q : Nat) : Nat :=
  ((List.range 512).filter (fun i => decide (1 ≤ i) && decide (i ≤ (q + 512 - p) % 512) &&
    bitSet map ((p + i) % 512))).length
/-- The ring with fewer hops, A on a tie (R575). -/
def shorter (s : State) (dst : Nat) : Nat :=
  if hopsUp s.ring.map s.pos dst ≤ hopsUp s.ring.map dst s.pos then 0 else 1
/-- Sends an own unicast on the ring with fewer hops. -/
def unicast (type dst seq : Nat) (data : List Nat) (s : State) : State := sendOn (shorter s dst) type dst false seq data s

/-- Removes what a frame that came back, or was not claimed, stood for: an own unicast message counts as without a
destination (R576). -/
def returned (f : RFrame) (s : State) : State :=
  if f.type = 7 ∧ !f.bc ∧ s.ring.unacked.any (fun e => e.1 == f.seq) then
    (s.setRing { s.ring with unacked := s.ring.unacked.filter (fun e => e.1 != f.seq) }).count 0 422 1
  else s
/-- Passes a frame on, one hop further; a frame of 1,023 hops is removed (R555). -/
def forward (f : RFrame) (s : State) : State :=
  if 1023 ≤ f.hops + 1 then s else emitFrame (outPort s f.ring) { f with hops := f.hops + 1 } s

/-- What a frame's arrival leads to: with the bypass open it is counted, and dropped when it is malformed (R553);
`body` gives what a sound frame of the type does. A sound frame of another type is another command's. -/
def onFrame (port : Nat) (blocks : List Word) (types : RFrame → Bool) (body : RFrame → State → State)
    (s : State) : State :=
  if !s.bypassOpen || decide (1 < port) then s
  else
    match parseFrame blocks with
    | none => (s.count 0 (416 + port) 1).count 0 418 1
    | some f => if types f then body f (s.count 0 (416 + port) 1) else s

/-! hr.stat (R578, R579). -/

/-- The record of a state change, a time step or a write-off (R579, R609). It notifies core 0 of the lead. -/
def logRing (step off loan : Nat) (s : State) : State :=
  logFault 0x0040 0 0xFF 0 0 (s.ringState + 8 * step + 16 * off + loan * 2 ^ 16) s
/-- Changes hr.stat.state, which is logged (R579). -/
def setRingState (x : Nat) (s : State) : State :=
  if s.ringState = x then s else logRing 0 0 0 (s.setCf 0 0xF008 2 0 x)
/-- The formed state or, with a wrap in force, the wrapped one (R564). -/
def settledState (s : State) : Nat := if s.cf 0 0xF008 19 18 = 0 then 2 else 3

/-! Formation (R556 to R559). -/

/-- The eight data blocks of a presence map. -/
def mapBlocks (m : Nat) : List Nat := (List.range 8).map (fun i => m / 2 ^ (64 * i) % 2 ^ 64)
/-- A presence map from a frame's first eight blocks. -/
def mapOf (data : List Word) : Nat := ((List.range 8).map (fun i => (data.getD i 0).toNat * 2 ^ (64 * i))).sum
/-- Members of a map. -/
def members (m : Nat) : Nat := ((List.range 512).filter (bitSet m)).length

/-- Sends the own FORM on ring A: a map with the own bit alone (R557 step 1). The formed state, if held, is lost, and
wraps end (R559, R565). -/
def sendForm (s : State) : State :=
  let s := setRingState 1 (s.setCf 0 0xF008 19 18 0)
  let q := nextSeq s
  let s := q.2.setRing { q.2.ring with form := some (q.1, s.time), gaveWay := false }
  sendOn 0 2 0 true q.1 (mapBlocks (2 ^ s.pos)) s

/-- Both inputs have held block lock for 1 ms (R557 step 1). A package that does not join shows why (R578). -/
def execRingBlockLock (s : State) : Res :=
  .next (if !s.joins then s.setCf 0 0xF008 7 4 1
    else if s.bypassOpen && (s.ringState == 0 || s.ringState == 1) && s.ring.form.isNone && !s.ring.gaveWay then sendForm s
    else s)

/-- Sets hr.toff. -/
def setToff (x : Int) (s : State) : State := s.setReg (cAddr 0 0xF020) (BitVec.ofInt 64 x)
/-- The real-time clock in ms, 48 bits, when it has been set (R159, R441, R561). -/
def State.rtcMs (s : State) : Option Nat := s.aon.rtc.map (fun b => (b + s.time / 1000000) % 2 ^ 48)

/-- The root's ring time at its first formation since power-up, when no present package has its ring time locked
(R561). -/
def rootTime (othersLocked : Bool) (s : State) : State :=
  if s.ring.formedOnce || othersLocked then s
  else setToff (((s.rtcMs.getD 0) * 1000000 : Nat) - (s.time : Int)) s

/-- The next present position above the own one, round from 511 to 0. -/
def nextPresent (s : State) : Option Nat :=
  ((List.range 511).map (fun i => (s.pos + 1 + i) % 512)).find? s.present

/-- The loans held as borrower from a lender that are in force (R570). -/
def heldFrom (s : State) (lender : Nat) : List Nat :=
  s.ring.loans.filterMap (fun e => match e.2 with
    | some l => if decide (16 ≤ e.1) && l.peer == lender then some l.num else none
    | none => none)
/-- A LOAN confirm's blocks (R554). -/
def confirmBlocks (lender : Nat) (nums : List Nat) : List Nat :=
  (6 + lender * 2 ^ 4 + nums.length * 2 ^ 13) :: (List.range (ceilDiv nums.length 4)).map (fun i =>
    ((List.range 4).map (fun k => nums.getD (4 * i + k) 0 * 2 ^ (16 * k))).sum)
/-- After FORMED, each lender of a loan held is sent a confirm that lists the loans in force (R570). -/
def sendConfirms (s : State) : State :=
  (List.range 512).foldl (fun s p =>
    if heldFrom s p = [] then s
    else let q := nextSeq s; unicast 5 p q.1 (confirmBlocks p (heldFrom s p)) q.2) s

/-- Entering the formed state (R557 step 5, R559, R562, R570): the map, the root, the rotation; a PROBE to the next
neighbour; the confirms. -/
def enterFormed (root map rot hops num : Nat) (s : State) : State :=
  let s := ((s.setCf 0 0xF008 40 32 root).setCf 0 0xF008 31 22 (members map))
  let s := ((s.setCf 0 0xF010 31 0 rot).setCf 0 0xF010 41 32 hops)
  let s := s.setRing { s.ring with
    map := map, form := none, gaveWay := false, part0 := none, part1 := none, formNum := num, formedAt := s.time
    formedOnce := true
    settled := false
    loans := s.ring.loans.map (fun e => (e.1, e.2.map (fun l => { l with confirmed := false }))) }
  let s := (setRingState (settledState s) s).count 0 424 1
  let s := match nextPresent s with
    | some p => let q := nextSeq s; sendOn 0 9 p false q.1 [s.ringTime] q.2
    | none => s
  sendConfirms s

/-- A refused package closes its bypass and shows its reason (R558). -/
def refuseRing (s : State) : State :=
  let s := (setRingState 4 s).setCf 0 0xF008 7 4 s.ring.refuse
  s.setRing { s.ring with refuse := 0, form := none, part0 := none, part1 := none }

/-- The own FORM has returned: this package is the root, and broadcasts FORMED on both rings (R557 step 4). -/
def becomeRoot (sentAt : Nat) (f : RFrame) (othersLocked : Bool) (s : State) : State :=
  let map := mapOf f.data
  let rot := s.time - sentAt
  let hops := f.hops + 1
  let s := rootTime othersLocked s
  let num := s.ring.formNum + 1
  let q := nextSeq s
  let send := fun (r : Nat) (s : State) =>
    sendOn r 3 0 true q.1 [rot + hops * 2 ^ 32, num] (sendOn r 3 0 true q.1 (mapBlocks map) s)
  enterFormed s.pos map rot hops num (send 1 (send 0 q.2))

/-- A FORM that is not the own one's return: from a lower position it is checked, marked and passed on; from a higher
one it is removed (R557 steps 2 and 3). -/
def passForm (f : RFrame) (s : State) : State :=
  let map := mapOf f.data
  if f.src > s.pos then
    (if s.ring.form.isNone && !s.ring.gaveWay then sendForm s else s)
  else
    let s := setRingState 1 (s.setCf 0 0xF008 19 18 0)
    let s := s.setRing { s.ring with form := none, gaveWay := true }
    if bitSet map s.pos then forward f (s.setRing { s.ring with refuse := 2 })
    else if map / 2 ^ (s.pos + 1) ≠ 0 then forward f (s.setRing { s.ring with refuse := 3 })
    else forward { f with data := (mapBlocks (map + 2 ^ s.pos)).map (BitVec.ofNat 64) } s

/-- A FORM arrives (R557). -/
def execFormReceived (port : Nat) (blocks : List Word) (othersLocked : Bool) (s : State) : Res :=
  .next (onFrame port blocks (fun f => f.type == 2) (fun f s =>
    match s.ring.form with
    | some (seq, at_) =>
      if f.src = s.pos ∧ f.seq = seq then becomeRoot at_ f othersLocked s else passForm f s
    | none => passForm f s) s)

/-- A part of FORMED is kept until its partner of the same seq has come (R554). -/
def takePart (f : RFrame) (s : State) : State :=
  let p : FormPart := { seq := f.seq, data := f.data, at_ := s.time }
  if f.data.length = 8 then s.setRing { s.ring with part0 := some p } else s.setRing { s.ring with part1 := some p }

/-- A FORMED frame arrives: passed on, and with both parts of one seq the formed state is entered, or a refusal is
completed (R554, R557 step 5, R558). The copy on the other ring changes nothing. -/
def execFormedReceived (port : Nat) (blocks : List Word) (s : State) : Res :=
  .next (onFrame port blocks (fun f => f.type == 3) (fun f s =>
    if f.src = s.pos then s
    else
      let s := takePart f (forward f s)
      match s.ring.part0, s.ring.part1 with
      | some p, some q =>
        if p.seq ≠ q.seq then s
        else if s.ring.refuse ≠ 0 then refuseRing s
        else
          let w := (q.data.getD 0 0)
          let num := (q.data.getD 1 0).toNat % 2 ^ 32
          if s.formed && decide (s.ring.formNum = num) && decide (s.cf 0 0xF008 40 32 = f.src) then
            s.setRing { s.ring with part0 := none, part1 := none }
          else enterFormed f.src (mapOf p.data) (fld w 31 0) (fld w 41 32) num s
      | _, _ => s) s)

/-- A part of FORMED has waited a rotation without its partner (R554). -/
def execFormedPartTimeout (s : State) : Res :=
  .next (
    let old := fun (p : Option FormPart) => p.filter (fun x => decide (s.time < x.at_ + s.rot))
    s.setRing { s.ring with part0 := old s.ring.part0, part1 := old s.ring.part1 })

/-! Ring time (R561 to R563). -/

/-- A PROBE arrives: it goes back on ring B with the residence time (R562). -/
def execProbeReceived (port : Nat) (blocks : List Word) (residence : Nat) (s : State) : Res :=
  .next (onFrame port blocks (fun f => f.type == 9 && f.data.length == 1 && f.dst == s.pos) (fun f s =>
    let q := nextSeq s
    sendOn 1 9 f.src false q.1 [f.at_ 0, residence % 2 ^ 32] q.2) s)

/-- The PROBE's reply: the link delay is half the round trip less the residence time (R562). -/
def execProbeReplyReceived (port : Nat) (blocks : List Word) (s : State) : Res :=
  .next (onFrame port blocks (fun f => f.type == 9 && f.data.length == 2 && f.dst == s.pos) (fun f s =>
    s.setRing { s.ring with delay := ((s.ringTime - f.at_ 0) * 16 - f.at_ 1 % 2 ^ 32) / 2 }) s)

/-- Every 1 ms the root of a formed ring broadcasts its ring time (R562). -/
def execTimeSend (s : State) : Res :=
  .next (
    let due := match s.ring.timeSent with
      | none => true
      | some t => decide (t + 1000000 ≤ s.time)
    if s.bypassOpen && s.formed && decide (s.cf 0 0xF008 40 32 = s.pos) && due then
      broadcast 1 [s.ringTime, 0] (s.setRing { s.ring with timeSent := some s.time })
    else s)

/-- The lock test of one TIME frame with an error in ns (R562). -/
def timeLock (err : Int) (s : State) : State :=
  let e := err.natAbs
  let good := if e < 20 then s.ring.good + 1 else 0
  let s := s.setRing { s.ring with good := good, lastTime := s.time }
  if 1000 < e then s.setCf 0 0xF008 17 17 0 else if 8 ≤ good then s.setCf 0 0xF008 17 17 1 else s

/-- A TIME frame: the carried time plus the correction, and the delay of the hop before this package, against the own
ring time at arrival. A difference above 10 µs is stepped over, a smaller one slewed; the root, whose own frame
returns, only tests its lock (R561, R562; log entry 27). -/
def takeTime (f : RFrame) (s : State) : State :=
  let carried : Int := (f.at_ 0 : Int) + ((f.at_ 1 + s.ring.delay) / 16 : Nat)
  let err := carried - (s.ringTime : Int)
  if f.src = s.pos then timeLock err s
  else if 10000 < err.natAbs then
    let s := timeLock err ((setToff (s.toff + err) s).setRing { s.ring with slew := 0 })
    logRing 1 0 0 (s.count 0 425 1)
  else timeLock err (s.setRing { s.ring with slew := err })

/-- A TIME frame arrives: it corrects ring time on its first pass and goes on with this package's residence time and
link delay added (R562). -/
def execTimeReceived (port : Nat) (blocks : List Word) (residence : Nat) (s : State) : Res :=
  .next (onFrame port blocks (fun f => f.type == 1) (fun f s =>
    if !s.formed then s
    else if f.src = s.pos then takeTime f s
    else
      let corr := f.at_ 1 + s.ring.delay + residence
      takeTime f (forward { f with data := [BitVec.ofNat 64 (f.at_ 0), BitVec.ofNat 64 corr] } s)) s)

/-- Eight consecutive TIME frames have failed to arrive (R562). -/
def execTimeFramesMissed (s : State) : Res :=
  .next (if s.ring.lastTime + 8000000 ≤ s.time then
      (s.setRing { s.ring with good := 0 }).setCf 0 0xF008 17 17 0
    else s)

/-- One nanosecond of slew every 1 µs: 1,000 ppm (R562; log entry 27). -/
def slewTick (s : State) : State :=
  if s.now % 400 = 0 ∧ s.ring.slew ≠ 0 then
    let d : Int := if 0 < s.ring.slew then 1 else -1
    (setToff (s.toff + d) s).setRing { s.ring with slew := s.ring.slew - d }
  else s

/-! Breaks and wrapping (R564 to R566). -/

/-- The wrap bit of an input: hr.stat[18] for A, [19] for B. -/
def wrapBit (input : Nat) : Nat := 18 + input
/-- This package wraps at an input, counts it, and announces the wrap point; the root takes the rotation measured
(R564, R579). -/
def wrapAt (input rot : Nat) (s : State) : State :=
  let s := (s.setCf 0 0xF008 (wrapBit input) (wrapBit input) 1).count 0 423 1
  let s := if s.formed then setRingState 3 s else s
  let s := if s.cf 0 0xF008 40 32 = s.pos then s.setCf 0 0xF010 31 0 rot else s
  broadcast 4 [s.pos + input * 2 ^ 9] s

/-- An input goes down: the package wraps and asks the silent neighbour, on the working ring of the cable pair, to wrap
too (R564). -/
def execRingInputDown (port rot : Nat) (s : State) : Res :=
  .next (if !s.bypassOpen || decide (1 < port) || decide (s.cf 0 0xF008 (wrapBit port) (wrapBit port) = 1) then s
    else
      let s := wrapAt port rot s
      let q := nextSeq s
      emitFrame (1 - port) { type := 4, src := s.pos, dst := 0, bc := true, ring := 1 - port, hops := 0, seq := q.1
                             data := [BitVec.ofNat 64 (s.pos + port * 2 ^ 9 + 2 ^ 10)] } q.2)

/-- A WRAP arrives: a request wraps the other input of this package, which is the other side of the broken cable pair;
an announcement is passed on, and the root takes the rotation measured (R564). -/
def execWrapReceived (port : Nat) (blocks : List Word) (rot : Nat) (s : State) : Res :=
  .next (onFrame port blocks (fun f => f.type == 4) (fun f s =>
    let input := 1 - bitsOf (f.at_ 0) 9 9
    if bitSet (f.at_ 0) 10 then
      (if s.cf 0 0xF008 (wrapBit input) (wrapBit input) = 1 then s else wrapAt input rot s)
    else if f.src = s.pos then s
    else
      let s := if s.formed then setRingState 3 s else s
      let s := if s.cf 0 0xF008 40 32 = s.pos then s.setCf 0 0xF010 31 0 rot else s
      forward f s) s)

/-- The test of a silent input every 1 ms: after 10 ms of block lock the wrap heals and the ring forms again (R565). -/
def execWrapHealTest (port : Nat) (held : Bool) (s : State) : Res :=
  .next (if s.bypassOpen && held && decide (port ≤ 1) && decide (s.cf 0 0xF008 (wrapBit port) (wrapBit port) = 1) then
      sendForm s
    else s)

/-- A frame for another package is passed on; one that has returned to its source is removed (R555, R576). -/
def execRingFrameForward (port : Nat) (blocks : List Word) (s : State) : Res :=
  .next (onFrame port blocks (fun f => f.src == s.pos || (!f.bc && f.dst != s.pos)) (fun f s =>
    if f.src = s.pos then returned f s else forward f s) s)

/-! Ring-wide snapshots (R572 to R574). -/

/-- Enters a ring snapshot as pending. -/
def pendRing (r : SnapRing) (s : State) : State :=
  let s := { s with snap := { s.snap with ring := some r } }
  ((s.setCf 0 0xF028 30 0 r.n).setCf 0 0xF028 31 31 1).setReg (cAddr 0 0xF030) (BitVec.ofNat 64 r.time)

/-- SNAP, ring-wide form (R125, R572). -/
def execSnapRing (c : Nat) (rd ra rb : BitVec 5) (xhi : BitVec 5) (s : State) : Res :=
  .next (plainOp c rd ra rb 0x09 (2 * xhi.toNat + 1) (fun s a b =>
    if b ≠ 0 then .fail 0x01 0 s
    else if s.snapPending then .fail 0x20 0 s
    else if !s.formed ∨ s.cf 0 0xF008 17 17 = 0 then .fail 0x23 0 s
    else if a < s.ringTime + 2 * s.rot then .fail 0x21 0 s
    else
      let n := (s.cf 0 0xF028 30 0 + 1) % 2 ^ 31
      let s := (pendRing ⟨a, n, s.pos⟩ s).setCf 0 0xF028 33 33 0
      .ok (ringEpoch n) (broadcast 6 [n, a] s)) s)

/-- A SNAP frame arrives: late, it is missed; else it is entered, or settled with a pending one of the same N in favour
of the lower position; one of another N is discarded (R573, R574). -/
def execSnapFrameReceived (port : Nat) (blocks : List Word) (s : State) : Res :=
  .next (onFrame port blocks (fun f => f.type == 6) (fun f s =>
    if f.src = s.pos then s
    else
      let s := forward f s
      let r : SnapRing := { time := f.at_ 1, n := f.at_ 0 % 2 ^ 31, src := f.src }
      match s.snap.ring with
      | some p =>
        if p.n = r.n ∧ r.src < p.src ∧ s.ringTime < r.time then
          (pendRing r s).setCf 0 0xF028 33 33 (if p.src = s.pos then 1 else s.cf 0 0xF028 33 33)
        else s
      | none =>
        if r.time ≤ s.ringTime then
          ((s.setCf 0 0xF028 32 32 1).setCf 0 0xF028 30 0 r.n).count 0 427 1
        else pendRing r s) s)

/-! Management messages (R141, R142, R575 to R577). -/

/-- Delivers a message into the receive queue of 32, or drops it; whether it was delivered (R576, R579). -/
def deliver (m : RingMsg) (s : State) : Bool × State :=
  if s.ring.rx.length < 32 then (true, (s.setRing { s.ring with rx := s.ring.rx ++ [m] }).count 0 419 1)
  else (false, s.count 0 420 1)

/-- RINGSEND: queues a message; one to the own position is delivered here (R141, R575), but is refused like any other while 32
wait to be sent (log entry 128). -/
def execRingsend (c : Nat) (rd ra rb : BitVec 5) (xmod : BitVec 6) (s : State) : Res :=
  .next (deviceOp c rd ra rb 0x13 xmod.toNat (fun _ a b => [⟨a, bitsOf b 21 16, true, false⟩]) (fun s a b =>
    let n := bitsOf b 21 16
    if a % 8 ≠ 0 ∨ n < 1 ∨ 56 < n ∨ bitsOf b 15 10 ≠ 0 ∨ bitsOf b 63 24 ≠ 0 ∨ bitsOf b 23 22 = 3 then .fail 0x01 0 s
    else
      match placeOf s c a n false with
      | none => .fail 0x01 0 s
      | some key =>
        let r := readOperand c key n s
        match r.1 with
        | none => .fail 0x01 0 r.2
        | some bs =>
          let s := r.2
          let own := !bitSet b 9 && decide (bitsOf b 8 0 = s.pos)
          if !s.formed then .fail 0x23 0 s
          else if 32 ≤ s.ring.tx.length then .fail 0x48 0 s
          else
            let q := nextSeq s
            .ok q.1 (if own then (deliver ⟨s.pos, q.1, bs⟩ q.2).2
              else q.2.setRing { q.2.ring with tx := q.2.ring.tx ++
                [⟨bitsOf b 8 0, bitSet b 9, bitsOf b 23 22, q.1, bs⟩] })) s)

/-- A message's data blocks (R554). -/
def msgBlocks (data : List Byte) : List Nat :=
  data.length :: (List.range (ceilDiv data.length 8)).map (fun i => leAt data (8 * i) 8)

/-- Sends the oldest queued message, when the ring is formed and 1 µs has passed since the last (R559, R575, R577). -/
def pumpRing (s : State) : State :=
  let ready := match s.ring.lastMsg with
    | none => true
    | some t => decide (t + 1000 ≤ s.time)
  match s.ring.tx with
  | m :: rest =>
    if s.formed && ready then
      let ring := if m.choice = 1 then 0 else if m.choice = 2 then 1 else if m.bc then 0 else shorter s m.dst
      let s := s.setRing { s.ring with
        tx := rest, lastMsg := some s.time
        unacked := if m.bc then s.ring.unacked else s.ring.unacked ++ [(m.seq, s.time)] }
      sendOn ring 7 m.dst m.bc m.seq (msgBlocks m.data) s
    else s
  | [] => s

/-- The 64 bytes RINGRECV writes (R142). -/
def recvBytes (m : RingMsg) : List Byte :=
  leBytes 2 m.src ++ leBytes 2 m.seq ++ leBytes 1 m.data.length ++ leBytes 3 0 ++ padTo 56 m.data

/-- RINGRECV: pops the oldest received message (R142). -/
def execRingrecv (c : Nat) (rd ra rb : BitVec 5) (xmod : BitVec 6) (s : State) : Res :=
  .next (deviceOp c rd ra rb 0x14 xmod.toNat (fun _ a _ => [⟨a, 64, false, true⟩]) (fun s a b =>
    if a % 64 ≠ 0 ∨ b ≠ 0 then .fail 0x01 0 s
    else
      match placeOf s c a 64 true with
      | none => .fail 0x01 0 s
      | some key =>
        match s.ring.rx with
        | [] => .fail 0x49 0 s
        | m :: rest =>
          .ok (m.data.length + m.src * 2 ^ 8) (writeOperand c key (recvBytes m) (s.setRing { s.ring with rx := rest }))) s)

/-- The payload of a MSG frame. -/
def msgData (f : RFrame) : List Byte :=
  ((f.data.drop 1).flatMap (fun w => leBytes 8 w.toNat)).take (f.at_ 0 % 64)

/-- Whether a broadcast of this source and seq has been delivered within the last rotation (R564; log entry 28). -/
def seenBefore (s : State) (src seq : Nat) : Bool :=
  s.ring.seen.any (fun e => e.1 == src && e.2.1 == seq && decide (s.time ≤ e.2.2 + s.rot))

/-- A MSG arrives: a unicast to this package is delivered or dropped and answered with an ACK; a broadcast is delivered
on its first pass and passed on (R575, R576). -/
def execMsgReceived (port : Nat) (blocks : List Word) (s : State) : Res :=
  .next (onFrame port blocks (fun f => f.type == 7) (fun f s =>
    if f.src = s.pos then returned f s
    else if f.bc then
      let s := forward f s
      if !s.formed || seenBefore s f.src f.seq then s
      else
        let seen := s.ring.seen.filter (fun e => decide (s.time ≤ e.2.2 + s.rot))
        (deliver ⟨f.src, f.seq, msgData f⟩ (s.setRing { s.ring with seen := seen ++ [(f.src, f.seq, s.time)] })).2
    else if f.dst = s.pos then
      let d := deliver ⟨f.src, f.seq, msgData f⟩ s
      let q := nextSeq d.2
      unicast 8 f.src q.1 [f.seq + b2n d.1 * 2 ^ 16] q.2
    else forward f s) s)

/-- An ACK arrives: the message it names is answered (R576). -/
def execAckReceived (port : Nat) (blocks : List Word) (s : State) : Res :=
  .next (onFrame port blocks (fun f => f.type == 8 && f.dst == s.pos && !f.bc) (fun f s =>
    s.setRing { s.ring with unacked := s.ring.unacked.filter (fun e => e.1 != f.at_ 0 % 65536) }) s)

/-- No ACK within 4 rotations: the message counts as lost (R576, R579). -/
def execMsgAckTimeout (seq : Nat) (s : State) : Res :=
  .next (if s.ring.unacked.any (fun e => e.1 == seq && decide (e.2 + 4 * s.rot ≤ s.time)) then
      (s.setRing { s.ring with unacked := s.ring.unacked.filter (fun e => e.1 != seq) }).count 0 421 1
    else s)

end Sys2Proof.Machine
end

