-- ==== Sys2Proof/Machine/Secure.lean ====
section
/-! DEFINITION. The security engine: keys derived at boot (R524), Ensign records (R529 to R535), MEASURE, SEAL and IDENT
(R86, R144 to R146, R526 to R532), the key store (R538 to R542), tamper (R543 to R545) and debug (R546, R547), fuses
and the release of cores (R517, R526, R549). -/

namespace Sys2Proof.Machine

/-- The bytes of an ASCII string. -/
def ascii (t : String) : List Byte := t.toList.map (fun c => BitVec.ofNat 8 c.toNat)
/-- Replaces the security state. -/
def State.setSec (s : State) (x : Secure) : State := { s with sec := x }

/-! Keys (R524, R525). -/

/-- The order of the group of P-384 (FIPS 186; log entry 140). -/
def groupOrder : Nat :=
  0xFFFFFFFFFFFFFFFFFFFFFFFFFFFFFFFFFFFFFFFFFFFFFFFFC7634D81F4372DDF581A0DB248B0A77AECEC196ACCC52973
/-- The private key of a 64-byte HKDF output: taken as a big-endian integer k, it is (k mod (n - 1)) + 1 (R524). -/
def privateKey (out : List Byte) : List Byte := beBytes 48 (ofLe (padTo 64 out).reverse % (groupOrder - 1) + 1)
/-- The DeviceID private key, and its public half. -/
def deviceKey : List Byte := privateKey (Config.hkdf Config.uds [] (ascii "DeviceID"))
def devicePub : List Byte := Config.pubKey deviceKey
/-- The device serial number: the first 8 bytes of the SHA-384 of the DeviceID public key (R524). -/
def deviceSerial : List Byte := (Config.sha384 devicePub).take 8
/-- The 48 bytes of an OEM slot: all 0 while unburnt. -/
def oemBytes (s : State) (n : Nat) : List Byte := padTo 48 (Tbl.at s.sec.oem n)
/-- Whether an OEM slot is burnt. -/
def oemBurnt (s : State) (n : Nat) : Bool := !(Tbl.at s.sec.oem n).isEmpty
/-- The digest of subject 0x0002 (R530). -/
def fuseDigest (s : State) : List Byte :=
  Config.sha384 (Config.vendorHash ++ (List.range 4).flatMap (oemBytes s) ++
    leBytes 1 (((List.range 4).map (fun n => b2n (s.sec.revoked.contains n) * 2 ^ n)).sum) ++
    leBytes 8 (2 ^ s.cf 0 0xE018 5 0 - 1) ++ leBytes 1 s.sec.policy)
/-- The Alias private key of the running image, from the digest of its stage 1 (R524). -/
def aliasKey (stage1 : List Byte) (svn : Nat) (fuse : List Byte) : List Byte :=
  privateKey (Config.hkdf (Config.hkdf Config.uds (Config.sha384 (stage1 ++ leBytes 4 svn ++ fuse)) (ascii "CDI")) []
    (ascii "Alias"))
/-- Whether a key's hash is admitted for images and level 2 debug (R518, R547). -/
def keyAdmitted (s : State) (key : List Byte) : Bool :=
  let h := Config.sha384 key
  if (List.range 4).any (oemBurnt s) then
    (List.range 4).any (fun n => oemBurnt s n && !s.sec.revoked.contains n && decide (oemBytes s n = h))
  else decide (h = Config.vendorHash)

/-! Ensign records (R529 to R535). -/

/-- sec.stat.rec and nmeas follow the open record; the activation record shows while one is open (R549). -/
def showRecord (s : State) : State :=
  let r := match s.sec.act with
    | some a => (2, a.meas.length)
    | none => match s.sec.boot with
      | some b => (1, b.meas.length)
      | none => (0, 0)
  (s.setCf 0 0xE000 31 30 r.1).setCf 0 0xE000 7 0 r.2
/-- A measurement entry (R529). -/
def measEntry (subject level core : Nat) (digest : List Byte) : List Byte :=
  leBytes 2 subject ++ leBytes 1 level ++ leBytes 1 core ++ leBytes 4 0 ++ padTo 48 digest
/-- The last closed record, all 0 when there is none. -/
def lastRecord (s : State) : Option (List Byte) := ((s.sec.history ++ s.sec.appends ++ s.sec.ring).getLast?)
/-- The 1,024 bytes of a record that closes now (R529). -/
def recordBytes (r : OpenRec) (sealed : Bool) (s : State) : List Byte :=
  let act := decide (r.kind = 2)
  let tev := s.cf 0 0xE028 14 8
  let flags := b2n sealed + 2 * b2n s.sec.debugHeld + 4 * b2n s.keys.keks.isEmpty + 8 * b2n (tev != 0) +
    16 * b2n s.sec.ringLost + 32 * b2n (s.sec.keyImport && decide (r.kind = 1))
  let head := leBytes 4 0x5253_4E45 ++ leBytes 2 1 ++ leBytes 1 r.kind ++ leBytes 1 r.meas.length ++
    leBytes 8 s.sec.nextSeq ++ leBytes 4 s.flt.boots ++ leBytes 4 0 ++ leBytes 8 s.identity.toNat ++ leBytes 8 s.time ++
    leBytes 8 (s.rtcMs.getD 0 % 2 ^ 48) ++ leBytes 2 (if act then 0 else r.reset) ++
    leBytes 1 (if act then 0 else s.cf 0 0xD088 7 0) ++ leBytes 1 (if act then 0 else s.cf 0 0xD088 10 8) ++
    leBytes 1 (s.cf 0 0xE000 21 20) ++ leBytes 1 (if r.kind = 3 then 0xFF else r.slot) ++ leBytes 1 flags ++
    leBytes 1 0 ++ leBytes 4 r.svn ++ leBytes 4 tev ++
    (match lastRecord s with
     | some b => padTo 48 (Config.sha384 b)
     | none => leBytes 48 0) ++ leBytes 16 0 ++ padTo 784 r.meas.flatten
  head ++ padTo 96 (Config.sign deviceKey head) ++ leBytes 16 0
/-- Closes a record: signed, into the ring of 64, to the flash history unless it is of kind 3, and event 0xC0 (R533,
R534). The marks since the last record clear (R549). -/
def closeRecord (r : OpenRec) (sealed : Bool) (s : State) : State :=
  let bs := recordBytes r sealed s
  let ring := s.sec.ring ++ [bs]
  let seq := s.sec.nextSeq
  let s := s.setSec { s.sec with
    ring := ring.drop (ring.length - 64)
    appends := if r.kind = 3 then s.sec.appends else s.sec.appends ++ [bs]
    nextSeq := seq + 1, debugHeld := false, ringLost := false
    keyImport := s.sec.keyImport && decide (r.kind ≠ 1)
    boot := if r.kind = 1 then none else s.sec.boot
    act := if r.kind = 2 then none else s.sec.act }
  let s := (s.setCf 0 0xE028 14 8 0).setCf 0 0xE030 63 32 (seq % 2 ^ 32)
  raiseAsync 7 0xC0 0xC0 (showRecord s)
/-- Adds a measurement to the boot record, or to the activation record. -/
def addBoot (subject level core : Nat) (digest : List Byte) (s : State) : State :=
  showRecord (s.setSec { s.sec with boot := s.sec.boot.map (fun b =>
    { b with meas := b.meas ++ [measEntry subject level core digest] }) })
def addAct (subject level core : Nat) (digest : List Byte) (s : State) : State :=
  showRecord (s.setSec { s.sec with act := s.sec.act.map (fun b =>
    { b with meas := b.meas ++ [measEntry subject level core digest] }) })

/-- MEASURE: extends the record open to the core's level (R144, R531). -/
def execMeasure (c : Nat) (rd ra rb : BitVec 5) (xmod : BitVec 6) (s : State) : Res :=
  .next (deviceOp c rd ra rb 0x16 xmod.toNat (fun _ a _ => [⟨a, 48, true, false⟩]) (fun s a b =>
    if a % 8 ≠ 0 ∨ 0xFFFF < b then .fail 0x01 0 s
    else
      match placeOf s c a 48 false with
      | none => .fail 0x01 0 s
      | some key =>
        let r := readOperand c key 48 s
        let s := r.2
        match r.1 with
        | none => .fail 0x01 0 s
        | some bs =>
          let lvl := (s.core c).level
          if b < 0x0100 then .fail 0x01 0 s
          else
            match (if lvl = .boot ∧ !s.sealed then s.sec.boot.map (fun x => (x, 13))
                else if lvl = .supervisor then s.sec.act.map (fun x => (x, 14)) else none) with
            | none => .fail 0x58 1 s
            | some (x, most) =>
              if most ≤ x.meas.length then .fail 0x58 2 s
              else if lvl = .boot then .ok (x.meas.length + 1) (addBoot b 3 c bs s)
              else .ok (x.meas.length + 1) (addAct b lvl.code c bs s)) s)

/-- Offsets of the registers of a page with an RWB field, in ascending order (R527). -/
def rwbOffsets (fdie : Bool) (d : Nat) : List Nat :=
  sortBy (fun (a b : Nat) => decide (a < b))
    ((regRows.filter (fun r => r.holds fdie d r.base && r.flds.any (fun f => f.acc == .rwb))).flatMap
      (fun r => (List.range r.count).map (fun i => r.base + r.stride * i)))
/-- The protection set-up digest (R527). -/
def setupDigest (s : State) : List Byte :=
  Config.sha384 (
    ((List.range (8 * s.nslices)).flatMap (fun c =>
      let k := s.core c
      (k.rgnBase.toList ++ k.rgnAttr.toList ++ [k.bar]).flatMap (fun w => leBytes 8 w.toNat))) ++
    ((List.range s.nslices).flatMap (fun d =>
      (rwbOffsets false d).flatMap (fun o => leBytes 8 (s.reg (cAddr d o)).toNat))) ++
    ((List.range s.nslices).flatMap (fun d =>
      (rwbOffsets true d).flatMap (fun o => leBytes 8 (s.reg (fAddr d o)).toNat))))

/-- What an accepted SEAL does (R86, R522, R527): the digest into the boot record, the record closed with sealed = 1, a
trial slot made active, the tamper classes copied, debug locked; a session that is unlocked lasts on (R547; log entry 141). -/
def sealNow (s : State) : State :=
  let dig := setupDigest s
  let s := { s with sealed := true }
  let s := s.setSec { s.sec with setup := dig }
  let s := match s.sec.boot with
    | some _ =>
      let s := addBoot 0x0008 3 0 dig s
      match s.sec.boot with
      | some b =>
        let s := closeRecord b true s
        if s.sec.tried ∧ s.sec.trial = some b.slot then
          s.setSec { Secure.setControl b.slot none s.sec with tried := false }
        else s
      | none => s
    | none => s
  let s := s.setSec { s.sec with tclsCopy := some (s.cf 0 0xE020 13 0) }
  if s.cf 0 0xE000 27 26 = 1 then s.setCf 0 0xE000 27 26 0 else s

/-- SEAL, which only Boot level may issue (R86, R91, R145). -/
def execSeal (c : Nat) (rd ra rb : BitVec 5) (xmod : BitVec 6) (s : State) : Res :=
  .next (plainOp c rd ra rb 0x17 xmod.toNat (fun s a b =>
    if a ≠ 0 ∨ b ≠ 0 then .fail 0x01 0 s
    else if s.sealed then .fail 0x60 1 s
    else if c ≠ 0 then .fail 0x60 2 s
    else if (List.range (8 * s.nslices)).any (fun d => d != 0 && (s.core d).run != .inReset && (s.core d).level == .boot)
      then .fail 0x60 3 s
    else .ok 0 (sealNow s)) s)

/-- IDENT: the identity value, or the issuer's place (R146, R620). -/
def identOp (c : Nat) (rd ra rb : BitVec 5) (xmod : Nat) (v : State → Nat) (s : State) : State :=
  plainOp c rd ra rb 0x18 xmod (fun s a b => if a ≠ 0 ∨ b ≠ 0 then .fail 0x01 0 s else .ok (v s) s) s
def execIdentValue (c : Nat) (rd ra rb : BitVec 5) (s : State) : Res :=
  .next (identOp c rd ra rb 0 (fun s => s.identity.toNat) s)
def execIdentPlace (c : Nat) (rd ra rb : BitVec 5) (s : State) : Res :=
  .next (identOp c rd ra rb 1 (fun s => (s.place false (c / 8)).toNat) s)

/-- A write of close to sec.ens closes an open activation record (R532, R549). -/
def ensignClose (s : State) : State :=
  match s.sec.act with
  | some a => closeRecord a s.sealed s
  | none => s
def execEnsignClose (s : State) : Res := .next (whileUp s ensignClose)
/-- The append of the oldest waiting record ends: a full history first loses its oldest sector of 64 records; a failed
program leaves the record waiting (R533, R535). -/
def flashAppend (ok : Bool) (s : State) : State :=
  match s.sec.appends with
  | b :: rest =>
    if !ok then s
    else
      let full := decide (15360 ≤ s.sec.history.length)
      let h := if full then s.sec.history.drop 64 else s.sec.history
      let s := s.setSec { s.sec with history := h ++ [b], appends := rest }
      if full then s.setCf 0 0xE000 25 25 1 else s
  | [] => s
def execEnsignFlashAppend (ok : Bool) (s : State) : Res := .next (whileUp s (flashAppend ok))
/-- At a boot the records that wait are appended before the boot record is opened; whether the flash takes one is free, and
one it does not take waits on with those after it (R533, R535). -/
def appendWaiting (s : State) : State :=
  upTo s.sec.appends.length (fun _ s =>
    let n := s.freshNat
    flashAppend (n.1 % 2 == 0) n.2) s
/-- The boot record is still open 60 s after the release of core 0: it closes unsealed (R528). -/
def execBootRecordTimeout (s : State) : Res :=
  .next (whileUp s (fun s => match s.sec.boot with
    | some b => if b.openedAt + 60000000000 ≤ s.time then closeRecord b false s else s
    | none => s))
/-- The activation record closes at t + 2 s (R532). -/
def execActivationRecordTimeout (s : State) : Res :=
  .next (whileUp s (fun s => match s.sec.act with
    | some a => if a.openedAt + 2000000000 ≤ s.time then closeRecord a s.sealed s else s
    | none => s))

/-! Tamper (R543 to R545). -/

/-- sec.stat.ks (R549): no KEK held before locked. -/
def showKeys (s : State) : State :=
  s.setCf 0 0xE000 29 28 (if s.keys.keks.isEmpty then 0 else if s.keys.locked then 2 else 1)
/-- The class of a source: sec.tcls while the dies run, else the copy of the last seal, or the reset values (R544). -/
def tamperClass (s : State) (src : Nat) : Nat :=
  let t := if s.down then s.sec.tclsCopy.getD 2 else s.cf 0 0xE020 13 0
  min 2 (bitsOf t (2 * src + 1) (2 * src))
/-- Whether a WRITE carries user frames: a frame's metadata has kind 0x00 (R160). -/
def carriesUser (s : State) (o : Chop) : Bool :=
  o.list.any (fun h => (List.range 30).any (fun j => s.byte (handleAddr h + 122880 + 256 * j + 5) == 0))
/-- Running WRITEs of user frames are to end with cstat 0x02 (R545). -/
def stopUserWrites (s : State) : State :=
  upTo s.nslices (fun k s => s.setQueue k ((s.channel k).queue.map (fun o =>
    if o.op = 2 ∧ o.started ∧ o.stopWith = 0 ∧ carriesUser s o then { o with stopWith := 2 } else o))) s
/-- Ends a running key-store command with a result (R542). -/
def endKeyCommand (result : Nat) (s : State) : State :=
  ((s.setSec { s.sec with key := none }).setCf 0 0xE050 8 8 0).setCf 0 0xE050 3 0 result
/-- A Lock (R544, R545). -/
def lockKeys (s : State) : State :=
  let s := { s with keys := { s.keys with locked := true } }
  stopUserWrites (showKeys (if s.sec.key.isSome then endKeyCommand 4 s else s))
/-- An Erase (R544, R545): every KEK and media key, and the debug state. -/
def eraseKeys (s : State) : State :=
  let s := { s with keys := { s.keys with keks := [], media := [] } }
  let s := if s.sec.key.isSome then endKeyCommand 3 s else s
  stopUserWrites (showKeys ((s.setSec { s.sec with nonce := [], jtag := .idcode }).setCf 0 0xE000 27 26 0))
/-- A tamper event (R544). -/
def tamperEvent (src : Nat) (s : State) : State :=
  if 6 < src then s
  else
    let cls := tamperClass s src
    let s := (s.setCf 0 0xE028 src src 1).setCf 0 0xE028 (8 + src) (8 + src) 1
    let s := if s.down then s else logFault 0x0041 0 src 0xFF 0xFF (src + cls * 8) s
    if cls = 0 then s else if cls = 1 then lockKeys s else eraseKeys s
def execTamperEvent (src : Nat) (s : State) : Res :=
  .next (if s.down ∧ (src = 3 ∨ src = 4) then s else tamperEvent src s)
def execMeshTamper (s : State) : Res := .next (tamperEvent 0 s)
/-- TAMP_LID has had a level for 1 ms: coming to high is an event (R543). -/
def execLidTamper (high : Bool) (s : State) : Res :=
  .next (let was := s.cf 0 0xE028 7 7
    let s := s.setCf 0 0xE028 7 7 (b2n high)
    if high ∧ was = 0 then tamperEvent 6 s else s)
/-- Modelled temperature out of range: a die below −20 °C for 16 evaluations, or a diode more than 20 °C from node 1;
only while the dies run (R543). -/
def execTemperatureTamper (die : Nat) (s : State) : Res :=
  .next (whileUp s (fun s =>
    let t := Tbl.at s.therm die
    let gap := t.diode - (t.t.getD 1 0 + t.off)
    if dieExists s die ∧ (16 ≤ t.cold ∨ 20 < gap ∨ gap < -20) then tamperEvent 4 s else s))

/-! Debug (R546, R547). -/

/-- Whether every JTAG instruction is served: policy dev before seal, or an open session. -/
def debugOpen (s : State) : Bool := decide (s.cf 0 0xE000 27 26 ≠ 0)
/-- Whether an open session lets the port reach n bytes of a core's memory: in a level 2 session each must lie in one of the
core's regions (R547). -/
def debugReaches (s : State) (c a n : Nat) : Bool :=
  s.hasCore c && (decide (s.cf 0 0xE000 27 26 ≠ 2) ||
    (List.range n).all (fun i => (List.range 64).any (regionHolds (s.core c) (a + i))))
/-- A served instruction's effect: an unlock presents a fresh nonce; halt and resume act on a deck core, reads and writes on
memory as the core reaches it (R547; log entry 142). -/
def serveJtag (j : Jtag) (s : State) : State :=
  let s := s.setSec { s.sec with jtag := j }
  match j with
  | .unlock =>
    let n := s.freshNat
    n.2.setSec { n.2.sec with nonce := (List.range 32).map (Config.drbg n.1) }
  | .halt c =>
    if s.hasCore c ∧ ((s.core c).run = .running ∨ (s.core c).run = .wfe) then
      s.modCore c (fun k => { k with run := .halted, kickAt := s.time - k.kickAt })
    else s
  | .resume c =>
    if s.hasCore c ∧ (s.core c).run = .halted then
      s.modCore c (fun k => { k with run := .running, kickAt := s.time - k.kickAt })
    else s
  | .read c a n =>
    if debugReaches s c a n then
      (match placeOf s c a n false with
       | some key => s.setSec { s.sec with tdo := s.bytes key n }
       | none => s)
    else s
  | .write c a data =>
    if debugReaches s c a data.length then
      (match placeOf s c a data.length false with
       | some key => writeOperand c key data s
       | none => s)
    else s
  | _ => s
/-- A JTAG instruction is loaded: served, or replaced by BYPASS; a replaced one after seal is tamper source 5 (R546,
R547). -/
def execJtagInstruction (j : Jtag) (s : State) : Res :=
  .next (whileUp s (fun s =>
    let always := j == .idcode || j == .bypass || j == .sample || j == .unlock
    if always || debugOpen s then serveJtag j s
    else
      let s := s.setSec { s.sec with jtag := .bypass }
      if s.sealed then tamperEvent 5 s else s))
/-- An unlock response: level 2 under an admitted OEM key, level 3 under the vendor key with policy fa, which erases the
key store first; a failed one is tamper source 5 (R547). -/
def execDebugUnlock (level : Nat) (key sig : List Byte) (s : State) : Res :=
  .next (whileUp s (fun s =>
    if s.sec.nonce = [] then s
    else
      let msg := s.sec.nonce ++ deviceSerial ++ leBytes 1 level
      let ok := Config.verify key msg sig &&
        ((decide (level = 2) && keyAdmitted s key) ||
         (decide (level = 3) && bitSet s.sec.policy 1 && decide (Config.sha384 key = Config.vendorHash)))
      let s := s.setSec { s.sec with nonce := [] }
      if !ok then tamperEvent 5 s
      else
        let s := if level = 3 then eraseKeys s else s
        (s.setSec { s.sec with debugHeld := true }).setCf 0 0xE000 27 26 level))

/-! The key store (R538 to R542). -/

/-- A write of sec.kcmd by core c: refused while a command runs, result 10 for an unlisted op (R540, R549). -/
def kcmd (c op drive offset : Nat) (s : State) : State :=
  if s.sec.key.isSome then s
  else if op = 0 ∨ 6 < op then s.setCf 0 0xE050 3 0 10
  else
    let q : KeyCmd :=
      { op := op, core := c, drive := drive, keyId := s.cf 0 0xE040 63 32, handle := s.cf 0 0xE040 31 0,
        offset := offset }
    let s := s.setSec { s.sec with key := some q }
    (s.setCf 0 0xE050 8 8 1).setCf 0 0xE050 3 0 2
def execKeyGenerate (c : Nat) (own : Bool) (drive : BitVec 2) (offset : BitVec 10) (s : State) : Res :=
  .next (regAccess c .store own false 0 0xE048 false (kcmd c 1 drive.toNat offset.toNat) s)
def execKeyLoad (c : Nat) (own : Bool) (drive : BitVec 2) (offset : BitVec 10) (s : State) : Res :=
  .next (regAccess c .store own false 0 0xE048 false (kcmd c 2 drive.toNat offset.toNat) s)
def execKeyEvict (c : Nat) (own : Bool) (drive : BitVec 2) (s : State) : Res :=
  .next (regAccess c .store own false 0 0xE048 false (kcmd c 3 drive.toNat 0) s)
def execKeyEvictDrive (c : Nat) (own : Bool) (drive : BitVec 2) (s : State) : Res :=
  .next (regAccess c .store own false 0 0xE048 false (kcmd c 4 drive.toNat 0) s)
def execKeyCreateKek (c : Nat) (own : Bool) (s : State) : Res :=
  .next (regAccess c .store own false 0 0xE048 false (kcmd c 5 0 0) s)
def execKeyEscrow (c : Nat) (own : Bool) (offset : BitVec 10) (s : State) : Res :=
  .next (regAccess c .store own false 0 0xE048 false (kcmd c 6 0 offset.toNat) s)

/-- n fresh bytes of the DRBG (R538). -/
def randomBytes (n : Nat) (s : State) : List Byte × State :=
  let r := s.freshNat
  ((List.range n).map (Config.drbg r.1), r.2)
/-- A drive's media keys. -/
def mediaOf (s : State) (k : Nat) : List MediaKey := s.keys.media.filter (fun m => m.drive == k)
/-- A wrapped media key (R539). -/
def wrapKey (id : Nat) (kek : Kek) (iv key : List Byte) : List Byte :=
  let aad := leBytes 4 0x594B_4D57 ++ leBytes 4 id ++ padTo 16 kek.kid
  let ct := padTo 48 (Config.gcmSeal kek.key iv aad key)
  aad ++ padTo 12 iv ++ leBytes 12 0 ++ ct ++ leBytes 32 0
/-- The escrow blob of a KEK under a recipient's public key, from an ephemeral secret (R540). -/
def escrowBlob (kek : Kek) (recipient eph iv : List Byte) : List Byte :=
  let aad := leBytes 4 0x5743_5345 ++ padTo 16 kek.kid ++ padTo 48 (Config.sha384 recipient)
  let k := Config.hkdf (Config.ecdh eph recipient) kek.kid (ascii "ZOA escrow")
  aad ++ padTo 96 (Config.pubKey eph) ++ padTo 12 iv ++ padTo 48 (Config.gcmSeal k iv aad kek.key) ++ leBytes 32 0

/-- What a key-store command comes to: its result, and the state with its effect (R540, R542). -/
def keyResult (q : KeyCmd) (s : State) : Nat × State :=
  let len := if q.op = 6 then 256 else 128
  let named := q.op = 1 ∨ q.op = 2 ∨ q.op = 6
  let at_ := handleAddr q.handle + 128 * q.offset
  let bufOk := handleOk s q.handle &&
    (s.buf (handleDie q.handle) (handleIndex q.handle)).owners.contains q.core &&
    decide ((s.buf (handleDie q.handle) (handleIndex q.handle)).gen.toNat = handleGen q.handle) &&
    decide (128 * q.offset + len ≤ 131072)
  let driveOk := decide (q.op ≤ 4) && decide (s.nslices ≤ q.drive)
  if (named ∧ !bufOk) ∨ driveOk ∨ (q.op = 1 ∧ q.keyId = 0) then (10, s)
  else if s.keys.locked then (4, s)
  else if named ∧ s.keys.keks = [] then (3, s)
  else
    let mine := mediaOf s q.drive
    let addMedia := fun (id : Nat) (key : List Byte) (s : State) =>
      { s with keys := { s.keys with media := s.keys.media ++ [{ drive := q.drive, id := id, key := key }] } }
    if q.op = 1 then
      if mine.any (fun m => m.id == q.keyId) then (7, s)
      else if 16 ≤ mine.length then (8, s)
      else
        match s.keys.keks.getLast? with
        | none => (3, s)
        | some kek =>
          let r := randomBytes 32 s
          let v := randomBytes 12 r.2
          (1, privWrite 0 0x30 at_ (wrapKey q.keyId kek v.1 r.1) (addMedia q.keyId r.1 v.2))
    else if q.op = 2 then
      let b := s.bytes at_ 128
      let id := leAt b 4 4
      match s.keys.keks.find? (fun x => decide (x.kid = (b.drop 8).take 16)) with
      | none => (if leAt b 0 4 = 0x594B_4D57 ∧ id ≠ 0 then 5 else 6, s)
      | some kek =>
        if leAt b 0 4 ≠ 0x594B_4D57 ∨ id = 0 then (6, s)
        else
          match Config.gcmOpen kek.key ((b.drop 24).take 12) (b.take 24) ((b.drop 48).take 48) with
          | none => (6, s)
          | some key =>
            if mine.any (fun m => m.id == id) then (7, s)
            else if 16 ≤ mine.length then (8, s)
            else (1, addMedia id key s)
    else if q.op = 3 then
      if mine.any (fun m => m.id == q.keyId) then
        (1, { s with keys := { s.keys with media := s.keys.media.filter (fun m =>
          !(m.drive == q.drive && m.id == q.keyId)) } })
      else (5, s)
    else if q.op = 4 then
      (1, { s with keys := { s.keys with media := s.keys.media.filter (fun m => m.drive != q.drive) } })
    else if q.op = 5 then
      if 4 ≤ s.keys.keks.length then (8, s)
      else
        let i := randomBytes 16 s
        let r := randomBytes 32 i.2
        (1, { r.2 with keys := { r.2.keys with keks := r.2.keys.keks ++ [{ kid := i.1, key := r.1 }] } })
    else
      if s.sec.escrow = [] then (9, s)
      else
        match s.keys.keks.find? (fun x => decide (x.kid = s.bytes at_ 16)) with
        | none => (5, s)
        | some kek =>
          let e := randomBytes 48 s
          let v := randomBytes 12 e.2
          (1, privWrite 0 0x30 at_ (escrowBlob kek s.sec.escrow e.1 v.1) v.2)

/-- The running key-store command ends (R540, R542). A word of its buffer that the security engine finds uncorrectable is a
controlled stop (R420, R604 code 6). -/
def execKeyCommandEnd (s : State) : Res :=
  .next (whileUp s (fun s =>
    match s.sec.key with
    | none => s
    | some q =>
      let at_ := handleAddr q.handle + 128 * q.offset
      let n := if q.op = 2 then 128 else if q.op = 6 then 16 else 0
      let b := if handleOk s q.handle then privRead 0 at_ n s else (none, s)
      match b.1 with
      | some w => controlledStop 6 (logUncorrectable 0x30 w b.2)
      | none =>
        let r := keyResult q b.2
        showKeys (endKeyCommand r.1 r.2)))

/-! Fuses and the release of cores (R517, R526, R549). -/

/-- A write of sec.fprog: targets 0 to 3 burn an OEM key hash from sec.fbuf, 4 to 7 revoke a slot, others have no effect; a
burnt slot refuses. Where the burn does not verify, what the fuses hold is free. -/
def fuseProgram (target : Nat) (verified : Bool) (s : State) : State :=
  let s := s.setCf 0 0xE060 3 0 target
  if target < 4 then
    if oemBurnt s target then s.setCf 0 0xE000 11 8 2
    else if verified then
      let h := (List.range 6).flatMap (fun i => leBytes 8 (s.reg (cAddr 0 (0xE100 + 8 * i))).toNat)
      (s.setSec { s.sec with oem := Tbl.upd target h s.sec.oem }).setCf 0 0xE000 11 8 1
    else
      let n := s.freshNat
      (n.2.setSec { n.2.sec with oem := Tbl.upd target (leBytes 48 n.1) n.2.sec.oem }).setCf 0 0xE000 11 8 3
  else if target < 8 then
    if verified then
      (s.setSec { s.sec with revoked := (target - 4) :: s.sec.revoked.filter (fun x => x != target - 4) }).setCf
        0 0xE000 11 8 1
    else
      let n := s.freshNat
      let r := if n.1 % 2 = 1 then (target - 4) :: s.sec.revoked.filter (fun x => x != target - 4) else s.sec.revoked
      (n.2.setSec { n.2.sec with revoked := r }).setCf 0 0xE000 11 8 3
  else s
def execFuseBurnOemHash (c : Nat) (own : Bool) (target : BitVec 2) (verified : Bool) (s : State) : Res :=
  .next (regAccess c .store own false 0 0xE060 true (fuseProgram target.toNat verified) s)
def execFuseRevokeSlot (c : Nat) (own : Bool) (target : BitVec 2) (verified : Bool) (s : State) : Res :=
  .next (regAccess c .store own false 0 0xE060 true (fuseProgram (4 + target.toNat) verified) s)
/-- A write of sec.svn: a value above the floor burns the floor up to it; a lower one has no effect (R549). -/
def svnBurn (v : Nat) (s : State) : State :=
  if s.cf 0 0xE018 5 0 < v then (s.setCf 0 0xE018 13 8 v).setCf 0 0xE018 5 0 v else s
def execSvnBurn (c : Nat) (own : Bool) (value : BitVec 6) (s : State) : Res :=
  .next (regAccess c .store own false 0 0xE018 true (svnBurn value.toNat) s)
/-- A write of sec.rel: each 1 releases a core, which comes to sec.entry at Boot level (R526). -/
def coreRelease (mask : Nat) (s : State) : State :=
  upTo (8 * s.nslices) (fun i s =>
    if bitSet mask i ∧ s.cf 0 0xE008 i i = 0 then
      (s.setCf 0 0xE008 i i 1).setCore i
        { s.core i with run := .running, level := .boot, pc := BitVec.ofNat 64 (s.cf 0 0xE010 39 2 * 4), kickAt := s.time }
    else s) s
def execCoreRelease (c : Nat) (own : Bool) (mask : BitVec 32) (s : State) : Res :=
  .next (regAccess c .store own false 0 0xE008 true (coreRelease mask.toNat) s)

end Sys2Proof.Machine
end

