-- ==== Sys2Proof/Machine/Channel.lean ====
section
/-! DEFINITION. The media channel: CHOP's acceptance (R136, R138, R346, R654), a CHOP's start and end (R237, R267, R309,
R339, R352), and the positioning of its head (R244 to R247). -/

namespace Sys2Proof.Machine

/-! Heads and the operation that runs. -/

/-- A head of drive k's read channel. -/
def State.head (s : State) (k h : Nat) : Head := Tbl.at (s.channel k).heads h
/-- Updates a head. -/
def State.modHead (s : State) (k h : Nat) (f : Head → Head) : State :=
  s.setChannel k { s.channel k with heads := Tbl.upd h (f (s.head k h)) (s.channel k).heads }
/-- A field of srv.rdy[h] (R233). -/
def srvRdy (s : State) (k h hi lo : Nat) : Nat := s.cf k (0x4100 + 8 * h) hi lo
/-- Sets a field of srv.rdy[h]. -/
def setRdy (k h hi lo x : Nat) (s : State) : State := s.setCf k (0x4100 + 8 * h) hi lo x
/-- The operation at the front of drive k's queue. -/
def State.front (s : State) (k : Nat) : Option Chop := (s.channel k).queue.head?
/-- Updates the operation at the front of drive k's queue. -/
def State.modFront (s : State) (k : Nat) (f : Chop → Chop) : State :=
  match (s.channel k).queue with
  | [] => s
  | o :: rest => s.setQueue k (f o :: rest)
/-- Whether the head has an operation queued or running. -/
def headUsed (s : State) (k h : Nat) : Bool := (s.channel k).queue.any (fun o => pfaSide o.pfa == h)
/-- The head of an operation. -/
def Chop.head (o : Chop) : Nat := pfaSide o.pfa
/-- Beams in service of head h (R189). -/
def beamsOf (s : State) (k h : Nat) : Nat := if h = 0 then s.cf k 0x4010 15 4 else s.cf k 0x4010 27 16

/-- The media channel writes bytes of an engine's staging area and posts it (R213, R244, R332). -/
def stagePost (k l off : Nat) (bs : List Byte) (s : State) : State :=
  paramPost k l (s.poke (cAddr k (0x1_0000 + 0x1000 * l + off)) bs)
/-- A rung 2 offset in nm is written for an engine (R332). -/
def postOffset (k l seq : Nat) (nm : Int) (s : State) : State :=
  stagePost k l 0x7B0 (leBytes 4 seq ++ leBytes 2 (toField 16 nm) ++ leBytes 2 0) s
/-- Both offsets of head h are written: focus for engine 0 or 2, tracking for engine 1 or 3 (R332). -/
def postOffsets (k h : Nat) (focus track : Int) (s : State) : State :=
  let q := (s.head k h).offSeq + 1
  let s := s.modHead k h (fun x => { x with offSeq := q })
  postOffset k (2 * h + 1) q track (postOffset k (2 * h) q focus s)
/-- The offsets return to 0 when they stand (R332). -/
def clearOffset (k : Nat) (s : State) : State :=
  match s.front k with
  | some o =>
    if o.offset then (postOffsets k o.head 0 0 s).modFront k (fun o => { o with offset := false }) else s
  | none => s
/-- The offsets at the end of an operation: 0 is written and posted again where rung 2 has run in it (R332). -/
def endOffset (k : Nat) (s : State) : State :=
  match s.front k with
  | some o =>
    if o.offset ∨ o.attempts.any (fun e => decide (e.1 % 8 = 2)) then
      (postOffsets k o.head 0 0 s).modFront k (fun o => { o with offset := false })
    else s
  | none => s

/-! What a READ or VERIFY has in hand. -/

/-- Frame i of an operation. -/
def Chop.frame (o : Chop) (i : Nat) : Frame := Tbl.at o.frames i
/-- Frames of hoist j. -/
def hoistFrames (j : Nat) : List Nat := (List.range 32).map (fun i => 32 * j + i)
/-- Hoists not settled. -/
def Chop.open_ (o : Chop) : List Nat := (List.range o.hoists).filter (fun j => !o.settled.contains j)
/-- Band of hoist j, by its first frame. -/
def Chop.bandAt (o : Chop) (j : Nat) : Nat := bandOf (o.hoistPfa j)
/-- The band the ladder works in: the lowest with a hoist that is not settled. -/
def Chop.bandNow (o : Chop) : Nat := (o.open_.map o.bandAt).foldl min (o.bandAt (o.open_.headD 0))
/-- Whether frames of hoist j have still to pass the head. -/
def Chop.unread (o : Chop) (j : Nat) : Bool := (hoistFrames j).any (fun i => decide ((o.frame i).got = .unread))
/-- Whether hoist j has been begun: one of its frames has been read. -/
def Chop.begunRead (o : Chop) (j : Nat) : Bool := (hoistFrames j).any (fun i => decide ((o.frame i).got ≠ .unread))
/-- Whether hoist j is the one in hand, or one of them: it is being read, or a revolution attempt re-reads its band (R254, R336). -/
def Chop.inHand (o : Chop) (j : Nat) : Bool :=
  !o.settled.contains j && ((o.unread j && o.begunRead j) || (o.attempt.isSome && decide (o.bandAt j = o.bandNow)))
/-- An operation that holds at a time: the frames and the store slots of what it has in hand are discarded (R254, R336). -/
def Chop.hold (o : Chop) (t : Nat) : Chop :=
  { o with heldAt := some t, attempt := none, frames := o.frames.filter (fun e => !o.inHand (e.1 / 32)) }
/-- Where a held operation takes up again: the first hoist it has still to read (R254). -/
def Chop.resumeAt (o : Chop) : Nat :=
  o.hoistPfa ((o.open_.find? o.unread).getD (min o.firstOpen (o.hoists - 1)))

/-! The end of an operation. -/

/-- A head without a training run. -/
def Head.untrained (x : Head) : Head :=
  { x with train := none, shadow := [], trainMse := [], trainCount := [], trained := false }
/-- A training shadow that has converged becomes the bank at a hoist boundary, its crc computed; tstate is 2 (R337). -/
def commitTraining (k h : Nat) (s : State) : State :=
  let x := s.head k h
  match x.train with
  | some (n, _) =>
    if !x.trained then s
    else
      let body := padTo 2044 x.shadow
      let s := s.poke (cAddr k (0x2_0000 + 0x800 * n)) (body ++ leBytes 4 (crc32c body))
      let s := s.modHead k h Head.untrained
      ((s.setCf k (0x6080 + 8 * h) 35 32 0).setCf k (0x6080 + 8 * h) 31 30 2).setCf k (0x6060 + 8 * h) 0 0 0
  | none => s

/-- The operation at the front of the queue ends: its end fields are written, its tag is queued when it asks for one, the
head is no longer being positioned (R136, R147, R339, R352). -/
def endChop (k cstat stop : Nat) (s : State) : State :=
  match s.front k with
  | some o =>
    let s := commitTraining k o.head (endOffset k s)
    let s := writeEnd o cstat stop s
    let s := if bitSet o.flags 1 then pushTag o.core o.ctag s else s
    relight k (setRdy k o.head 7 7 0 (s.setQueue k (s.channel k).queue.tail))
  | none => s

/-- The hoists of an operation, as burn-record numbers. -/
def Chop.hoistIds (o : Chop) : List Nat := (List.range o.hoists).map (fun i => o.pfa / 32 + i)

/-- The end of a WRITE's hoists with a cstat other than 0x00: those it began are lost, the others stay unburnt (R352). -/
def dropHoists (k : Nat) (o : Chop) (s : State) : State :=
  let lost := (o.hoistIds.zip (List.range o.hoists)).filter (fun e => o.begun.contains e.2)
  let map := areaOf (pfaHoist o.pfa) == .map
  let s := lost.foldl (fun s e => loseHoist k e.1 s) s
  let s := releaseHoists k ((o.hoistIds.zip (List.range o.hoists)).filterMap (fun e =>
    if o.begun.contains e.2 then none else some e.1)) s
  if map then mapHoistEnd k false s else s

/-- The front operation ends before its own end. -/
def breakChop (k cstat stop : Nat) (s : State) : State :=
  match s.front k with
  | some o => endChop k cstat stop (if o.op = 2 then dropHoists k o s else s)
  | none => s

/-! Acceptance (R136, R138, R188 to R190, R346, R654). -/

/-- The list area of a descriptor that needs one. A descriptor whose hoists is not 1 to 64 leaves its list unchecked against the
regions, and is refused afterwards (R80, R136; log entry 123). -/
def chopList (d : List Byte) : List Span :=
  let n := leAt d 12 1
  if (leAt d 0 1 = 1 ∨ leAt d 0 1 = 2) ∧ 1 ≤ n ∧ n ≤ 64 then [⟨leAt d 24 8, 4 * n, true, false⟩] else []
/-- The memory operands of a CHOP: its descriptor, and its handle list (R80). -/
def chopSpans (c : Nat) (s : State) (a _ : Nat) : List Span :=
  ⟨a, 64, true, true⟩ :: chopList (peek s c a 64)

/-- Whether the fields of a descriptor keep the rules of R136, R166 and R190, its list apart. -/
def chopFields (s : State) (k : Nat) (d : List Byte) : Bool :=
  let op := leAt d 0 1
  let flags := leAt d 1 1
  let tag := leAt d 4 4
  let pfa := leAt d 8 4
  let hoists := leAt d 12 1
  let rungs := leAt d 13 1
  let beams := leAt d 14 2
  let moves := op == 1 || op == 2
  decide (1 ≤ op ∧ op ≤ 4) && decide (flags < 4) && (op == 2 || !bitSet flags 0) &&
  (decide (tag = noTag) || decide (tag < 2 ^ 22)) && decide (pfa < 2 ^ 30) && decide (pfa % 32 = 0) &&
  (if op = 4 then decide (hoists = 0) && decide (pfaFrame pfa < frameCount)
   else decide (1 ≤ hoists ∧ hoists ≤ 64) && decide (pfaFrame pfa + 32 * hoists ≤ frameCount)) &&
  (if op = 1 ∨ op = 3 then decide (rungs ≤ 6) else decide (rungs = 0)) &&
  decide (beams = beamsOf s k (pfaSide pfa)) && (decide (beams = 0xFFF) || op == 1 || op == 4) &&
  (moves || decide (leAt d 16 4 = 0)) && decide (leAt d 20 4 = 0) && (moves || decide (leAt d 24 8 = 0)) &&
  decide (leAt d 32 8 = 0)

/-- The area tests of a WRITE's hoists, in address order (R346). -/
def areaTests (m : MapEng) (inline : Bool) (handles : List Nat) (hs : List Nat) : Bool :=
  (List.range hs.length).all (fun i =>
    m.unburnt (hs.getD i 0) (decide (hs.length = 1)) inline (handles.getD i 0) (hs.take i))

/-- What remains of CHOP once the area of its descriptor has been found (R136, R346). The running operation counts among the 64
that the channel queue holds (log entry 126). -/
def chopAccept (c key : Nat) (s : State) : Ans :=
  let k := c / 8
  match readOperand c key 64 s with
  | (none, s) => .fail 0x38 0 s
  | (some d, s) =>
    if !chopFields s k d then .fail 0x38 0 s
    else
      let op := leAt d 0 1
      let n := leAt d 12 1
      let r : Option (List Byte) × State :=
        if chopList d = [] then (some [], s)
        else
          match placeOf s c (leAt d 24 8) (4 * n) false with
          | none => (none, s)
          | some lk => readOperand c lk (4 * n) s
      match r with
      | (none, s) => .fail 0x38 0 s
      | (some lb, s) =>
        let handles := if chopList d = [] then [] else (List.range n).map (fun i => leAt lb (4 * i) 4)
        let o : Chop := { op := op, flags := leAt d 1 1, ctag := leAt d 2 2, tag := leAt d 4 4, pfa := leAt d 8 4, hoists := n
                          rungs := leAt d 13 1, beams := leAt d 14 2, key := leAt d 16 4, list := handles, core := c
                          area := key }
        if !handles.all (fun h => handleOk s h && decide (handleDie h = k)) then .fail 0x38 0 s
        else if op = 2 ∧ !areaTests (s.map k) (bitSet o.flags 0) handles o.hoistIds then .fail 0x38 0 s
        else if 64 ≤ (s.channel k).queue.length ∨ (op = 2 ∧ 1024 < (s.map k).brec.length + n) then .fail 0x39 0 s
        else .ok 0 ((if op = 2 then reserveHoists k o.hoistIds s else s).setQueue k ((s.channel k).queue ++ [o]))

/-- CHOP: the descriptor's operation joins the channel queue of the core's drive (R136). -/
def chopOp (c : Nat) (rd ra rb : BitVec 5) (xmod : Nat) (s : State) : State :=
  deviceOp c rd ra rb 0x10 xmod (chopSpans c) (fun s a b =>
    if a % 64 ≠ 0 ∨ b ≠ 0 then .fail 0x01 0 s
    else if (s.map (c / 8)).mstate = 0 then .fail 0x30 0 s
    else
      match placeOf s c a 64 true with
      | none => .fail 0x38 0 s
      | some key => chopAccept c key s) s
/-- The row of one operation code: a descriptor of another row's operation is that row's, so this one does nothing; a
descriptor of no row's operation runs and is refused. -/
def chopRow (op c : Nat) (rd ra rb : BitVec 5) (xmod : Nat) (s : State) : State :=
  let q := leAt (peek s c ((s.core c).r ra).toNat 64) 0 1
  if 1 ≤ q ∧ q ≤ 4 ∧ q ≠ op then s else chopOp c rd ra rb xmod s
def execChopRead (c : Nat) (rd ra rb : BitVec 5) (xmod : BitVec 6) (s : State) : Res :=
  .next (chopRow 1 c rd ra rb xmod.toNat s)
def execChopWrite (c : Nat) (rd ra rb : BitVec 5) (xmod : BitVec 6) (s : State) : Res :=
  .next (chopRow 2 c rd ra rb xmod.toNat s)
def execChopVerify (c : Nat) (rd ra rb : BitVec 5) (xmod : BitVec 6) (s : State) : Res :=
  .next (chopRow 3 c rd ra rb xmod.toNat s)
def execChopSeek (c : Nat) (rd ra rb : BitVec 5) (xmod : BitVec 6) (s : State) : Res :=
  .next (chopRow 4 c rd ra rb xmod.toNat s)

/-! Starting (R237, R267, R309, R347, R351, R588). -/

/-- Whether bank n passes the checks of R309 for a beam mask, a layer and a side. -/
def bankGood (s : State) (k n beams layer side : Nat) : Bool :=
  let b := s.bytes (cAddr k (0x2_0000 + 0x800 * n)) 0x800
  decide (leAt b 2042 1 = layer + 4 * side) && decide (leAt b 2044 4 = crc32c (b.take 2044)) &&
  (if beams = 0xFFF then decide (leAt b 2040 1 = 1)
   else decide (leAt b 2040 1 = 2) && decide (leAt b 2041 1 < 12) && decide (beams + 2 ^ leAt b 2041 1 = 0xFFF))
/-- The bank a READ or VERIFY uses, and the inline verify of a WRITE (log entry 137): the primary one of its layer, or the eleven-beam
set (R308, R309). -/
def bankFor (s : State) (k : Nat) (o : Chop) : Nat :=
  let l := 5 * pfaLayer o.pfa
  if o.beams = 0xFFF then s.cf k (0x6040 + 8 * o.head) (4 + l) l else s.cf k (0x6040 + 8 * o.head) 44 40
/-- Whether a hoist's metadata lets its burn begin: every kind is one of R159, a user block's number is one of the disc,
and its key is held (R160, R347; log entry 131). -/
def metaGood (s : State) (k key handle : Nat) : Bool :=
  (List.range 30).all (fun i =>
    let a := handleAddr handle + 122880 + 256 * i
    let kind := s.num (a + 5) 1
    decide (kind ≤ 4) && (decide (kind ≠ 0) ||
      (decide (s.num a 4 < lbnCount) && !s.keys.locked && (mediaOf s k).any (fun m => m.id == key))))
/-- Hoists that the first pass of a WRITE burns: all its hoists of the first one's group, as many as the
beam-count mode lights (R188, R348). -/
def firstPass (o : Chop) : List Nat :=
  let g := pfaHoist o.pfa / 3
  ((List.range o.hoists).filter (fun i => pfaHoist o.pfa / 3 == g && (pfaHoist o.pfa + i) / 3 == g)).take
    (if o.mode = 1 then 2 else if o.mode = 2 then 1 else 3)

/-- The word that stops the codec's reads of the buffers of some hoists of a WRITE, if any (R420). -/
def badSource (s : State) (o : Chop) (js : List Nat) : Option Nat :=
  js.findSome? (fun j => (eccKeys (handleAddr (o.list.getD j 0)) 130560).find? (fun w => decide (s.eccAt w = .bad)))
/-- The codec has read word w uncorrectable: a record and its count (R420, R423). -/
def codecError (w : Nat) (s : State) : State := logUncorrectable 0x21 w (countBad w 8 s)
/-- Why the burn of some hoists of a WRITE may not begin: a word of a buffer that is uncorrectable, or metadata that R347 forbids,
which a key that is no longer held is too; none when it may (R160, R347, R420; log entry 131). -/
def beginRefusal (s : State) (k : Nat) (o : Chop) (js : List Nat) : Option (Option Nat) :=
  match badSource s o js with
  | some w => some (some w)
  | none => if js.all (fun j => metaGood s k o.key (o.list.getD j 0)) then none else some none
/-- Lines of the buffers of some hoists whose errors a read would find are settled first (R417). -/
def settleSources (o : Chop) (js : List Nat) (s : State) : State :=
  js.foldl (fun s j => settle none (handleAddr (o.list.getD j 0)) 130560 s) s
/-- A WRITE ends with cstat 0x02 because the burn of a hoist may not begin; an uncorrectable word is recorded (R347, R420). -/
def refuseBurn (k stop : Nat) (why : Option Nat) (s : State) : State :=
  breakChop k 2 stop (why.elim s (fun w => codecError w s))
/-- The hoists that operation o would burn first, in the beam-count mode of now. -/
def startPass (s : State) (k : Nat) (o : Chop) : List Nat := firstPass { o with mode := s.cf k 0x4010 1 0 % 3 }

/-- cstat with which an operation that is about to start ends at once; 0 when it may start. -/
def startRefusal (s : State) (k : Nat) (o : Chop) : Nat :=
  let st := s.cf k 0x4200 3 0
  if o.stopWith ≠ 0 then o.stopWith
  else if !fready s k then 7
  else if srvRdy s k o.head 1 1 = 0 ∨ srvRdy s k o.head 17 16 ≠ pfaLayer o.pfa ∨ st ≠ 5 then 7
  else if o.op = 2 ∧ (s.cf k 0x4200 35 22 ≠ 3600 ∨ s.cf k 0x4208 32 32 = 0) then 7
  else if (o.op = 1 ∨ o.op = 3) ∧ !bankGood s k (bankFor s k o) o.beams (pfaLayer o.pfa) o.head then 7
  else if o.op = 2 ∧ (wiRaised s k o.head ∨ (badSource s o (startPass s k o)).isSome ∨ !o.list.all (metaGood s k o.key)) then 2
  else 0

/-! Positioning (R244 to R247). -/

/-- The band of the last address read, the lead-in as band -1 (R154, R245). -/
def bandNow (s : State) (k h : Nat) : Int :=
  let b := srvRdy s k h 31 18
  if b = 0x3FFF then -1 else b
/-- Bound of a move of n bands, ns (R246, R247). -/
def moveBound (n : Nat) : Nat :=
  if n = 0 then 0 else if n ≤ 16 then 471000 + 25000 * n
  else if n ≤ 384 then 34000000 else if n ≤ 1153 then 46000000 else if n ≤ 1923 then 54000000
  else if n ≤ 3846 then 69000000 else if n ≤ 7692 then 90000000 else 118000000
/-- The positioning bound of a first frame in band b, ns: of the move to that band, or the largest with tok = 0 (R245). -/
def positioningBound (s : State) (k h : Nat) (b : Int) : Nat :=
  if srvRdy s k h 2 2 = 0 then 118000000 else moveBound (b - bandNow s k h).natAbs
/-- The band to aim at for a first frame in band b that lies `ahead` ns ahead of the head (R245). -/
def aimBand (s : State) (k h : Nat) (b : Int) (ahead : Nat) : Int :=
  if positioningBound s k h b ≤ ahead then b else b - 1

/-- What goes to the disc of hoist i of a WRITE (R159, R160, R347): the metadata the codec completes, user blocks encrypted,
and the parity of R161. -/
def burnFrame (s : State) (k : Nat) (o : Chop) (i hseq j : Nat) : List Byte :=
  let a := handleAddr (o.list.getD i 0)
  let data := s.bytes (a + 4096 * j) 4096
  let md := s.bytes (a + 122880 + 256 * j) 12
  let user := leAt md 5 1 == 0
  let m := md.take 6 ++ leBytes 2 0 ++ md.drop 8 ++ leBytes 4 (o.hoistPfa i + j) ++
    leBytes 8 (s.rtcMs.getD 0 % 2 ^ 48) ++ leBytes 4 (if user then o.key else 0) ++ leBytes 4 hseq ++ leBytes 220 0
  let m := m ++ leBytes 4 (crc32c (data ++ m))
  let key := (((mediaOf s k).find? (fun x => x.id == o.key)).map MediaKey.key).getD []
  (if user then padTo 4096 (Config.xtsEnc key (leAt md 0 4 * 64 + leAt md 4 1) data) else data) ++ m

/-- A product in GF(2^8) with x^8 + x^4 + x^3 + x^2 + 1 (R161). -/
def gfMul : Nat → Nat → Nat → Nat
  | 0, _, _ => 0
  | n + 1, a, b =>
    Nat.xor (if b % 2 = 1 then a else 0)
      (gfMul n (if 128 ≤ a then Nat.xor (2 * a) 0x11D else 2 * a) (b / 2))
/-- A product of field elements. -/
def gf (a b : Nat) : Nat := gfMul 8 a b
/-- A power of an element. -/
def gfPow (a : Nat) : Nat → Nat
  | 0 => 1
  | n + 1 => gf a (gfPow a n)
/-- A quotient: the inverse is the 254th power. -/
def gfDiv (a b : Nat) : Nat := gf a (gfPow b 254)
/-- The locator of frame i: α^(31 - i) (R161). -/
def locator (i : Nat) : Nat := gfPow 2 (31 - i)
/-- The two syndromes of one byte position, over the frames listed with their bytes. -/
def syndromes (bs : List (Nat × Nat)) : Nat × Nat :=
  bs.foldl (fun s e => (Nat.xor s.1 e.2, Nat.xor s.2 (gf (locator e.1) e.2))) (0, 0)
/-- The bytes of frames x and y that bring the syndromes of a position to 0. -/
def solveTwo (x y : Nat) (s : Nat × Nat) : Nat × Nat :=
  let lx := locator x
  let v := gfDiv (Nat.xor s.2 (gf lx s.1)) (Nat.xor lx (locator y))
  (Nat.xor s.1 v, v)
/-- Byte i of a payload. -/
def byteOf (p : List Byte) (i : Nat) : Nat := leAt p i 1
/-- The payloads of frames x and y that the others, with their numbers, determine (R161). -/
def eraseTwo (x y : Nat) (known : List (Nat × List Byte)) : List Byte × List Byte :=
  let cols := (List.range 4352).map (fun i => solveTwo x y (syndromes (known.map (fun e => (e.1, byteOf e.2 i)))))
  (cols.map (fun c => BitVec.ofNat 8 c.1), cols.map (fun c => BitVec.ofNat 8 c.2))

/-- The first pulse of a hoist of the running WRITE: the burn record, and what is burnt (R347, R348). -/
def beginOne (k i : Nat) (s : State) : State :=
  match s.front k with
  | some o =>
    if o.begun.contains i then s
    else
      let h := o.pfa / 32 + i
      let a := handleAddr (o.list.getD i 0)
      let s := healRead none a 130560 (settle none a 130560 (beginHoist k h s))
      let seq := (s.map k).hseq
      let data := (List.range 30).map (fun j => burnFrame s k o i seq j)
      let par := eraseTwo 30 31 ((List.range 30).zip data)
      let ch := s.channel k
      let s := s.setChannel k { ch with burnt := ch.burnt ++ [⟨h, seq, data ++ [par.1, par.2], o.ws⟩] }
      s.modFront k (fun o => { o with begun := o.begun ++ [i] })
  | none => s

/-- Whether the head is in focus, on track and locked and the spindle runs (R254, R267). -/
def headReady (s : State) (k h : Nat) : Bool := decide (srvRdy s k h 3 1 = 7) && decide (s.cf k 0x4200 3 0 = 5)
/-- stop of an operation that ends before its burn: its first frame, or of a READ or VERIFY the first frame of the first hoist not
completed (R339, R352). -/
def Chop.target (o : Chop) : Nat := if o.op = 1 ∨ o.op = 3 then o.hoistPfa o.firstOpen else o.pfa
/-- The head is where the operation wants it and busy falls. On another layer than its own it ends with cstat 0x07; a READ or VERIFY
holds where wlock or RUN is wanting; a WRITE begins the hoists of its first pass, and with write inhibit raised, or a hoist that may
not be burnt, ends with cstat 0x02 (R245, R253, R254, R256, R267, R348). -/
def positioned (k : Nat) (s : State) : State :=
  match s.front k with
  | some o =>
    let h := o.head
    let s := setRdy k h 7 7 0 (s.modFront k (fun o => { o with positioning := false, heldAt := none }))
    if srvRdy s k h 17 16 ≠ pfaLayer o.pfa then breakChop k 7 o.target s
    else if o.op = 2 then
      if o.stopWith ≠ 0 then s
      else if wiRaised s k h ∨ s.cf k 0x4200 3 0 ≠ 5 then breakChop k 2 o.pfa s
      else
        let s := settleSources o (firstPass o) s
        match beginRefusal s k o (firstPass o) with
        | some why => refuseBurn k o.pfa why s
        | none => (firstPass o).foldl (fun s i => beginOne k i s) s
    else if (o.op = 1 ∨ o.op = 3) ∧ ¬ headReady s k h then
      clearOffset k (s.modFront k (fun o => o.hold s.time))
    else s
  | none => s

/-- The positioning of the front operation on a frame: no move when its head tracks the band aimed at, else a request in
the mailbox (R244, R245). -/
def position (k pfa ahead : Nat) (s : State) : State :=
  match s.front k with
  | some o =>
    let h := o.head
    let aim := aimBand s k h (bandOf pfa) ahead
    if aim = bandNow s k h ∧ srvRdy s k h 2 2 = 1 then positioned k s
    else
      let dist := (aim - bandNow s k h).natAbs
      let kind := if dist ≤ 16 then 1 else 2
      let seq := ((s.head k h).mailSeq + 1) % 2 ^ 32
      let bound := positioningBound s k h (bandOf pfa)
      let s := s.modHead k h (fun x => { x with mailSeq := seq })
      let s := s.modFront k (fun o => { o with
        goal := pfa, positioning := true, heldAt := none, aim := aim, kind := kind, seq := seq, due := s.time + bound })
      let s := setRdy k h 7 7 1 s
      stagePost k (2 * h + 1) 0x7C0 (leBytes 4 seq ++ leBytes 1 kind ++ leBytes 3 0 ++ leBytes 4 (toField 32 aim) ++
        leBytes 4 (srvRdy s k h 31 18) ++ leBytes 8 s.time ++ leBytes 40 0) s
  | none => s

/-- CHOP_START: the operation at the front starts, or ends at once; `ahead` is the time until its first frame passes the
head's present angle (R188, R237, R245, R267, R309). -/
def execChopStart (k ahead : Nat) (s : State) : Res :=
  .next (whileUp s (fun s =>
    match s.front k with
    | some o =>
      if o.started then s
      else
        let s := if o.op = 2 then settleSources o (startPass s k o) s else s
        let st := startRefusal s k o
        let s := s.modFront k (fun o => { o with mode := s.cf k 0x4010 1 0 % 3 })
        if st ≠ 0 then
          let s := if st = 2 ∧ o.stopWith = 0 ∧ wiRaised s k o.head = false then
              (badSource s o (startPass s k o)).elim s (fun w => codecError w s)
            else s
          breakChop k st o.pfa s
        else
          let entries := (List.range 8).filter (fun i => decide (s.cf k (0x6200 + 0x40 * o.head + 8 * i) 32 32 = 1))
          let s := s.modFront k (fun o => { o with
            started := true
            slots := if o.op = 1 ∨ o.op = 3 then 4 * entries.length else 0
            store := if o.op = 1 ∨ o.op = 3 then entries.map (fun i => s.cf k (0x6200 + 0x40 * o.head + 8 * i) 31 0) else []
            bank := if o.op = 1 ∨ o.op = 3 ∨ (o.op = 2 ∧ bitSet o.flags 0) then some (bankFor s k o) else none
            ws := if o.op = 2 then strategy s k o.head (pfaLayer o.pfa) else [] })
          relight k (position k o.pfa ahead s)
    | none => s))

/-- POSITIONING_END: the engine has acknowledged, or the bound has passed; the third failure ends the operation (R245).
`ahead` serves a further try. -/
def execPositioningEnd (k ahead : Nat) (s : State) : Res :=
  .next (whileUp s (fun s =>
    match s.front k with
    | some o =>
      let h := o.head
      let ack := s.bytes (cAddr k (0x1_0800 + 0x1000 * (2 * h + 1) + 0x7F0)) 8
      let served := decide (leAt ack 0 4 = o.seq)
      if !o.started || !o.positioning then s
      else if served ∧ leAt ack 4 1 = 1 ∧ srvRdy s k h 2 2 = 1 ∧ bandNow s k h = o.aim then positioned k s
      else if (served ∧ leAt ack 4 1 = 2) ∨ o.due ≤ s.time then
        if 2 ≤ o.tries then breakChop k 7 o.target s
        else position k o.goal ahead (s.modFront k (fun o => { o with tries := o.tries + 1 }))
      else s
    | none => s))

/-- CHOP_SEEK_END: a SEEK has landed (R136, R245). -/
def execChopSeekEnd (k : Nat) (s : State) : Res :=
  .next (whileUp s (fun s =>
    match s.front k with
    | some o => if o.op = 4 ∧ o.started ∧ ¬ o.positioning then endChop k 0 o.pfa s else s
    | none => s))

end Sys2Proof.Machine
end

