-- ==== Sys2Proof/Machine/Symbols.lean ====
section
/-! DEFINITION. What lies on the disc and how it reads back (R148 to R158, R301 to R307, R312, R317, R321): places, wobble
addresses, the levels of a frame's symbols, the LDPC code; and the stages of a read channel from the resampled symbols of its beams
on: the equaliser, the detector, the defect detector and the decoder. -/

namespace Sys2Proof.Machine

/-! Places, in nm. -/

/-- Radial offset of data track t from the groove centre, nm: no track lies on the groove (R151). -/
def trackOffset (t : Nat) : Int := if t < 6 then 200 * (t : Int) - 1200 else 200 * (t : Int) - 1000
/-- Groove radius at position p of a band of P positions, nm; the lead-in is band -1 (R150, R168). -/
def grooveRadius (band : Int) (p P : Nat) : Rat := 24000000 + 2600 * ((band : Rat) + (p : Rat) / (P : Rat))
/-- Radius of a frame: the groove's and the offset of its track (R151, R168). -/
def frameRadius (a : Nat) : Rat :=
  grooveRadius (bandOf a) (posInBand a) (positionsOf (bandOf a)) + (trackOffset (trackOf a) : Rat)
/-- Angle at which a frame starts, as a share of a revolution past the angular reference (R153). -/
def frameAngle (a : Nat) : Rat := (posInBand a : Rat) / (positionsOf (bandOf a) : Rat)
/-- Symbol rate of a band of P positions at a speed in rpm, symbols a second (R154). -/
def symbolRate (P rpm : Nat) : Rat := (P * 20640 * rpm : Nat) / 60

/-! The wobble (R154). -/

/-- The address word of a position, CRC apart: layer, band, position. -/
def addressWord (layer band pos : Nat) : Nat := layer % 4 * 2 ^ 30 + band % 2 ^ 14 * 2 ^ 16 + pos % 2 ^ 9 * 2 ^ 7
/-- Whether wobble w, 0 to 214, of a unit with these 48 address bits is phase inverted. -/
def wobbleInverted (bits w : Nat) : Bool :=
  if w < 6 then true
  else if w < 8 then false
  else if w < 200 then
    let one := bits.testBit (47 - (w - 8) / 4)
    if (w - 8) % 4 < 2 then one else !one
  else false

/-! The sync marks (R156). -/

/-- The sequence a[n] of the marks. -/
def markBit : Nat → Bool
  | 0 => true
  | 1 => false
  | 2 => false
  | 3 => false
  | 4 => false
  | 5 => false
  | n + 6 => Bool.xor (markBit (n + 1)) (markBit n)
/-- Level of symbol n of SM1: L3 or L0; symbol 63 is L0. -/
def sm1Level (n : Nat) : Nat := if n < 63 ∧ markBit n then 3 else 0
/-- Level of symbol n of SM2, its complement. -/
def sm2Level (n : Nat) : Nat := 3 - sm1Level n
/-- Level of symbol n of the run-in. -/
def runInLevel (n : Nat) : Nat := if n % 4 < 2 then 0 else 3

/-! The codeword (R157, R158). -/

/-- The state of the scrambler before bit n of a frame's codeword. -/
def scrambleState (pfa : Nat) : Nat → Nat
  | 0 => Nat.lor (pfa % 2 ^ 15) 1
  | n + 1 =>
    let st := scrambleState pfa n
    st * 2 % 2 ^ 15 + b2n (Bool.xor (st.testBit 14) (st.testBit 13))
/-- Bit o of the scrambler at codeword bit n. -/
def scrambleBit (pfa n : Nat) : Bool :=
  Bool.xor ((scrambleState pfa n).testBit 14) ((scrambleState pfa n).testBit 13)
/-- A codeword scrambled, or a scrambled one in clear (R157, R321). -/
def scramble (pfa : Nat) (c : Nat → Bool) : Nat → Bool := fun n => Bool.xor (c n) (scrambleBit pfa n)

/-- Shift of the circulant at a row and column of the base matrix, none where the entry is zero. -/
def circulant (r j : Nat) : Option Nat :=
  if j < 68 then (if r % 3 = j % 3 then some ((37 * (r + 1) * (j + 1) + 5 * r) % 512) else none)
  else if j = 68 then (if r = 0 ∨ r = 11 then some 1 else if r = 6 then some 0 else none)
  else if r + 69 = j ∨ r + 68 = j then some 0
  else none
/-- What column j adds to the check of row x of block row r. -/
def columnTerm (c : Nat → Bool) (r x j : Nat) : Bool :=
  match circulant r j with
  | some s => c (512 * j + (x + s) % 512)
  | none => false
/-- The sum of the first n columns in the check of row x of block row r. -/
def checkSum (c : Nat → Bool) (r x : Nat) : Nat → Bool
  | 0 => false
  | n + 1 => Bool.xor (checkSum c r x n) (columnTerm c r x n)
/-- Whether the check of row x of block row r is unsatisfied. -/
def unsatisfied (c : Nat → Bool) (r x : Nat) : Bool := checkSum c r x 80
/-- Unsatisfied checks of a descrambled codeword, of 6,144 (R321). -/
def syndromeWeight (c : Nat → Bool) : Nat :=
  ((List.range 6144).map (fun n => b2n (unsatisfied c (n / 512) (n % 512)))).sum
/-- Information bit n of a payload: bit n mod 8 of byte n / 8. -/
def infoBit (p : List Byte) (n : Nat) : Bool := (p.getD (n / 8) 0).getLsbD (n % 8)
/-- Bit x of column 68: the sum of every block row's information columns (R158). -/
def parityFirst (info : Nat → Bool) (x : Nat) : Bool :=
  (List.range 12).foldl (fun a r => Bool.xor a (checkSum info r x 68)) false
/-- Bit x of column 69 + k, which block row k fixes (R158). -/
def parityNext (info : Nat → Bool) (x : Nat) : Nat → Bool
  | 0 => Bool.xor (checkSum info 0 x 68) (parityFirst info ((x + 1) % 512))
  | k + 1 =>
    Bool.xor (Bool.xor (checkSum info (k + 1) x 68) (parityNext info x k))
      (if k + 1 = 6 then parityFirst info x else false)
/-- The codeword of an information word (R157, R158). -/
def codeword (info : Nat → Bool) (n : Nat) : Bool :=
  if n < 34816 then info n
  else if n < 35328 then parityFirst info (n - 34816)
  else parityNext info (n % 512) (n / 512 - 69)

/-! The symbols of a frame (R155 to R157). -/

/-- Level of the Gray map, by its high and low bit. -/
def grayLevel (hi lo : Bool) : Nat :=
  match hi, lo with
  | false, false => 0
  | false, true => 1
  | true, true => 2
  | true, false => 3
/-- Level of data symbol m of a scrambled codeword. -/
def dataLevel (c : Nat → Bool) (m : Nat) : Nat := grayLevel (c (2 * m + 1)) (c (2 * m))
/-- Level of symbol n, 0 to 20,639, of the frame at an address with a scrambled codeword. -/
def frameLevel (c : Nat → Bool) (n : Nat) : Nat :=
  if n < 32 then runInLevel n
  else if n < 96 then sm1Level (n - 32)
  else if n < 10336 then dataLevel c (n - 96)
  else if n < 10400 then sm2Level (n - 10336)
  else dataLevel c (n - 160)
/-- Level of symbol n of the frame that a payload is burnt as at an address. -/
def burntLevel (pfa : Nat) (p : List Byte) (n : Nat) : Nat := frameLevel (scramble pfa (codeword (infoBit p))) n
/-- The drive of the beam at x/64 of symbol n of that frame; the symbol before it gives the pulse its shape (R343, R344). -/
def burntDrive (ws : List Nat) (pfa : Nat) (p : List Byte) (n : Nat) (x : Rat) : Drive :=
  symbolDrive ws (burntLevel pfa p n) (if n = 0 then 0 else burntLevel pfa p (n - 1)) x
/-- Offset of beam b's symbols from the wobble loop's while it burns, in 1/256 symbol: dly alone (R343). -/
def burnOffset (s : State) (d b : Nat) : Int := fromField 24 (s.cf d (0x6100 + 8 * b) 23 0)
/-- The symbol at which data symbol m stands, when its half is aligned by SM1 or by SM2 found at an offset: each half by its
own mark, or by the other one when that is missed (R311, R312). -/
def dataAt (sm1 sm2 : Option Int) (m : Nat) : Option Int :=
  let by1 := sm1.map (fun d => d + 96 + (m : Int) + (if m < 10240 then 0 else 64))
  let by2 := sm2.map (fun d => d + 96 + (m : Int) + (if m < 10240 then 0 else 64))
  if m < 10240 then by1.or by2 else by2.or by1

/-! The resampler, the equaliser and the detector. -/

/-- Offset of beam b's instants from the wobble loop's, in 1/256 symbol: dly and fine of rc.beam[b] (R301, R303). -/
def beamOffset (s : State) (d b : Nat) : Int :=
  fromField 24 (s.cf d (0x6100 + 8 * b) 23 0) + fromField 16 (s.cf d (0x6100 + 8 * b) 47 32)
/-- A resampled value after the loops: clipped at ±511 (R302). -/
def resampled (x : Int) : Int := max (-511) (min x 511)
/-- The interpolation of a beam's ADC samples at an instant, counted in samples: 8 taps of the phase, of 64, the instant falls in; then
gain and baseline (R301, R302). -/
def resample (b : Nat) (adc : Int → Int) (soFar : List Int) (at_ : Rat) : Int :=
  let base := at_.floor
  let phase := ((at_ - base) * 64).floor.toNat
  let x : Int := ((List.range 8).map (fun j => Config.resampleTap phase j * adc (base + (j : Int) - 3))).sum
  resampled (Config.resampleGain b soFar * ((x : Rat) / 16384 - Config.resampleBase b soFar) + 1 / 2).floor
/-- A data ADC's conversion n of those delivered, two's complement (R170). -/
def conversion (l : List (Option (BitVec 8))) (n : Int) : Option Int := if n < 0 then none else (l.getD n.toNat none).map BitVec.toInt
/-- A resampled symbol of beam b, at a place among the conversions; it is lost where one of the eight is, and clipped at the ADC where one
of them is (R18, R20, R302, R317). -/
def symbolAt (b : Nat) (l : List (Option (BitVec 8))) (soFar : List Int) (at_ : Rat) : Sample :=
  let taps := (List.range 8).map (fun j => conversion l (at_.floor + (j : Int) - 3))
  if taps.any Option.isNone then none
  else some (resample b (fun n => (conversion l n).getD 0) soFar at_,
    taps.any (fun v => decide (v = some (-128)) || decide (v = some 127)))
/-- The resampled symbols of beam b, when symbol 0 of the frame position lies at `start` among the conversions and a symbol takes `per` of
them; the loops see what has been resampled so far, newest first (R301, R302). -/
def streamOf (b : Nat) (l : List (Option (BitVec 8))) (start per : Rat) : Stream :=
  ((List.range 24736).foldl (fun (acc : Stream) i =>
    symbolAt b l (acc.filterMap (Option.map Prod.fst)) (start + ((i : Rat) - 2048) * per) :: acc) []).reverse
/-- The resampled symbols of a head's beams, from their conversions and the place in them where the wobble loop puts symbol 0 of the frame
position under the servo spot; the ADCs run at 1.6 GS/s (R170, R296, R301). -/
def streamsOf (s : State) (d h : Nat) (adc : List (List (Option (BitVec 8)))) (start : Rat) : List Stream :=
  let per : Rat := 1600000000 / (96 * (Tbl.at (Tbl.at s.chan d).heads h).freq)
  (List.range 12).map (fun t => streamOf (12 * h + t) (adc.getD t []) (start + (beamOffset s d (12 * h + t) : Rat) / 256 * per) per)
/-- Nominal value of a level (R302). -/
def nominal (l : Nat) : Int := [192, 64, -64, -192].getD l 0
/-- The signed 16-bit entry of bank n at a byte offset (R304). -/
def bankEntry (s : State) (d n off : Nat) : Int := fromField 16 (ofLe (s.bytes (cAddr d (0x2_0000 + 2048 * n + off)) 2))
/-- Byte offset of the joint tap of output track t on track u at a lag, none outside the 43 (R304). -/
def jointAt (t u lag : Int) : Option Nat :=
  let at_ : Int → Int → Option Nat := fun first reach =>
    if -reach ≤ lag ∧ lag ≤ reach then some (86 * t + 2 * (first + lag + reach)).toNat else none
  if u = t then at_ 0 7 else if u = t - 1 then at_ 15 4 else if u = t + 1 then at_ 24 4
  else if u = t - 2 then at_ 33 2 else if u = t + 2 then at_ 38 2 else none
/-- The equaliser's output: the nearest whole value, within ±2,047 (R305; log entry 136). -/
def equalClip (x : Rat) : Int := max (-2047) (min (x + 1 / 2).floor 2047)
/-- The beam out of service of an eleven-beam bank (R304). -/
def bankOos (s : State) (d bank : Nat) : Option Int :=
  if s.bytes (cAddr d (0x2_0000 + 2048 * bank + 2040)) 1 = [2]
  then some (ofLe (s.bytes (cAddr d (0x2_0000 + 2048 * bank + 2041)) 1)) else none
/-- Output of track t at symbol n in mode 12: the joint taps on the samples x of the lit beams in service (R305). -/
def equalised (s : State) (d bank : Nat) (lit : Int → Bool) (x : Int → Int → Int) (t n : Int) : Int :=
  let uses : Int → Bool := fun u => decide (0 ≤ u) && decide (u ≤ 11) && lit u && !decide (bankOos s d bank = some u)
  let terms := ([-2, -1, 0, 1, 2] : List Int).flatMap (fun du => (List.range 15).map (fun k =>
    let lag : Int := (k : Int) - 7
    match jointAt t (t + du) lag with
    | some off => if uses (t + du) then bankEntry s d bank off * x (t + du) (n - lag) else 0
    | none => 0))
  equalClip (((terms.sum : Int) : Rat) / 16384)
/-- Output of track t in modes 8 and 4: its solo taps (R304, R306). -/
def equalisedSolo (s : State) (d bank : Nat) (x : Int → Int) (t : Nat) (n : Int) : Int :=
  let terms := (List.range 15).map (fun k => bankEntry s d bank (1032 + 30 * t + 2 * k) * x (n - ((k : Int) - 7)))
  equalClip (((terms.sum : Int) : Rat) / 16384)
/-- Expected value of a level on a track, in resampler codes (R304, R306). -/
def levelValue (s : State) (d bank t l : Nat) : Rat := (bankEntry s d bank (1464 + 8 * t + 2 * l) : Rat) / 16
/-- The detector's target for a symbol's level and the two before it (R306). -/
def targetValue (s : State) (d bank t a0 a1 a2 : Nat) : Rat :=
  let g : Nat → Rat := fun i => (bankEntry s d bank (1392 + 6 * t + 2 * i) : Rat) / 16384
  g 0 * levelValue s d bank t a0 + g 1 * levelValue s d bank t a1 + g 2 * levelValue s d bank t a2
/-- What the second pass takes off a track for its neighbours, by their expected levels (R306). -/
def crosstalk (s : State) (d bank t : Nat) (below above : Rat) : Rat :=
  (bankEntry s d bank (1560 + 4 * t) : Rat) / 16384 * below + (bankEntry s d bank (1562 + 4 * t) : Rat) / 16384 * above
/-! The detector: a search of 16 states, the last two symbols, 4 * a[n] + a[n - 1] (R306; log entry 136). -/

/-- The least of some metrics. -/
def least (l : List Rat) : Rat := l.foldl min (l.headD 0)
/-- What a sample costs against a target. -/
def cost (y z : Rat) : Rat := (y - z) * (y - z)
/-- The state metrics after a sample. -/
def stepForward (z : Nat → Nat → Nat → Rat) (al : List Rat) (y : Rat) : List Rat :=
  (List.range 16).map (fun i => least ((List.range 4).map (fun c => al.getD (4 * (i % 4) + c) 0 + cost y (z (i / 4) (i % 4) c))))
/-- The state metrics before the samples of a window. -/
def stepBackward (z : Nat → Nat → Nat → Rat) : List Rat → List Rat
  | [] => List.replicate 16 0
  | y :: ys =>
    let be := stepBackward z ys
    (List.range 16).map (fun i => least ((List.range 4).map (fun a => cost y (z a (i / 4) (i % 4)) + be.getD (4 * a + i / 4) 0)))
/-- The least metric of each level of a symbol, by the states before it, its sample and the window of 64 after it. -/
def levelMetrics (z : Nat → Nat → Nat → Rat) (al : List Rat) (y : Rat) (be : List Rat) : List Rat :=
  (List.range 4).map (fun a => least ((List.range 16).map (fun i =>
    al.getD i 0 + cost y (z a (i / 4) (i % 4)) + be.getD (4 * a + i / 4) 0)))
/-- The search over a stream: for each symbol the metrics of L0 to L3. -/
def search (z : Nat → Nat → Nat → Rat) (al : List Rat) : List Rat → List (List Rat)
  | [] => []
  | y :: ys => levelMetrics z al y (stepBackward z (ys.take 64)) :: search z (stepForward z al y) ys
/-- The LLR of a bit from the least metrics over symbols with the bit 1 and with it 0: round(2 L), within ±31 (R304, R307). -/
def llrOf (s : State) (d bank t : Nat) (least1 least0 : Rat) : Int :=
  let lsc : Rat := (ofLe (s.bytes (cAddr d (0x2_0000 + 2048 * bank + 1608 + 2 * t)) 2) : Rat) / 256
  max (-31) (min (2 * (lsc * (least1 - least0)) + 1 / 2).floor 31)
/-- The LLRs of c[2m + 1] and c[2m] from a symbol's metrics, under the Gray map (R157, R307). -/
def symbolLlrs (s : State) (d bank t : Nat) (m : List Rat) : Int × Int :=
  let g := fun i => m.getD i 0
  (llrOf s d bank t (min (g 2) (g 3)) (min (g 0) (g 1)), llrOf s d bank t (min (g 1) (g 2)) (min (g 0) (g 3)))
/-- An LLR in clear (R321). -/
def clearLlr (pfa n : Nat) (x : Int) : Int := if scrambleBit pfa n then -x else x

/-! Defects (R317, R318). -/

/-- Whether a symbol is in a defect, by the magnitudes of the last 32 resampled samples and how many of them are clipped. -/
def inDefect (s : State) (d : Nat) (mags : List Nat) (clipped : Nat) : Bool :=
  decide (mags.sum * 64 < s.cf d 0x6010 15 8 * 128 * 32) || decide (s.cf d 0x6010 23 16 * 128 * 32 < mags.sum * 64) ||
    decide (8 ≤ clipped)
/-- Whether symbol n is in a defect run: within 16 symbols of one in a defect. -/
def inDefectRun (bad : Int → Bool) (n : Int) : Bool := (List.range 33).any (fun i => bad (n + (i : Int) - 16))
/-- An LLR over a defect run: 0 on the beam's track, within ±7 on the tracks beside it. -/
def defectLlr (own beside : Bool) (x : Int) : Int := if own then 0 else if beside then max (-7) (min x 7) else x

/-! The streams of a head's beams. -/

/-- Symbol n of a beam. -/
def Stream.sample (x : Stream) (n : Int) : Sample := if n + 2048 < 0 then none else x.getD (n + 2048).toNat none
/-- Its value; a lost one counts as 0. -/
def Stream.value (x : Stream) (n : Int) : Int := ((Stream.sample x n).map Prod.fst).getD 0
/-- Whether it is clipped, at the resampler or at the ADC (R317). -/
def Stream.clipped (x : Stream) (n : Int) : Bool := (Stream.sample x n).elim false (fun v => decide (511 ≤ v.1.natAbs) || v.2)
/-- Whether a symbol is in a defect by itself. -/
def Stream.bad (s : State) (d : Nat) (gone : Bool) (x : Stream) (m : Int) : Bool :=
  let run := (List.range 32).map (fun i => m - (i : Int))
  inDefect s d (run.map (fun i => (Stream.value x i).natAbs)) (run.filter (Stream.clipped x)).length ||
    (gone && (Stream.sample x m).isNone)
/-- Whether symbol n of a beam lies in a defect run; `gone` while its sample lane moves to the spare, when a symbol that is missing is
lost (R317, R318). -/
def Stream.defect (s : State) (d : Nat) (gone : Bool) (x : Stream) (n : Int) : Bool :=
  inDefectRun (Stream.bad s d gone x) n

/-- How a pass over a frame reads: the bank, whether by the solo taps alone, and the beams that are lit (R305, R306, R330). -/
structure Pass where
  bank : Nat
  solo : Bool
  lit : List Nat
/-- The symbols of a frame position that are detected, from its first one: those that a mark within reach may align. -/
def detectFrom : Int := -1100
def detectCount : Nat := 22900
/-- Output of the equaliser for track t over those symbols. -/
def equalOut (s : State) (d : Nat) (p : Pass) (xs : List Stream) (t : Nat) : List Rat :=
  (List.range detectCount).map (fun i =>
    let n : Int := detectFrom + (i : Int)
    if p.solo then (equalisedSolo s d p.bank (Stream.value (xs.getD t [])) t n : Rat)
    else (equalised s d p.bank (fun u => p.lit.contains u.toNat) (fun u m => Stream.value (xs.getD u.toNat []) m) t n : Rat))
/-- The detector's metrics of track t by one pass over a stream. -/
def metricsOn (s : State) (d : Nat) (p : Pass) (t : Nat) (ys : List Rat) : List (List Rat) :=
  search (fun a b c => targetValue s d p.bank t a b c) (List.replicate 16 0) ys
/-- A neighbour's expected levels, by its first pass; 0 outside the tracks (R306). -/
def neighbour (s : State) (d : Nat) (p : Pass) (xs : List Stream) (u : Int) : List Rat :=
  if u < 0 ∨ 11 < u then []
  else (metricsOn s d p u.toNat (equalOut s d p xs u.toNat)).map (fun m =>
    Config.expectedLevel m ((List.range 4).map (levelValue s d p.bank u.toNat)))
/-- The metrics that count: in mode 12 those of the second pass, the neighbours' crosstalk taken off (R306). -/
def detected (s : State) (d : Nat) (p : Pass) (xs : List Stream) (t : Nat) : List (List Rat) :=
  let y := equalOut s d p xs t
  if p.solo then metricsOn s d p t y
  else
    let below := neighbour s d p xs ((t : Int) - 1)
    let above := neighbour s d p xs ((t : Int) + 1)
    metricsOn s d p t (((List.range detectCount).zip y).map (fun e =>
      e.2 - crosstalk s d p.bank t (below.getD e.1 0) (above.getD e.1 0)))
/-- What the framer takes the marks of a track from: its samples, or for the beam out of service the equaliser's output (R305, R311;
log entry 136). -/
def markSource (s : State) (d : Nat) (p : Pass) (xs : List Stream) (t : Nat) : Int → Int :=
  if ¬ p.solo ∧ bankOos s d p.bank = some (t : Int) then
    fun n => equalised s d p.bank (fun u => p.lit.contains u.toNat) (fun u m => Stream.value (xs.getD u.toNat []) m) t n
  else Stream.value (xs.getD t [])
/-- The correlation sums of a mark whose symbol 0 is predicted at symbol `at_`, over a window and one offset more at each end: the template
is +1 at L0 and -1 at L3 (R311). -/
def correlate (x : Int → Int) (level : Nat → Nat) (at_ : Int) (w : Nat) : List Int :=
  (List.range (2 * w + 3)).map (fun (i : Nat) =>
    ((List.range 63).map (fun (n : Nat) =>
      let v := x (at_ + ((i : Int) - w - 1) + (n : Int))
      if level n = 0 then v else -v)).sum)
/-- The LLRs of the 10,240 symbols of a half, and three more at each end, from symbol `at_` on, changed by the defect runs of the track and
those beside it (R307, R312, R317). -/
def halfLlrs (s : State) (d : Nat) (p : Pass) (t : Nat) (m : List (List Rat)) (own beside : Int → Bool) (at_ : Int) :
    List (Int × Int) :=
  (List.range 10246).map (fun i =>
    let n := at_ + (i : Int) - 3
    let l := symbolLlrs s d p.bank t (m.getD (n - detectFrom).toNat [])
    (defectLlr (own n) (beside n) l.1, defectLlr (own n) (beside n) l.2))

/-! The decoder: layered min-sum (R158, R321; log entry 136). -/

/-- The bit an LLR decides for: 0 where it favours 0 or nothing. -/
def hardBit (l : List Int) (n : Nat) : Bool := decide (l.getD n 0 < 0)
/-- The codeword bits in the check of row x of block row r. -/
def checkBits (r x : Nat) : List Nat :=
  (List.range 80).filterMap (fun j => (circulant r j).map (fun sh => 512 * j + (x + sh) % 512))
/-- What the others of a check say of one of its bits: the product of their signs, the least of their magnitudes. -/
def minOthers (q : List Int) (i : Nat) : Int :=
  let o := q.eraseIdx i
  let m : Nat := (o.map Int.natAbs).foldl min ((o.map Int.natAbs).headD 0)
  if (o.filter (fun v => decide (v < 0))).length % 2 = 1 then -(m : Int) else m
/-- One check: the LLRs, and the messages of every check, after it. -/
def checkPass (st : List Int × List (List Int)) (n : Nat) : List Int × List (List Int) :=
  let vs := checkBits (n / 512) (n % 512)
  let old := st.2.getD n []
  let ix := List.range vs.length
  let q := ix.map (fun i => st.1.getD (vs.getD i 0) 0 - old.getD i 0)
  let new := ix.map (minOthers q)
  (ix.foldl (fun l i => l.set (vs.getD i 0) (q.getD i 0 + new.getD i 0)) st.1, st.2.set n new)
/-- One iteration: the 12 block rows in turn. -/
def decodePass (st : List Int × List (List Int)) : List Int × List (List Int) := (List.range 6144).foldl checkPass st
/-- Iterations until the syndrome is 0 or none is left: those used, whether it is, the LLRs. -/
def decodeFrom : Nat → Nat → List Int × List (List Int) → Nat × Bool × List Int
  | 0, used, st => (used, decide (syndromeWeight (hardBit st.1) = 0), st.1)
  | cap + 1, used, st =>
    if syndromeWeight (hardBit st.1) = 0 then (used, true, st.1) else decodeFrom cap (used + 1) (decodePass st)
/-- What a decoder makes of a frame's LLRs in clear: the syndrome weight before it iterates, its iterations, whether it converges, and the
payload (R157, R321). -/
structure Decoded where
  weight : Nat
  iters : Nat
  converged : Bool
  payload : List Byte
/-- A decode with an iteration cap. -/
def decodeLlrs (cap : Nat) (l : List Int) : Decoded :=
  let r := decodeFrom cap 0 (l, List.replicate 6144 [])
  { weight := syndromeWeight (hardBit l), iters := r.1, converged := r.2.1
    payload := (List.range 4352).map (fun k =>
      BitVec.ofNat 8 (((List.range 8).map (fun m => b2n (hardBit r.2.2 (8 * k + m)) * 2 ^ m)).sum)) }
/-- Rung 0's shifts of the first and the second half, in symbols: a shift of +n takes each symbol from n symbols later (R330; log entry
136). -/
def rungShifts : List (Int × Int) :=
  let v : List Int := [1, -1, 2, -2, 3, -3]
  v.map (fun x => (x, 0)) ++ v.map (fun x => (0, x)) ++ v.map (fun x => (x, x))
/-- The LLRs in clear of the codeword of the frame at an address, from those kept of its halves, each shifted (R157, R312, R321). -/
def codewordLlrs (pfa : Nat) (a b : List (Int × Int)) (shift : Int × Int) : List Int :=
  (List.range 40960).map (fun (n : Nat) =>
    let m := n / 2
    let l := if m < 10240 then a.getD ((m : Int) + 3 + shift.1).toNat (0, 0)
      else b.getD ((m : Int) - 10240 + 3 + shift.2).toNat (0, 0)
    clearLlr pfa n (if n % 2 = 1 then l.1 else l.2))

end Sys2Proof.Machine
end

