-- ==== Sys2Proof/Machine/ReadChannel.lean ====
section
/-! DEFINITION. The read channels (R294): framing (R311 to R316), first-pass decoding (R321 to R326), the retry ladder (R327 to
R336), training (R337), and the ends of READ and VERIFY (R339, R353 to R355). What reaches a read channel is the conversions of its
head's data ADCs; what the spec leaves open of its stages is named in log entry 136. -/

namespace Sys2Proof.Machine

/-! The frames of an operation. -/

/-- The READ or VERIFY that runs on drive k, its head on the disc and not held by R254. -/
def reading (s : State) (k : Nat) : Option Chop :=
  match s.front k with
  | some o =>
    if (o.op = 1 ∨ o.op = 3) ∧ o.started ∧ ¬ o.positioning ∧ o.heldAt = none ∧ ¬ s.down then some o else none
  | none => none
/-- Replaces frame i of the front operation. -/
def setFrame (k i : Nat) (f : Frame) (s : State) : State :=
  s.modFront k (fun o => { o with frames := Tbl.upd i f o.frames })
/-- The highest rung applied rises to n (R339). -/
def raiseRung (k n : Nat) (s : State) : State :=
  s.modFront k (fun o => { o with rung := if o.rung = 0xFF then n else max o.rung n })
/-- Failing frames of hoist j (R327). -/
def Chop.failing (o : Chop) (j : Nat) : List Nat := (hoistFrames j).filter (fun i => decide ((o.frame i).got = .failing))
/-- Whether a frame of a hoist is a data frame (R161). -/
def isData (i : Nat) : Bool := decide (i % 32 < 30)
/-- Whether every data frame of hoist j is good. -/
def Chop.dataGood (o : Chop) (j : Nat) : Bool :=
  (hoistFrames j).all (fun i => !isData i || decide ((o.frame i).got = .good))
/-- Whether a failing frame may be retried now: a parity frame only while a data frame of its hoist fails (R327). -/
def Chop.retries (o : Chop) (i : Nat) : Bool := isData i || (o.failing (i / 32)).any isData
/-- Whether every frame of hoist j has left first pass and rungs 0 and 1. -/
def Chop.passed (o : Chop) (j : Nat) : Bool :=
  (hoistFrames j).all (fun i => (decide ((o.frame i).got = .good) || decide ((o.frame i).got = .failing)) && !(o.frame i).slot)
/-- Whether every frame of hoist j is blank (R314). -/
def Chop.blankHoist (o : Chop) (j : Nat) : Bool := (hoistFrames j).all (fun i => (o.frame i).blank)
/-- A counter of a head (R341). -/
def headCount (k h n x : Nat) (s : State) : State := s.count k (256 + 32 * h + n) x
/-- A counter of a beam (R624). -/
def beamCount (k b n x : Nat) (s : State) : State := s.count k (448 + 8 * b + n) x

/-! How a pass reads. -/

/-- Tracks that are lit while frame i is read at first pass: those of the mask, in modes 8 and 4 of the classes of the hoists of
its pass (R188, R315). -/
def litTracks (o : Chop) (i : Nat) : List Nat :=
  (if o.mode = 0 then List.range 12 else classTracks (passHoists o i) (posOf (o.pfa + i) % 8)).filter (fun t => bitSet o.beams t)
/-- The alternative bank of an operation's layer (R308). -/
def altBank (s : State) (k : Nat) (o : Chop) : Nat :=
  let l := 5 * pfaLayer o.pfa
  s.cf k (0x6040 + 8 * o.head) (24 + l) (20 + l)
/-- Whether it passes the checks of R309. -/
def altGood (s : State) (k : Nat) (o : Chop) : Bool := bankGood s k (altBank s k o) o.beams (pfaLayer o.pfa) o.head
/-- The first pass over frame i: in mode 12 with the joint taps, in modes 8 and 4 with the solo taps (R305, R306). -/
def readPass (o : Chop) (i : Nat) : Pass := { bank := o.bank.getD 0, solo := decide (o.mode ≠ 0), lit := litTracks o i }
/-- Frames of the open hoists of the present band that a revolution attempt re-reads: on rung 5 attempt n those of tracks with
t mod 3 = n (R330, R331). -/
def Chop.attemptFrames (o : Chop) (r n : Nat) : List Nat :=
  ((o.open_.filter (fun j => decide (o.bandAt j = o.bandNow) && !o.blankHoist j && (o.failing j).any isData)).flatMap o.failing).filter
    (fun i => decide (r ≠ 5) || decide (trackOf (o.pfa + i) % 3 = n))
/-- The pass of a revolution attempt over frame i: on rung 3 with the alternative bank, on rung 5 with the solo taps, only the beams of
those frames at its position lit (R330). -/
def attemptPass (s : State) (k : Nat) (o : Chop) (r n i : Nat) : Pass :=
  let p := readPass o i
  if r = 3 then { p with bank := altBank s k o }
  else if r = 5 then
    { p with
      solo := true
      lit := ((o.attemptFrames r n).filter (fun j => decide (posOf (o.pfa + j) = posOf (o.pfa + i)))).map
        (fun j => trackOf (o.pfa + j)) }
  else p

/-! The order of the ladder (R330, R331). -/

/-- The revolution attempt that comes next in band b: its rung and its number. -/
def nextAttempt (s : State) (k : Nat) (o : Chop) (b : Nat) : Option (Nat × Nat) :=
  let hs := o.open_.filter (fun j => o.bandAt j == b && !o.blankHoist j && (o.failing j).any isData)
  let made := fun (r : Nat) => Tbl.at o.attempts (8 * b + r)
  if hs = [] ∨ o.rungs < 2 then none
  else if o.rungs = 6 ∧ hs.all (fun j => decide ((o.failing j).length ≤ 2)) then none
  else if made 2 < 20 then some (2, made 2)
  else if 3 ≤ o.rungs ∧ made 3 < 1 ∧ altGood s k o then some (3, 0)
  else if 5 ≤ o.rungs then
    (((List.range 3).filter (fun n => decide (made 5 ≤ n))).find? (fun n =>
      hs.any (fun j => (o.failing j).any (fun i => decide (trackOf (o.pfa + i) % 3 = n))))).map (fun n => (5, n))
  else none
/-- Whether rung 6 is still to run on hoist j (R329). -/
def erasureDue (o : Chop) (j : Nat) : Bool :=
  decide (o.rungs = 6) && decide ((o.failing j).length ≤ 2) && (o.failing j).any isData &&
  (o.failing j).all (fun i => decide ((o.frame i).how ≠ 0xF))
/-- Whether everything the ladder allows on hoist j has been done. -/
def ladderOver (s : State) (k : Nat) (o : Chop) (j : Nat) : Bool :=
  o.passed j && (o.blankHoist j || ((nextAttempt s k o (o.bandAt j)).isNone && !erasureDue o j))
/-- The offsets of rung 2's attempt n: tracking first, then focus (R332). -/
def rung2Offset (n : Nat) : Int × Int :=
  let v : Int := if n % 2 = 0 then 10 * (n % 10 / 2 + 1) else -10 * (n % 10 / 2 + 1)
  if n < 10 then (0, v) else (v, 0)
/-- The revolution attempt that the present band calls for: none while its hoists are not all past rungs 0 and 1, or after the guard
(R331, R336). -/
def dueAttempt (s : State) (k : Nat) (o : Chop) : Option (Nat × Nat) :=
  let hs := o.open_.filter (fun j => decide (o.bandAt j = o.bandNow))
  if o.stopWith ≠ 0 ∨ hs = [] ∨ ¬ hs.all o.passed then none else nextAttempt s k o o.bandNow
/-- What follows an event of a READ or VERIFY: the revolution attempt that is due begins, its offsets posted on rung 2, the head
positioned on the first frame it re-reads; how far that lies ahead is free. With none due an offset that stands returns to 0 (R245,
R331, R332). -/
def nextStep (k : Nat) (s : State) : State :=
  match reading s k with
  | some o =>
    if o.attempt.isSome then s
    else
      match dueAttempt s k o with
      | some (r, n) =>
        let s := raiseRung k r (s.modFront k (fun o => { o with attempt := some (r, n), tries := 0, offset := o.offset || r == 2 }))
        let s := if r = 2 then postOffsets k o.head (rung2Offset n).1 (rung2Offset n).2 s else clearOffset k s
        let f := s.freshNat
        position k (o.pfa + (o.attemptFrames r n).headD 0) f.1 f.2
      | none => clearOffset k s
  | none => s

/-! Blocks and their statuses (R325, R326). -/

/-- Byte i of hoist j's buffer. -/
def bufAt (o : Chop) (j i : Nat) : Nat := handleAddr (o.list.getD j 0) + i
/-- Writes bytes of a hoist's buffer. -/
def writeBuf (o : Chop) (j i : Nat) (bs : List Byte) (s : State) : State := writeOperand 0x24 (bufAt o j i) bs s
/-- The status byte of a frame (R326). -/
def statusOf (f : Frame) (how : Nat) : Byte :=
  BitVec.ofNat 8 (how + 16 * b2n f.sec + 32 * b2n f.fly + 64 * b2n f.def_)
/-- A frame's status byte is written; a block that is not delivered is written as 0 (R326). A VERIFY writes nothing. -/
def writeStatus (k i how : Nat) (s : State) : State :=
  match s.front k with
  | some o =>
    if o.op ≠ 1 then s
    else
      let q := i % 32
      let s := if isData i ∧ 0xC ≤ how ∧ how ≠ 0xD then
          writeBuf o (i / 32) (122880 + 256 * q) (List.replicate 256 0)
            (writeBuf o (i / 32) (4096 * q) (List.replicate 4096 0) s)
        else s
      writeBuf o (i / 32) (130560 + q) [statusOf (o.frame i) how] s
  | none => s
/-- A data frame's block after R325: passed with its user data, a key mismatch, or a failure. -/
inductive Check where
  | pass (data : List Byte)
  | mismatch
  | fail
  deriving DecidableEq, Repr
/-- The checks of R325 on a payload of the frame at an address. -/
def checkFrame (s : State) (k key pfa : Nat) (p : List Byte) : Check :=
  let md := (p.drop 4096).take 256
  let kid := leAt md 24 4
  if leAt md 12 4 ≠ pfa ∨ (leAt md 5 1 = 0 ∧ kid = 0) then .fail
  else
    let held := if s.keys.locked then none else (mediaOf s k).find? (fun m => m.id == kid)
    if kid ≠ 0 ∧ (kid ≠ key ∨ held.isNone) then .mismatch
    else
      let data := if kid = 0 then p.take 4096
        else padTo 4096 (Config.xtsDec ((held.map MediaKey.key).getD []) (leAt md 0 4 * 64 + leAt md 4 1) (p.take 4096))
      if leAt md 252 4 = crc32c (data ++ md.take 252) then .pass data else .fail
/-- A frame that no longer waits for its decoders: its LLRs and its slot are given up (R324). -/
def Frame.over (f : Frame) (got : Got) : Frame := { f with got := got, slot := false, llrA := [], llrB := [] }
/-- A converged frame's outcome at a rung's how: a parity frame is good; a data frame is good when it passes, its block then recovered
and, of a READ, its flag cleared, or when its key does not match (R325, R335). Answers whether it is good. -/
def takeFrame (k i how : Nat) (first : Bool) (p : List Byte) (s : State) : Bool × State :=
  match s.front k with
  | none => (false, s)
  | some o =>
    let f := { (o.frame i).over .good with payload := p, first := first }
    let q := i % 32
    if !isData i then (true, writeStatus k i how (setFrame k i { f with how := how } s))
    else
      match checkFrame s k o.key (o.pfa + i) p with
      | .fail => (false, setFrame k i ((o.frame i).over .failing) s)
      | .mismatch =>
        let s := setFrame k i { f with how := 0xD } s
        let s := if o.op = 1 then
            writeBuf o (i / 32) (122880 + 256 * q) ((p.drop 4096).take 256)
              (writeBuf o (i / 32) (4096 * q) (List.replicate 4096 0) s)
          else s
        (true, writeStatus k i 0xD (headCount k o.head 17 1 s))
      | .pass data =>
        let s := setFrame k i { f with how := how } s
        let s := if o.op = 1 then
            judgeFrame k (o.pfa + i) false
              (writeBuf o (i / 32) (122880 + 256 * q) ((p.drop 4096).take 256) (writeBuf o (i / 32) (4096 * q) data s))
          else s
        (true, writeStatus k i how s)

/-- A block is left unrecovered: status, count, and its version flagged (R335). A VERIFY flags nothing. -/
def blockLost (k i : Nat) (s : State) : State :=
  match s.front k with
  | some o =>
    let s := writeStatus k i 0xF s
    if !isData i then s
    else
      let s := headCount k o.head 8 1 (s.modFront k (fun o => { o with flagged := o.flagged + 1 }))
      if o.op = 1 then judgeFrame k (o.pfa + i) true s else s
  | none => s

/-! Hoists (R327, R328). -/

/-- The frame a syndrome pair locates, if any. -/
def locates (p : Nat × Nat) : Option Nat :=
  if p.1 = 0 ∨ p.2 = 0 then none else (List.range 32).find? (fun i => locator i == gfDiv p.2 p.1)
/-- The syndrome pairs of a hoist's byte positions. -/
def hoistSyndromes (o : Chop) (j : Nat) : List (Nat × Nat) :=
  (List.range 4352).map (fun b => syndromes ((hoistFrames j).map (fun i => (i % 32, byteOf (o.frame i).payload b))))
/-- The hoist check of R328 on a hoist whose frames are all good. A frame it corrects has not passed at first pass, so that it fails a
VERIFY (R353). -/
def hoistCheck (k j : Nat) (s : State) : State :=
  match s.front k with
  | none => s
  | some o =>
    let syn := hoistSyndromes o j
    let bad := syn.filter (fun p => decide (p ≠ (0, 0)))
    match bad.head?.map locates with
    | none => s
    | some none => headCount k o.head 18 1 s
    | some (some q) =>
      if !bad.all (fun p => locates p == some q) then headCount k o.head 18 1 s
      else if 30 ≤ q then s
      else
        let i := 32 * j + q
        if o.rungs < 6 then blockLost k i (setFrame k i { o.frame i with how := 0xF } s)
        else
          let p := ((List.range 4352).zip syn).map (fun e =>
            BitVec.ofNat 8 (Nat.xor (byteOf (o.frame i).payload e.1) e.2.1))
          let r := takeFrame k i 7 false p s
          if r.1 then
            headCount k o.head 7 1 (raiseRung k 6 (r.2.modFront k (fun o => { o with erased := o.erased + 1 })))
          else blockLost k i (setFrame k i { o.frame i with how := 0xF, got := .good } r.2)

/-- A hoist is settled: it counts as completed, and it is a hoist boundary (R337, R339). -/
def settled (k j : Nat) (s : State) : State :=
  match s.front k with
  | none => s
  | some o => commitTraining k o.head (s.modFront k (fun o => { o with settled := o.settled ++ [j], done := o.done + 1 }))
/-- Parity frames of a hoist whose data frames are all good are retried no more (R327). -/
def dropParity (k j : Nat) (s : State) : State :=
  s.modFront k (fun o =>
    if o.dataGood j then
      { o with frames := o.frames.map (fun e =>
          if e.1 / 32 = j ∧ e.2.got = .failing ∧ e.2.slot then (e.1, e.2.over .failing) else e) }
    else o)
/-- A hoist of a READ or VERIFY whose last frame has become good is checked and settled (R328). -/
def settleGood (k j : Nat) (s : State) : State :=
  let s := dropParity k j s
  match s.front k with
  | none => s
  | some o =>
    if o.op ≠ 2 ∧ (hoistFrames j).all (fun i => decide ((o.frame i).got = .good)) ∧ ¬ o.settled.contains j then
      settled k j (if s.cf k 0x6000 0 0 = 1 then hoistCheck k j s else s)
    else s
/-- The verdict on a hoist that the ladder leaves with failing frames: blank; or out of frame, which ends the READ with
cstat 0x04; or its failing blocks unrecovered (R314, R315, R331). Answers whether the operation goes on. -/
def settleFailing (k j : Nat) (s : State) : Bool × State :=
  match s.front k with
  | none => (false, s)
  | some o =>
    let bad := o.failing j
    if o.blankHoist j then (true, settled k j ((hoistFrames j).foldl (fun s i => writeStatus k i 0xE s) s))
    else if bad.any (fun i => o.oofAt.contains (posOf (o.pfa + i))) then
      let s := bad.foldl (fun s i => writeStatus k i 0xC s) s
      (false, endChop k 4 (o.hoistPfa j) s)
    else (true, settled k j (bad.foldl (fun s i => blockLost k i s) s))
/-- Settles hoists of a READ in order, while the operation goes on. -/
def settleAll (k : Nat) : List Nat → State → Bool × State
  | [], s => (true, s)
  | j :: t, s =>
    match settleFailing k j s with
    | (true, s) => settleAll k t s
    | (false, s) => (false, s)

/-! Framing (R311 to R316). -/

/-- The correlation sum at offset d of a window of w symbols each side; the list holds one more at each end. -/
def corr (c : List Int) (w : Nat) (d : Int) : Int := c.getD (d + w + 1).toNat 0
/-- The offsets of a window. -/
def windowOffsets (w : Nat) : List Int := (List.range (2 * w + 1)).map (fun i => (i : Int) - w)
/-- Whether offset d is a candidate: it reaches thr / 64 of 63 * 192 and exceeds its neighbours, the earlier of a tie
counting (R311). -/
def isCandidate (c : List Int) (w thr : Nat) (d : Int) : Bool :=
  decide ((thr * 12096 : Int) ≤ corr c w d * 64) && decide (corr c w (d - 1) < corr c w d) &&
  decide (corr c w (d + 1) ≤ corr c w d)
/-- The mark's offset: the greatest candidate, or the nearest to the prediction of those within 3 symbols of it (R311). -/
def findMark (c : List Int) (w thr : Nat) : Option Int :=
  let cs := (windowOffsets w).filter (isCandidate c w thr)
  match sortBy (fun x y => decide (corr c w y < corr c w x)) cs with
  | [] => none
  | best :: _ =>
    (sortBy (fun x y => decide (x.natAbs < y.natAbs) ||
        (decide (x.natAbs = y.natAbs) && decide (corr c w y < corr c w x)))
      (cs.filter (fun d => decide ((d - best).natAbs ≤ 3)))).head?
/-- Half the window of the sync search, and its threshold: wider in LOST (R311, R313). -/
def searchWindow (lost : Bool) : Nat := if lost then 1024 else 48
def searchThr (s : State) (k : Nat) (lost : Bool) : Nat := if lost then s.cf k 0x6008 13 8 else s.cf k 0x6008 5 0
/-- The marks found on track t, each by its offset from where the wobble count places it: SM2 is sought 10,304 symbols after SM1, or
where the count places it when SM1 is missed (R311). -/
def findMarks (s : State) (k : Nat) (p : Pass) (xs : List Stream) (t : Nat) (lost : Bool) : Option Int × Option Int :=
  let x := markSource s k p xs t
  let w := searchWindow lost
  let thr := searchThr s k lost
  let d1 := findMark (correlate x sm1Level 32 w) w thr
  (d1, (findMark (correlate x sm2Level (10336 + d1.getD 0) w) w thr).map (· + d1.getD 0))
/-- What the framer makes of a frame: its two marks, whether the beam is in LOST, blank or not, and the flywheeled run. -/
def framing (d1 d2 : Option Int) (lost blank : Bool) (run : Nat) : Frame × Bool × Nat :=
  if d1.isSome ∨ d2.isSome then
    ({ got := .decoding, sec := d1.isNone, both := d1.isSome && d2.isSome }, false, 0)
  else if blank then ({ got := .failing, blank := true }, lost, run)
  else if lost then ({ got := .failing }, true, 0)
  else if run < 2 then ({ got := .decoding, fly := true }, false, run + 1)
  else ({ got := .failing }, true, 0)
/-- The symbols of a frame's data from its two halves' starts on (R155). -/
def dataSymbols (a b : Int) : List Int :=
  (List.range 10240).map (fun i => a + (i : Int)) ++ (List.range 10240).map (fun i => b + (i : Int))
/-- Greatest less least of some samples. -/
def peakToPeak (l : List Int) : Nat := (l.foldl max (l.headD 0) - l.foldl min (l.headD 0)).toNat
/-- Whether a beam's sample lane moves to the spare: at most 200 µs since it failed, or a frame before that (R20, R318). -/
def laneMoving (s : State) (k b : Nat) : Bool :=
  s.rst.switching.any (fun e => e.1 == k && e.2.1 == b && decide (s.time ≤ e.2.2 + 325000))

/-- What a read channel makes of a frame that passes: the frame, with the LLRs of its halves where it is to be decoded; whether the beam
is then in LOST, its flywheeled run, and the offset of its first mark found; whether it is erased whole (R311 to R319). -/
structure Seen where
  frame : Frame
  lost : Bool
  run : Nat
  off : Option Int
  erased : Bool
/-- Reads a frame of track t by a pass over the resampled symbols of its head's beams. -/
def see (s : State) (k h : Nat) (p : Pass) (t : Nat) (xs : List Stream) : Seen :=
  let lost := bitSet (s.cf k (0x6080 + 8 * h) 23 12) t
  let last := Tbl.at (s.head k h).lastOff t
  let d := findMarks s k p xs t lost
  let run := fun (u : Int) (n : Int) => decide (0 ≤ u) && p.lit.contains u.toNat &&
    Stream.defect s k (laneMoving s k (12 * h + u.toNat)) (xs.getD u.toNat []) n
  let a := 96 + (d.1.or d.2).getD last
  let b := 10400 + (d.2.or d.1).getD last
  let clear := (dataSymbols a b).filter (fun n => !run t n)
  let blank := d.1.isNone && d.2.isNone &&
    decide (peakToPeak (clear.map (markSource s k p xs t)) * 256 < s.cf k 0x6010 7 0 * 384)
  let r := framing d.1 d.2 lost blank (Tbl.at (s.head k h).flyRun t)
  let n := ((List.range 20640).filter (fun i => run t ((i : Int) + (a - 96)))).length
  let erased := (decide (r.1.got = .failing) && !blank) || (decide (r.1.got = .decoding) && decide (8192 < 20480 - clear.length))
  let f : Frame := { r.1 with defects := n, def_ := decide (0 < n), got := if erased then .failing else r.1.got }
  let half := fun (at_ : Int) =>
    halfLlrs s k p t (detected s k p xs t) (run t) (fun m => run ((t : Int) - 1) m || run ((t : Int) + 1) m) at_
  { frame := if f.got = .decoding then { f with llrA := half a, llrB := half b } else f
    lost := r.2.1, run := r.2.2, off := d.1.or d.2, erased := erased }

/-- A frame passes its beam, on the first pass or on a re-read: what the framer makes of it, the beam's LOST and framed bits, its
timing loop's `fine`, whether the head is out of frame there, and the counts (R301, R313, R315, R340, R341, R624). -/
def readFrame (k i : Nat) (first : Bool) (p : Pass) (xs : List Stream) (fine : Int) (s : State) : State :=
  match s.front k with
  | none => s
  | some o =>
    let h := o.head
    let t := trackOf (o.pfa + i)
    let b := 12 * h + t
    let st := 0x6080 + 8 * h
    let lost := bitSet (s.cf k st 23 12) t
    let z := see s k h p t xs
    let f := z.frame
    let s := s.modHead k h (fun x => { x with
      flyRun := Tbl.upd t z.run x.flyRun
      lastOff := z.off.elim x.lastOff (fun d => Tbl.upd t d x.lastOff) })
    let s := (s.setCf k st (12 + t) (12 + t) (b2n z.lost)).setCf k st t t (b2n z.off.isSome)
    let a := 0x6100 + 8 * b
    let lim := decide (512 ≤ fine.natAbs)
    let hit := lim && decide ((fromField 16 (s.cf k a 47 32)).natAbs < 512)
    let s := s.setCf k a 47 32 (toField 16 (max (-512) (min 512 fine)))
    let s := if lim then s.setCf k a 24 24 1 else s
    let oof := decide (p.lit.length < 2 * (p.lit.filter (fun u => bitSet (s.cf k st 23 12) u)).length)
    let s := s.setCf k st 28 28 (b2n oof)
    let q := posOf (o.pfa + i)
    let s := s.modFront k (fun o => { o with
      oofAt := (if oof then [q] else []) ++ o.oofAt.filter (fun x => x != q) })
    let s := setFrame k i f s
    let s := if first then headCount k h 0 1 s else s
    let s := beamCount k b 1 f.defects (beamCount k b 0 20640 (headCount k h 12 f.defects s))
    let s := if z.off.isSome ∧ f.sec = false then beamCount k b 2 1 s
      else if z.off.isSome then beamCount k b 3 1 (headCount k h 9 1 s) else s
    let s := if f.fly then beamCount k b 4 1 (headCount k h 10 1 s) else s
    let s := if hit then beamCount k b 5 1 s else s
    let s := if !lost && z.lost then beamCount k b 7 1 (headCount k h 11 1 s) else s
    let s := if first && decide (f.got = .failing) && !f.blank then beamCount k b 6 1 s else s
    if z.erased then headCount k h 13 1 s else s

/-- The WRITE that runs on drive k and verifies inline (R354). -/
def verifying (s : State) (k : Nat) : Option Chop :=
  match s.front k with
  | some o =>
    if o.op = 2 ∧ bitSet o.flags 0 ∧ o.started ∧ ¬ o.positioning ∧ o.stopWith = 0 ∧ ¬ s.down then some o else none
  | none => none
/-- The operation whose frames pass the head of drive k: a READ or VERIFY, or a WRITE that verifies inline. -/
def passing (s : State) (k : Nat) : Option Chop := (reading s k).or (verifying s k)

/-! The verify test (R353). -/

/-- What was burnt of a hoist, as far as the device knows. -/
def burntOf (s : State) (k h : Nat) : Option (List (List Byte)) :=
  (((s.channel k).burnt.filter (fun b => b.hoist == h)).getLast?).map Burnt.payloads
/-- Whether hoist j passes the verify test (R353). -/
def verifyPass (s : State) (k : Nat) (o : Chop) (j : Nat) : Bool :=
  let vit := max 1 (s.cf k 0x7100 23 20)
  let same := fun (i : Nat) => match burntOf s k (o.pfa / 32 + j) with
    | some ps => ((o.frame i).payload.drop 4096).take 6 == ((ps.getD (i % 32) []).drop 4096).take 6
    | none => true
  (hoistFrames j).all (fun i =>
    let f := o.frame i
    f.both && f.first && decide (f.got = .good) && decide (f.iters ≤ vit) && decide (f.weight ≤ s.cf k 0x7100 12 0) &&
    decide (f.defects ≤ 16 * s.cf k 0x7100 31 24) && (!isData i || same i)) &&
  (hoistSyndromes o j).all (fun p => decide (p = (0, 0)))
/-- A frame of an inline verify passes its beam: the hoists of its band and those before are burnt first, and those of earlier bands
have passed; a hoist whose burn may not begin ends the WRITE (R347, R354; log entry 137). -/
def verifyRead (k i : Nat) (adc : List (List (Option (BitVec 8)))) (start : Rat) (fine : Int) (o : Chop) (s : State) : State :=
  let b := o.bandAt (i / 32)
  let hs := List.range o.hoists
  let js := hs.filter (fun j => decide (o.bandAt j ≤ b) && !o.begun.contains j)
  if 32 * o.hoists ≤ i ∨ (o.frame i).got ≠ .unread ∨
      ¬ (hs.filter (fun j => decide (o.bandAt j < b))).all (verifyPass s k o) then s
  else
    let s := settleSources o js s
    match beginRefusal s k o js with
    | some why => refuseBurn k (o.hoistPfa o.begun.length) why s
    | none =>
      readFrame k i true (readPass o i) (streamsOf s k o.head adc start) fine (js.foldl (fun s j => beginOne k j s) s)

/-- FRAME_READ: frame i passes its beam at first pass; `adc` are the conversions of the head's data ADCs about it, a lost one none,
`start` the place in them where the wobble loop puts symbol 0 under the servo spot, `fine` the beam's timing loop (R301). A frame of a
later band waits for the ladder on the earlier ones (R331); once the guard has cancelled the READ only hoists in hand are read on
(R137). -/
def execFrameRead (k i : Nat) (adc : List (List (Option (BitVec 8)))) (start : Rat) (fine : Int) (s : State) : Res :=
  .next (match reading s k with
    | none => (verifying s k).elim s (fun o => verifyRead k i adc start fine o s)
    | some o =>
      let j := i / 32
      let before := o.open_.filter (fun j' => decide (o.bandAt j' < o.bandAt j))
      if 32 * o.hoists ≤ i ∨ (o.frame i).got ≠ .unread ∨ (o.stopWith ≠ 0 ∧ ¬ o.begunRead j) ∨
          ¬ before.all (fun j' => o.op == 1 && ladderOver s k o j') then s
      else
        match settleAll k before s with
        | (false, s) => s
        | (true, s) => nextStep k (readFrame k i true (readPass o i) (streamsOf s k o.head adc start) fine s))

/-! Decoding and rungs 0 and 1 (R321 to R324, R330). -/

/-- Whether pooled decoder p of drive k is free: it has no fault and takes no beam (R322). -/
def pooledFree (s : State) (k p : Nat) : Bool :=
  (Tbl.at (s.channel k).pooled (24 + p)).isNone && !(s.channel k).pooled.any (fun e => decide (e.1 < 24) && e.2 == some p)
/-- The pooled decoder that runs rungs 0 and 1 for head h; none when both substitute (R322). -/
def pooledFor (s : State) (k h : Nat) : Option Nat :=
  if pooledFree s k h then some h else if pooledFree s k (1 - h) then some (1 - h) else none
/-- With no pooled decoder left, rungs 0 and 1 are passed over: no frame waits in the retry store (R322, R324). -/
def passOver (k h : Nat) (s : State) : State :=
  if (pooledFor s k h).isSome then s
  else s.modFront k (fun o => { o with frames := o.frames.map (fun e => if e.2.slot then (e.1, e.2.over .failing) else e) })
/-- The decoder that serves beam b: its own, or the pooled one that substitutes it (R322). -/
def decoderOf (s : State) (k b : Nat) : Nat :=
  match Tbl.at (s.channel k).pooled b with
  | some p => if p < 2 then 24 + p else b
  | none => b
/-- A decoder fault (R322): decoder d of drive k, 24 and 25 the pooled ones. A free pooled decoder, the head's own first, takes the
beam that d served; the fault is recorded; the third on the C-die is controlled-stop code 3 (R604). -/
def decoderFault (k d h : Nat) (s : State) : State :=
  let ch := s.channel k
  if (Tbl.at ch.pooled d).isSome then s
  else
    let beam := if d < 24 then some d
      else (ch.pooled.find? (fun e => decide (e.1 < 24) && e.2 == some (d - 24))).map Prod.fst
    let s := s.setChannel k { ch with pooled := Tbl.upd d (some 2) ch.pooled }
    let s := if 24 ≤ d then s.setCf k (0x6080 + 8 * (d - 24)) 25 25 0 else s
    let sub := beam.bind (fun b => pooledFor s k (b / 12))
    let s := beam.elim s (fun b =>
      s.setChannel k { s.channel k with pooled := Tbl.upd b (some (sub.getD 2)) (s.channel k).pooled })
    let s := match sub with
      | some p => s.setCf k (0x6080 + 8 * p) 25 25 1
      | none => s
    let s := passOver k h (logFault 0x0012 k h k 0xFF (d + (sub.map (· * 32)).getD 0) s)
    if 3 ≤ (s.channel k).pooled.length then controlledStop 3 s else s
/-- Frames that hold a slot of the retry store. -/
def Chop.slotsUsed (o : Chop) : Nat := (o.frames.filter (fun e => e.2.slot)).length
/-- Whether rung 0 applies to a frame that failed with a syndrome weight (R330). -/
def misaligned (s : State) (k weight : Nat) : Bool := decide (s.cf k 0x6000 15 8 * 24 ≤ weight)
/-- First-pass iteration cap: the smaller of rc.ctl.icap and the icap of the mode trade table's row in force; a value out of 1
to 8 acts as 8 in either (R39, R323, R485; log entry 120). -/
def icapOf (s : State) (k : Nat) : Nat :=
  let cap := fun (v : Nat) => if v = 0 ∨ 8 < v then 8 else v
  min (cap (s.cf k 0x6000 19 16)) (cap (s.rowField k 19 16))
/-- Iteration cap of rung 1 (R323). -/
def icap1Of (s : State) (k : Nat) : Nat := max 9 (s.cf k 0x6000 31 26)
/-- What a decoder makes of frame i, its halves shifted (R321, R330). -/
def decodeFrame (o : Chop) (i cap : Nat) (shift : Int × Int) : Decoded :=
  decodeLlrs cap (codewordLlrs (o.pfa + i) (o.frame i).llrA (o.frame i).llrB shift)

/-! Training (R337). -/

/-- Step of the adaptation, 2^-(mu + 8). -/
def trainStep (s : State) (k h : Nat) : Rat := 1 / 2 ^ (s.cf k (0x6060 + 8 * h) 15 12 + 8)
/-- A shadow whose adaptation gives `new`: joint taps in mode 12, solo taps in modes 8 and 4, level, xres and lsc in every mode, never
target (R304, R337). -/
def adaptShadow (mode : Nat) (old new : List Byte) : List Byte :=
  let part := fun (l : List Byte) (a b : Nat) => padTo (b - a) (l.drop a)
  part (if mode = 0 then new else old) 0 1032 ++ part (if mode = 0 then old else new) 1032 1392 ++ part old 1392 1464 ++
    part new 1464 1632 ++ part old 1632 2048
/-- Whether adaptation has converged: on every track the errors of the last 32 frames lie within 2 % of those of the 32 before. -/
def trainDone (x : Head) : Bool :=
  (List.range 12).all (fun t =>
    let l := Tbl.at x.trainMse t
    decide (64 ≤ l.length) && decide (50 * (((l.take 32).sum : Int) - ((l.drop 32).sum : Int)).natAbs ≤ (l.drop 32).sum))
/-- A frame of track t, converged and passed at first pass, adapts the shadow of a run on the operation's bank against its corrected
symbols; how far is free (log entry 136). -/
def adapt (k t : Nat) (payload : List Byte) (s : State) : State :=
  match s.front k with
  | none => s
  | some o =>
    let x := s.head k o.head
    match x.train with
    | some (m, _) =>
      if o.op ≠ 1 ∨ o.bank ≠ some m ∨ x.trained then s
      else
        let f := s.freshNat
        let new := Config.adapted (trainStep s k o.head) x.shadow payload f.1
        let mse := Config.trainError x.shadow payload f.1
        f.2.modHead k o.head (fun x =>
          let y := { x with
            shadow := adaptShadow o.mode x.shadow new
            trainMse := Tbl.upd t ((mse :: Tbl.at x.trainMse t).take 64) x.trainMse
            trainCount := Tbl.upd t (Tbl.at x.trainCount t + 1) x.trainCount }
          { y with trained := trainDone y })
    | none => s

/-- FIRST_PASS_DECODE_END: the decoder of frame i's beam ends, having found its fault or none (R321 to R325, R337). -/
def execFirstPassDecodeEnd (k i : Nat) (fault : Bool) (s : State) : Res :=
  .next (match passing s k with
    | none => s
    | some o =>
      let h := o.head
      let t := trackOf (o.pfa + i)
      let b := 12 * h + t
      if (o.frame i).got ≠ .decoding then s
      else
        let d := decodeFrame o i (icapOf s k) (0, 0)
        let f := { o.frame i with weight := d.weight, iters := d.iters }
        let s := headCount k h 14 d.iters (setFrame k i f s)
        let r := if d.converged && !fault then takeFrame k i 0 true d.payload s else (false, s)
        if r.1 then nextStep k (settleGood k (i / 32) (adapt k t d.payload (headCount k h 1 1 r.2)))
        else
          let slot := (!d.converged || fault) && decide (o.slotsUsed < o.slots) && (pooledFor s k h).isSome &&
            (misaligned s k d.weight || decide (1 ≤ o.rungs)) && (isData i || !o.dataGood (i / 32))
          let g := if slot then { f with got := .failing, slot := true } else f.over .failing
          let s := setFrame k i g (beamCount k b 6 1 r.2)
          nextStep k (if fault then decoderFault k (decoderOf s k b) h s else s))

/-- The syndrome weights of frame i at the 18 shifts (R330). -/
def shiftWeights (o : Chop) (i : Nat) : List Nat :=
  rungShifts.map (fun x => syndromeWeight (hardBit (codewordLlrs (o.pfa + i) (o.frame i).llrA (o.frame i).llrB x)))
/-- The lowest of them and the earliest shift that gives it. -/
def bestShift (o : Chop) (i : Nat) : Nat × (Int × Int) :=
  let ws := shiftWeights o i
  let low := ws.foldl min (ws.headD 0)
  (low, ((ws.zip rungShifts).find? (fun e => e.1 == low)).elim (0, 0) Prod.snd)

/-- The retry store is read for frame i. The spec gives its contents no layout, so that where one of its words is uncorrectable it is
free whether the frame's LLRs lie in it; if they do, the frame passes over rungs 0 and 1 (R324, R420; log entry 136). Answers
whether it does. -/
def storeFails (k i : Nat) (o : Chop) (s : State) : Bool × State :=
  match o.store.findSome? (fun h => badWord s (handleAddr h) 0x2_0000) with
  | none => (false, s)
  | some w =>
    let n := s.freshNat
    if n.1 % 2 = 0 then (false, n.2)
    else (true, logUncorrectable (0x22 + o.head) w (countBad w 1 (setFrame k i ((o.frame i).over .failing) n.2)))

/-- ALIGNMENT_RETRY: rung 0 on frame i: a decode at the shift of lowest syndrome weight. A lowest weight that is still too high goes
to rung 1 unshifted, a decode that fails there at that shift (R330). -/
def execAlignmentRetry (k i : Nat) (fault : Bool) (s : State) : Res :=
  .next (match reading s k with
    | none => s
    | some o =>
      let f := o.frame i
      let h := o.head
      let st := storeFails k i o s
      if f.got ≠ .failing ∨ ¬ f.slot ∨ f.rung0 ∨ ¬ misaligned s k f.weight ∨ ¬ o.retries i then s
      else if st.1 then nextStep k st.2
      else
        let s := st.2
        let s := raiseRung k 0 s
        let best := bestShift o i
        let g := if o.rungs < 1 then { f.over .failing with rung0 := true } else { f with rung0 := true }
        if misaligned s k best.1 then nextStep k (setFrame k i g s)
        else
          let d := decodeFrame o i (icapOf s k) best.2
          let s := headCount k h 14 d.iters (setFrame k i { g with shift := best.2 } s)
          let r := if d.converged && !fault then takeFrame k i 1 false d.payload s else (false, s)
          let s := if r.1 then settleGood k (i / 32) (headCount k h 2 1 r.2) else r.2
          nextStep k (if fault then (pooledFor s k h).elim s (fun p => decoderFault k (24 + p) h s) else s))

/-- RUNG_1_DECODE_END: rung 1 on frame i ends, at the shift rung 0 chose if any; its slot is free again (R324, R330). -/
def execRung1DecodeEnd (k i : Nat) (fault : Bool) (s : State) : Res :=
  .next (match reading s k with
    | none => s
    | some o =>
      let f := o.frame i
      let h := o.head
      let st := storeFails k i o s
      if f.got ≠ .failing ∨ ¬ f.slot ∨ o.rungs < 1 ∨ (misaligned s k f.weight ∧ ¬ f.rung0) ∨ ¬ o.retries i then s
      else if st.1 then nextStep k st.2
      else
        let s := st.2
        let d := decodeFrame o i (icap1Of s k) f.shift
        let s := headCount k h 14 d.iters (raiseRung k 1 (setFrame k i (f.over .failing) s))
        let r := if d.converged && !fault then takeFrame k i 2 false d.payload s else (false, s)
        let s := if r.1 then settleGood k (i / 32) (headCount k h 3 1 r.2) else r.2
        nextStep k (if fault then (pooledFor s k h).elim s (fun p => decoderFault k (24 + p) h s) else s))

/-! Revolution rungs and rung 6 (R329 to R332). -/

/-- One frame re-read by attempt n of rung r: it passes its beam, and is decoded where it is framed (R330, R331). -/
def takeReread (k r n i : Nat) (adc : List (List (Option (BitVec 8)))) (start : Rat) (fine : Int) (fault : Bool) (s : State) : State :=
  match s.front k with
  | none => s
  | some o =>
    if !(o.attemptFrames r n).contains i then s
    else
      let s := readFrame k i false (attemptPass s k o r n i) (streamsOf s k o.head adc start) fine s
      match s.front k with
      | none => s
      | some o =>
        if (o.frame i).got ≠ .decoding then s
        else
          let d := decodeFrame o i (icapOf s k) (0, 0)
          let s := headCount k o.head 14 d.iters (setFrame k i
            { (o.frame i).over .failing with weight := d.weight, iters := d.iters } s)
          let t := if d.converged && !fault then takeFrame k i (r + 1) false d.payload s else (false, s)
          let s := if t.1 then headCount k o.head (if r = 2 then 4 else if r = 3 then 5 else 6) 1 t.2 else t.2
          if fault then decoderFault k (decoderOf s k (12 * o.head + trackOf (o.pfa + i))) o.head s else s

/-- REVOLUTION_ATTEMPT_END: the revolution attempt in progress ends; `frames` are the frames it re-read: number, conversions, the place
of symbol 0, `fine`, and whether its decoder had a fault (R330 to R332). -/
def execRevolutionAttemptEnd (k : Nat) (frames : List (Nat × List (List (Option (BitVec 8))) × Rat × Int × Bool)) (s : State) : Res :=
  .next (match reading s k with
    | none => s
    | some o =>
      match o.attempt with
      | none => s
      | some (r, n) =>
        if o.stopWith ≠ 0 then s
        else
          let b := o.bandNow
          let hs := o.open_.filter (fun j => decide (o.bandAt j = b))
          let s := s.modFront k (fun o => { o with attempts := Tbl.upd (8 * b + r) (n + 1) o.attempts })
          let s := frames.foldl (fun s x => takeReread k r n x.1 x.2.1 x.2.2.1 x.2.2.2.1 x.2.2.2.2 s) s
          let s := s.modFront k (fun o => { o with attempt := none })
          nextStep k (hs.foldl (fun s j => settleGood k j s) s))

/-- ERASURE_DECODE: rung 6 on hoist j, whose failing frames number one or two: the codec computes them from the others and
checks each data frame (R329). -/
def execErasureDecode (k j : Nat) (s : State) : Res :=
  .next (match reading s k with
    | none => s
    | some o =>
      if o.settled.contains j ∨ o.hoists ≤ j ∨ o.stopWith ≠ 0 ∨ ¬ o.passed j ∨ o.blankHoist j ∨ ¬ erasureDue o j ∨
          (nextAttempt s k o (o.bandAt j)).isSome then s
      else
        let bad := (o.failing j).map (· % 32)
        let x := bad.headD 0
        let y := bad.getD 1 (if x = 31 then 30 else 31)
        let known := ((List.range 32).filter (fun i => i != x && i != y)).map (fun i => (i, (o.frame (32 * j + i)).payload))
        let p := eraseTwo x y known
        let s := raiseRung k 6 s
        let s := ((o.failing j).zip [p.1, p.2]).foldl (fun s e =>
          let r := takeFrame k e.1 7 false e.2 s
          if r.1 then headCount k o.head 7 1 (r.2.modFront k (fun o => { o with erased := o.erased + 1 }))
          else setFrame k e.1 { o.frame e.1 with how := 0xF } r.2) s
        nextStep k (settleGood k j s))

/-! The ends of READ and VERIFY (R315, R336, R339, R353, R354). -/

/-- The hoists in hand of a READ that the guard cancels, and those complete but for their ladder: what is not recovered takes how 0xC;
a blank hoist is blank (R137, R336). -/
def cancelHoist (k j : Nat) (s : State) : State :=
  match s.front k with
  | none => s
  | some o =>
    if !o.begunRead j then s
    else
      let how := if o.blankHoist j then 0xE else 0xC
      settled k j ((hoistFrames j).foldl (fun s i => if (o.frame i).got = .good then s else writeStatus k i how s) s)
/-- Whether a READ that the guard cancels has still to end its present hoist: one is partly read, or its first pass decodes go on
(R137). -/
def Chop.finishing (o : Chop) : Bool :=
  o.open_.any (fun j => o.begunRead j && (o.unread j || (hoistFrames j).any (fun i => decide ((o.frame i).got = .decoding))))
/-- The READ that the guard cancels on drive k, be it on its way or held. -/
def cancelled (s : State) (k : Nat) : Option Chop :=
  match s.front k with
  | some o => if o.op = 1 ∧ o.started ∧ o.stopWith ≠ 0 ∧ ¬ s.down then some o else none
  | none => none

/-- CHOP_READ_END: the guard has cancelled the READ and its present hoist has ended, or every hoist is settled or can be (R137, R336,
R339). -/
def execChopReadEnd (k : Nat) (s : State) : Res :=
  .next (match cancelled s k with
    | some o =>
      if o.finishing then s
      else
        let s := o.open_.foldl (fun s j => cancelHoist k j s) s
        endChop k o.stopWith (match s.front k with
          | some o => o.hoistPfa o.firstOpen
          | none => o.pfa) s
    | none =>
      match reading s k with
      | none => s
      | some o =>
        if o.op ≠ 1 ∨ !o.open_.all (fun j => ladderOver s k o j) then s
        else
          match settleAll k o.open_ s with
          | (false, s) => s
          | (true, s) =>
            let flagged := (s.front k).elim 0 Chop.flagged
            endChop k (if flagged = 0 then 0 else 1) (o.pfa + 32 * o.hoists) s)

/-- Frames of kind 0x00 of a hoist as read. -/
def usersOf (o : Chop) (j : Nat) : List Nat :=
  (List.range 30).filterMap (fun q =>
    if leAt (o.frame (32 * j + q)).payload 4101 1 = 0 then some (o.hoistPfa j + q) else none)
/-- Whether a VERIFY judges hoist j good: it passes the verify test, or it is an entry of unknown state that is blank (R353, R372). -/
def verifyGood (s : State) (k : Nat) (o : Chop) (j : Nat) : Bool :=
  verifyPass s k o j || (o.blankHoist j && (s.map k).brec.any (fun e => e.hoist == o.pfa / 32 + j && e.state == 5))
/-- What that does to its entry in the burn record (R355, R372). -/
def passVerify (k : Nat) (o : Chop) (s : State) (j : Nat) : State :=
  if o.blankHoist j then blankHoist k (o.pfa / 32 + j) s else passHoist k (o.pfa / 32 + j) (usersOf o j) s
/-- CHOP_VERIFY_END: every hoist is good, or the first that is not ends it with cstat 0x08, after the ladder has shown whether its
blocks still read (R354, R355, R372). -/
def execChopVerifyEnd (k : Nat) (s : State) : Res :=
  .next (match reading s k with
    | none => s
    | some o =>
      if o.op ≠ 3 then s
      else
        match (List.range o.hoists).find? (fun j => !verifyGood s k o j) with
        | none =>
          endChop k 0 (o.pfa + 32 * o.hoists)
            ((List.range o.hoists).foldl (passVerify k o) (s.modFront k (fun o => { o with done := o.hoists })))
        | some j =>
          if !ladderOver s k o j then s
          else
            let s := failHoist k (o.pfa / 32 + j) ((List.range j).foldl (passVerify k o) s)
            let lost := (hoistFrames j).filter (fun i => isData i &&
              (decide ((o.frame i).got = .failing) || decide ((o.frame i).how = 0xF)))
            endChop k 8 (o.hoistPfa j) (s.modFront k (fun o => { o with
              done := j, flagged := if o.blankHoist j then 0 else lost.length })))

/-! The end of WRITE (R352, R354). -/

/-- A WRITE that ends with cstat 0x00: its hoists are burnt (R352, R355). -/
def finishWrite (k : Nat) (s : State) : State :=
  match s.front k with
  | none => s
  | some o =>
    let burnt := (s.channel k).burnt
    let s := o.hoistIds.foldl (fun s h =>
      let ps := ((burnt.filter (fun b => b.hoist == h)).getLast?.map Burnt.payloads).getD []
      let users := (List.range 30).filterMap (fun j => if leAt (ps.getD j []) 4101 1 = 0 then some (32 * h + j) else none)
      burntHoist k h (bitSet o.flags 0) users s) s
    let s := if areaOf (pfaHoist o.pfa) = .map then mapHoistEnd k true s else s
    endChop k 0 (o.pfa + 32 * o.hoists) (s.modFront k (fun o => { o with done := o.hoists }))
/-- CHOP_WRITE_END: the running WRITE ends. Where something stopped it, `begun` of its hoists have been begun and `off` places stop
among their frames. Inline, every hoist has passed the verify test, or the first that fails ends it with cstat 0x08; not inline the rest
is burnt, and an uncorrectable word in a buffer, metadata that R347 forbids, or a key that is no longer held stops it before that
hoist (R160, R347, R351, R352, R354, R420). -/
def execChopWriteEnd (k begun off : Nat) (s : State) : Res :=
  .next (whileUp s (fun s =>
    match s.front k with
    | none => s
    | some o =>
      if o.op ≠ 2 ∨ ¬ o.started then s
      else if o.stopWith ≠ 0 then
        let n := if o.positioning then 0 else min o.hoists begun
        let s := (List.range n).foldl (fun s i => beginOne k i s) s
        breakChop k o.stopWith (o.pfa + min off (32 * ((s.front k).getD o).begun.length)) s
      else if o.positioning then s
      else if bitSet o.flags 0 then
        match (List.range o.hoists).find? (fun j => !verifyPass s k o j) with
        | none => finishWrite k s
        | some j =>
          if !o.passed j then s
          else breakChop k 8 (o.hoistPfa j) (s.modFront k (fun o => { o with done := j }))
      else
        let rest := (List.range o.hoists).filter (fun j => !o.begun.contains j)
        let s := settleSources o rest s
        match rest.findSome? (fun j => (beginRefusal s k o [j]).map (fun why => (j, why))) with
        | some (j, why) =>
          let s := (List.range (min j begun)).foldl (fun s i => beginOne k i s) s
          refuseBurn k (o.pfa + min off (32 * ((s.front k).getD o).begun.length)) why s
        | none => finishWrite k (rest.foldl (fun s i => beginOne k i s) s)))

end Sys2Proof.Machine
end

