-- ==== Sys2Proof/Machine/Servo.lean ====
section
/-! DEFINITION. The servo's detectors and the wobble (R230 to R235, R253, R254, R296 to R298), write inhibit and its sources
(R181, R182, R231, R349 to R351), the bridges (R178, R623), training (R337), the tray and the clamp (R639, R640). -/

namespace Sys2Proof.Machine

/-! A loss holds a READ or VERIFY (R254). -/

/-- A READ or VERIFY that runs on head h holds: what it has in hand is discarded, and an offset that stands returns to 0 (log entry
136). -/
def holdRead (k h : Nat) (s : State) : State :=
  match s.front k with
  | some o =>
    if (o.op = 1 ∨ o.op = 3) ∧ o.started ∧ ¬ o.positioning ∧ o.heldAt = none ∧ o.head = h then
      clearOffset k (s.modFront k (fun o => o.hold s.time))
    else s
  | none => s
/-- A held operation goes on when all is well again within 10 ms: positioned on the hoist it was reading (R254). On another layer
than its own it ends with cstat 0x07 (R256). -/
def resumeRead (k ahead : Nat) (s : State) : State :=
  match s.front k with
  | some o =>
    match o.heldAt with
    | some t =>
      if headReady s k o.head ∧ s.time ≤ t + 10000000 then
        if srvRdy s k o.head 17 16 ≠ pfaLayer o.pfa then endChop k 7 o.target s
        else position k o.resumeAt ahead (s.modFront k (fun o => { o with tries := 0, heldAt := none }))
      else s
    | none => s
  | none => s
/-- READ_LOSS_TIMEOUT: 10 ms have passed without all of them being 1 again (R254). -/
def execReadLossTimeout (k : Nat) (s : State) : Res :=
  .next (whileUp s (fun s =>
    match s.front k with
    | some o =>
      match o.heldAt with
      | some t => if t + 10000000 ≤ s.time then endChop k 7 o.target s else s
      | none => s
    | none => s))

/-! Focus and track (R234, R235). Measured codes are operands. -/

/-- fok, tok or both of head h fall: the loss counter, a record unless busy or quiet, and a hold (R235, R254). -/
def servoLoss (k h : Nat) (s : State) : State :=
  let f := srvRdy s k h 1 1
  let t := srvRdy s k h 2 2
  let silent := decide (srvRdy s k h 8 7 ≠ 0)
  let s := (setRdy k h 2 1 0 s).count k (656 + h) (f + t)
  let s := if !silent && decide (f + t ≠ 0) then logFault 0x0015 k h k 0xFF (f + 2 * t) s else s
  holdRead k h s
/-- tok alone falls. -/
def trackLoss (k h : Nat) (s : State) : State :=
  let silent := decide (srvRdy s k h 8 7 ≠ 0)
  let s := (setRdy k h 2 2 0 s).count k (656 + h) 1
  let s := if !silent then logFault 0x0015 k h k 0xFF 2 s else s
  holdRead k h s
/-- Whether the focus condition holds: sm ≥ sum_lost and |fm| ≤ fe_lost. -/
def inFocus (s : State) (k h : Nat) (fm sm : Int) : Bool :=
  decide ((s.ff k (0x2120 + 8 * h) 35 24 : Int) ≤ sm) && decide (fm.natAbs ≤ s.ff k (0x2120 + 8 * h) 23 12)
/-- Whether |tm| ≤ te_lost. -/
def onGroove (s : State) (k h : Nat) (tm : Int) : Bool := decide (tm.natAbs ≤ s.ff k (0x2120 + 8 * h) 11 0)
/-- Whether a command names a head of the part while its dies run. -/
def aHead (s : State) (k h : Nat) : Bool := decide (k < s.nslices) && decide (h < 2) && !s.down

def execFocusOk (k h : Nat) (fm sm : Int) (s : State) : Res :=
  .next (if aHead s k h ∧ inFocus s k h fm sm ∧ srvRdy s k h 1 1 = 0 then setRdy k h 1 1 1 s else s)
def execFocusLost (k h : Nat) (fm sm : Int) (s : State) : Res :=
  .next (if aHead s k h ∧ ¬ inFocus s k h fm sm ∧ srvRdy s k h 1 1 = 1 then servoLoss k h s else s)
/-- TRACK_OK; `ahead` serves the positioning of a held operation that resumes. -/
def execTrackOk (k h : Nat) (tm : Int) (ahead : Nat) (s : State) : Res :=
  .next (if aHead s k h ∧ onGroove s k h tm ∧ srvRdy s k h 3 1 = 5 then resumeRead k ahead (setRdy k h 2 2 1 s) else s)
def execTrackLost (k h : Nat) (tm : Int) (s : State) : Res :=
  .next (if aHead s k h ∧ srvRdy s k h 2 2 = 1 ∧
      (¬ onGroove s k h tm ∨ srvRdy s k h 1 1 = 0 ∨ srvRdy s k h 3 3 = 0) then trackLoss k h s
    else s)

/-! The wobble (R296 to R298). -/

/-- wlock falls (R297): a burn on the head raises write inhibit, a read holds. -/
def wobbleLost (k h : Nat) (s : State) : State :=
  let s := headCount k h 15 1 ((setRdy k h 3 3 0 s).setCf k (0x6080 + 8 * h) 24 24 0)
  let s := s.modHead k h (fun x => { x with acquiring := false, goodUnit := false, missed := 0 })
  let burning := match s.front k with
    | some o => o.op == 2 && o.started && !o.positioning && o.head == h
    | none => false
  holdRead k h (if burning then raiseWi k h 6 s else s)
/-- The address names another layer than that of the operation that works on the head: it ends with cstat 0x07 (R256). -/
def layerCheck (k h : Nat) (s : State) : State :=
  match s.front k with
  | some o =>
    if o.started ∧ ¬ o.positioning ∧ o.heldAt = none ∧ o.head = h ∧ srvRdy s k h 17 16 ≠ pfaLayer o.pfa then
      breakChop k 7 o.target s
    else s
  | none => s
/-- Wobble frequency at the present speed in the step of the last address's band, Hz (R152, R296). -/
def wobbleFreq (s : State) (k h : Nat) : Rat :=
  (215 * positionsOf (srvRdy s k h 31 18) * s.cf k 0x4200 21 8 : Nat) / 60
/-- The wobble loop runs at the present frequency, with the acquisition bandwidth until wlock sets, then with the tracking one (R296,
R300). -/
def retune (k h : Nat) (s : State) : State :=
  let f := wobbleFreq s k h
  let w := if srvRdy s k h 3 3 = 1 then s.cf k (0x6020 + 8 * h) 3 0 else s.cf k (0x6020 + 8 * h) 7 4
  s.modHead k h (fun x => { x with freq := f, bandwidth := f / 2 ^ (w + 4) })
/-- Acquisition starts once fok = 1 and |tm| ≤ te_lost have held for 16 µs. -/
def execWobbleAcquisitionStart (k h : Nat) (tm : Int) (s : State) : Res :=
  .next (if aHead s k h ∧ srvRdy s k h 1 1 = 1 ∧ srvRdy s k h 3 3 = 0 ∧ onGroove s k h tm ∧ ¬ (s.head k h).acquiring then
      retune k h (s.modHead k h (fun x => { x with acquiring := true, goodUnit := false, missed := 0 }))
    else s)
/-- One bit of the CRC-16 of an address unit. -/
def crc16Bit (r : Nat) (b : Bool) : Nat :=
  let top := Nat.xor (b2n (bitSet r 15)) (b2n b)
  Nat.xor (2 * r % 0x10000) (if top = 1 then 0x1021 else 0)
/-- CRC-16 over bits 47 to 16, bit 47 first (R154). -/
def unitCrc (u : Nat) : Nat := (List.range 32).foldl (fun r i => crc16Bit r (bitSet u (47 - i))) 0xFFFF
/-- An address unit read: its 48 bits, whether its sync came at the wobble predicted, and whether the RMS phase error over
256 wobbles is below 20°. Through a unit that fails its CRC the loop counts on (R298). -/
def execWobbleAddressUnitRead (k h : Nat) (unit : BitVec 48) (atSync phase : Bool) (s : State) : Res :=
  .next (let u := unit.toNat
    let x := s.head k h
    let locked := decide (srvRdy s k h 3 3 = 1)
    if !aHead s k h || !(x.acquiring || locked) then s
    else
      let good := decide (unitCrc u = u % 0x10000)
      let s := if good then
          relight k (layerCheck k h (retune k h (setRdy k h 31 18 (bitsOf u 45 32) (setRdy k h 17 16 (bitsOf u 47 46)
            (s.modHead k h (fun x => { x with pos := bitsOf u 31 23 }))))))
        else
          let n := positionsOf (srvRdy s k h 31 18)
          headCount k h 16 1 (s.modHead k h (fun x => { x with pos := (x.pos + 1) % n }))
      let hit := good && atSync
      let s := s.modHead k h (fun x => { x with
        missed := if hit then 0 else x.missed + 1, goodUnit := x.goodUnit || hit })
      if !locked then
        if (s.head k h).goodUnit && phase then
          let s := s.modHead k h (fun x => { x with acquiring := false, missed := 0 })
          let s := retune k h ((setRdy k h 3 3 1 s).setCf k (0x6080 + 8 * h) 24 24 1)
          upTo 12 (fun t s => s.setCf k (0x6100 + 8 * (12 * h + t)) 47 32 0) s
        else s
      else if 4 ≤ (s.head k h).missed then wobbleLost k h s
      else s)
/-- The RMS phase error over 256 wobbles exceeds 45°. -/
def execWobbleLockLost (k h : Nat) (s : State) : Res :=
  .next (if aHead s k h ∧ srvRdy s k h 3 3 = 1 then wobbleLost k h s else s)

/-! Write inhibit (R181, R182, R231, R349, R350). -/

/-- A servo-monitor comparator (R231): the measured codes against the limits that are enabled. -/
def execWriteInhibitComparator (k h : Nat) (tm fm sm : Int) (s : State) : Res :=
  .next (let f := fun hi lo => s.ff k (0x2100 + 8 * h) hi lo
    if aHead s k h ∧ ((f 48 48 = 1 ∧ f 23 12 < tm.natAbs) ∨ (f 49 49 = 1 ∧ f 35 24 < fm.natAbs) ∨
        (f 50 50 = 1 ∧ sm < (f 47 36 : Int))) then raiseWi k h 0 s
    else s)
/-- The analogue shock comparators, in the units of the limits (R181): each axis whose limit is not 0. -/
def execShockComparator (k : Nat) (radial focus : Int) (s : State) : Res :=
  .next (let r := s.trim k 0x1C00 9 0
    let f := s.trim k 0x1C00 25 16
    if aHead s k 0 ∧ ((r ≠ 0 ∧ r < radial.natAbs) ∨ (f ≠ 0 ∧ f < focus.natAbs)) then raiseWi k 1 1 (raiseWi k 0 1 s) else s)
/-- The axis word at a byte of a burst (R182). -/
def axisWord (burst : List Byte) (at_ : Nat) (big : Bool) : Nat :=
  let w := (burst.drop at_).take 2
  if big then ofLe w.reverse else ofLe w
/-- The poll period in µs: 40 to 1,000, other values acting as 1,000 (R182). -/
def pollPeriod (s : State) (k : Nat) : Nat :=
  let p := s.ff k 0x2000 29 20
  if 40 ≤ p ∧ p ≤ 1000 then p else 1000
/-- The clock divider of the accelerometer's port, clamped to 4 to 49, and half a period of SHK_SCK in ns (R182). -/
def pollDiv (s : State) (k : Nat) : Nat := max 4 (min 49 (s.ff k 0x2000 7 2))
def pollHalfBit (s : State) (k : Nat) : Nat := 10 * (pollDiv s k + 1)
/-- Whether a poll may end now: a period has passed since the last one (R182). -/
def pollDue (s : State) (k : Nat) : Bool :=
  match Tbl.at s.polls k with
  | some p => decide (p.at_ + 1000 * pollPeriod s k ≤ s.time)
  | none => true
/-- One accelerometer poll: addr goes out first, in the mode and at the clock of fe.acc.cfg, then the bytes of the burst are read; a
byte past the burst is a free one (R182). -/
def execDigitalShockPoll (k : Nat) (bytes : List (BitVec 8)) (s : State) : Res :=
  .next (let c := fun hi lo => s.ff k 0x2000 hi lo
    if !aHead s k 0 || !fdieDrives s k || decide (c 0 0 = 0) || decide (bytes.length ≠ c 18 16 + 1) || !pollDue s k then s
    else
      let poll : Poll := { at_ := s.time, first := c 15 8, mode3 := decide (c 1 1 = 1), div := pollDiv s k }
      let s := { s with polls := Tbl.upd k (some poll) s.polls }
      let free := s.freshWord
      let burst := bytes ++ leBytes 8 free.1.toNat
      let s := free.2
      let big := decide (c 39 39 = 1)
      let rw := axisWord burst (c 32 30) big
      let fw := axisWord burst (c 38 36) big
      let words := Tbl.upd (2 * k + 1) (BitVec.ofNat 32 (fw * 2 ^ 16))
        (Tbl.upd (2 * k) (BitVec.ofNat 32 (rw * 2 ^ 16)) s.shock)
      let s := { s with shock := words }
      let d := s.trim k 0x1C00 47 32
      if d ≠ 0 ∧ (d < (fromField 16 rw).natAbs ∨ d < (fromField 16 fw).natAbs) then raiseWi k 1 2 (raiseWi k 0 2 s) else s)

/-- Bits of fe.wi.stat[h] whose condition still holds, as far as the device's state shows it (R350): a tripped focus or
tracking bridge, an engine of the head that awaits its spare, a write-symbol lane that moves to the spare (R20), the safety sequence until the next reset. -/
def wiHolds (s : State) (k h : Nat) : Nat :=
  let brg := bitSet (s.ff k 0x2020 37 32) (3 * h) || bitSet (s.ff k 0x2020 37 32) (3 * h + 1)
  let eng := (List.range 8).any (fun l => (headsOf l).contains h &&
    ((s.engine k (physicalOf s k l)).fault || (s.engine k (physicalOf s k l)).takeover))
  let lane := s.rst.switching.any (fun e => e.1 == k && decide (64 ≤ e.2.1) && (e.2.1 - 64) / 2 == h &&
    decide (s.time < e.2.2 + 200000))
  8 * b2n brg + 32 * b2n eng + 128 * b2n lane + 512
/-- A write of 1s to fe.wi.stat[h]; `still` are the conditions of the comparators and checks that hold at that moment
(R350). -/
def clearWi (k h : Nat) (mask still : BitVec 10) (s : State) : State :=
  let stat := s.ff k (wiOff h) 9 0
  let keep := Nat.lor (wiHolds s k h) (still.toNat % 32)
  s.setFf k (wiOff h) 9 0 (Nat.land stat (Nat.lor keep (1023 - mask.toNat)))
def execWiStatClear (k h : Nat) (mask still : BitVec 10) (s : State) : Res :=
  .next (if aHead s k h then clearWi k h mask still s else s)

/-! Bridges (R178, R623). -/

/-- A bridge, by its enable bit: 0 to 5 focus, tracking and tilt of each head, 8 to 15 the steppers'. -/
def aBridge (b : Nat) : Bool := decide (b < 6) || (decide (8 ≤ b) && decide (b < 16))
/-- More than 125 % of the rating for 2 µs: the bridge goes off; a focus or tracking bridge raises its head's write
inhibit. -/
def execBridgeOvercurrent (k b : Nat) (s : State) : Res :=
  .next (if !aHead s k 0 || !aBridge b || decide (s.ff k 0x2020 b b = 0) then s
    else
      let s := (s.setFf k 0x2020 b b 0).setFf k 0x2020 (32 + b) (32 + b) 1
      let s := { s with tripped := Tbl.upd (16 * k + b) (some s.time) s.tripped }
      let s := logFault 0x0013 (4 + k) 0xFF k 0xFF (b + 2 ^ 8) (s.count (4 + k) 0 1)
      if b < 6 ∧ b % 3 ≠ 2 then raiseWi k (b / 3) 3 s else s)
/-- One enable bit written: within 1 ms of a trip a 1 is ignored; later it clears the trip. -/
def writeBridge (k b : Nat) (on : Bool) (s : State) : State :=
  let soon := match Tbl.at s.tripped (16 * k + b) with
    | some t => decide (s.time < t + 1000000) && decide (s.ff k 0x2020 (32 + b) (32 + b) = 1)
    | none => false
  if !on then s.setFf k 0x2020 b b 0
  else if soon then s
  else (s.setFf k 0x2020 b b 1).setFf k 0x2020 (32 + b) (32 + b) 0
/-- A write of fe.br.ctl. -/
def bridgeEnable (k : Nat) (ven : BitVec 6) (sen : BitVec 8) (s : State) : State :=
  let s := upTo 6 (fun b s => writeBridge k b (ven.getLsbD b) s) s
  dropSafe k (upTo 8 (fun b s => writeBridge k (8 + b) (sen.getLsbD b) s) s)
def execBridgeEnable (k : Nat) (ven : BitVec 6) (sen : BitVec 8) (s : State) : Res :=
  .next (if aHead s k 0 then bridgeEnable k ven sen s else s)

/-! Training (R337, R338). -/

/-- A run ends without commit. -/
def trainingEnd (k h reason : Nat) (s : State) : State :=
  let s := s.modHead k h Head.untrained
  ((s.setCf k (0x6080 + 8 * h) 35 32 reason).setCf k (0x6080 + 8 * h) 31 30 3).setCf k (0x6060 + 8 * h) 0 0 0
/-- Whether a bank can be trained by head h: it passes the checks of R309 for the beams in service and the layer it names. -/
def trainable (s : State) (k h n : Nat) : Bool :=
  bankGood s k n (beamsOf s k h) (s.num (cAddr k (0x2_0000 + 0x800 * n) + 2042) 1 % 4) h
/-- A write of rc.train[h] with en = 1: while the head has an operation queued or running it ends a run, too (R337). -/
def trainingStart (k h frames mu bank : Nat) (s : State) : State :=
  let a := 0x6060 + 8 * h
  let s := ((s.setCf k a 31 16 frames).setCf k a 15 12 mu).setCf k a 9 5 bank
  if headUsed s k h then trainingEnd k h 5 s
  else if (s.head k h).train.isSome then s
  else if !trainable s k h bank then trainingEnd k h 2 s
  else
    let bytes := s.bytes (cAddr k (0x2_0000 + 0x800 * bank)) 0x800
    let s := s.modHead k h (fun x => { x.untrained with train := some (bank, s.time), shadow := bytes })
    ((s.setCf k (0x6080 + 8 * h) 35 32 0).setCf k (0x6080 + 8 * h) 31 30 1).setCf k a 0 0 1
/-- A write of rc.train[h] with en = 0. -/
def trainingCancel (k h : Nat) (s : State) : State := if (s.head k h).train.isSome then trainingEnd k h 3 s else s
def execTrainingStart (k h : Nat) (frames : BitVec 16) (mu : BitVec 4) (bank : BitVec 5) (s : State) : Res :=
  .next (if aHead s k h then trainingStart k h frames.toNat mu.toNat bank.toNat s else s)
def execTrainingCancel (k h : Nat) (s : State) : Res := .next (if aHead s k h then trainingCancel k h s else s)
/-- Frames adapted per track before timeout; values below 64 act as 64 (R338). -/
def trainFrames (s : State) (k h : Nat) : Nat := max 64 (s.cf k (0x6060 + 8 * h) 31 16)
/-- Whether a track of head h has reached that many (R337). -/
def trainSpent (s : State) (k h : Nat) : Bool :=
  (List.range 12).any (fun t => decide (trainFrames s k h ≤ Tbl.at (s.head k h).trainCount t))
/-- A track has reached frames adapted without convergence, or 2 s have passed. -/
def execTrainingTimeout (k h : Nat) (s : State) : Res :=
  .next (match (s.head k h).train with
    | some (_, t) =>
      if aHead s k h ∧ (s.head k h).trained = false ∧ (trainSpent s k h ∨ t + 2000000000 ≤ s.time) then
        let n := s.freshNat
        trainingEnd k h 1 (logFault 0x0014 k h k 0xFF (n.1 % 16 + 128 * h) n.2)
      else s
    | none => s)

/-! Tray, clamp and SAFE_N (R639, R640). -/

/-- The disc of drive k is removed while its map is loaded or loading (R640). -/
def discRemoved (k : Nat) (s : State) : State :=
  let s := raiseWi k 1 8 (raiseWi k 0 8 s)
  let s := (s.channel k).queue.foldl (fun s o =>
    let r := if o.started then brokenStop o s else (o.pfa, s)
    breakChop k 5 r.1 r.2) s
  let s := s.setMap k { disc := (s.map k).disc }
  let s := { s with host := { s.host with zones := s.host.zones.filter (fun e => e.1 / 8192 != k) } }
  logFault 0x0016 (4 + k) 0xFF k 0xFF (s.ff k 0x2040 3 0)
    (namespaceChanged k s)
/-- The loader's pins after debounce. -/
def execTrayClampChange (k : Nat) (tray clamp : Bool) (s : State) : Res :=
  .next (if s.nslices ≤ k then s
    else
      let t0 := s.ff k 0x2040 0 0
      let c0 := s.ff k 0x2040 1 1
      let s := (s.setFf k 0x2040 0 0 (b2n tray)).setFf k 0x2040 1 1 (b2n clamp)
      let s := if t0 ≠ b2n tray then s.setFf k 0x2040 2 2 1 else s
      let s := if c0 ≠ b2n clamp then s.setFf k 0x2040 3 3 1 else s
      let s := if clamp then s else s.setFf k 0x2018 0 0 0
      if ((t0 = 1 ∧ !tray) ∨ (c0 = 1 ∧ !clamp)) ∧ (s.map k).mstate ≠ 0 ∧ ¬ s.down then discRemoved k s else s)
/-- A write of fe.io.safe (R639). -/
def safeWrite (k : Nat) (v : Bool) (s : State) : State := s.setFf k 0x2040 7 7 (b2n (v && !safeBlocked s k))
def execSafeWrite (k : Nat) (v : Bool) (s : State) : Res := .next (if aHead s k 0 then safeWrite k v s else s)

end Sys2Proof.Machine
end

