-- ==== Sys2Proof/Machine/Calibrate.lean ====
section
/-! DEFINITION. The calibration controller (R190 to R193): fe.cal.cmd, the procedures' conditions, and their ends. What a
procedure measures reaches the model as operands. -/

namespace Sys2Proof.Machine

/-- The procedure that runs on slice k. -/
def State.calRun (s : State) (k : Nat) : Option CalRun := Tbl.at s.cal k
/-- Replaces it. -/
def State.setCal (s : State) (k : Nat) (c : Option CalRun) : State := { s with cal := Tbl.upd k c s.cal }
/-- fe.cal.status: duration, reason, procedure, state (R192). -/
def calStatus (k dur reason proc state : Nat) (s : State) : State :=
  (((s.setCf k 0x4008 47 16 dur).setCf k 0x4008 15 12 reason).setCf k 0x4008 11 8 proc).setCf k 0x4008 1 0 state
/-- Whether a beam's laser is off (R175, R188, R206). -/
def laserOff (s : State) (k h b : Nat) : Bool := !laserOn s k h b
/-- Whether the focus loop of head h is in manual at a hold value of no current (R191; log entry 130). -/
def focusAtRest (s : State) (k h : Nat) : Bool :=
  let m := Tbl.at (s.engine k (physicalOf s k (2 * h))).modes 0
  m.manual && decide (m.hold = 0)
/-- The beam-count mode that the drive is in: a running operation keeps the mode it started in (R188). -/
def driveMode (s : State) (k : Nat) : Nat :=
  match (s.channel k).queue.find? (fun o => o.started) with
  | some o => o.mode
  | none => s.cf k 0x4010 1 0 % 3
/-- Whether a loop of a logical engine is in manual (R215). -/
def inManual (s : State) (k l n : Nat) : Bool := (Tbl.at (s.engine k (physicalOf s k l)).modes n).manual
/-- A timeout, µs (R191). -/
def calTimeout (proc : Nat) : Nat := [0, 100, 200, 8000, 1000, 1000, 5000, 3000, 500000].getD proc 0
/-- Puts a beam in or out of service (R189, R190). -/
def setService (k h b : Nat) (on : Bool) (s : State) : State :=
  let i := if h = 0 then 4 + b else 16 + b
  s.setCf k 0x4010 i i (b2n on)
/-- The reason with which a procedure is refused at its start; 0 for none (R190, R191, R193). -/
def calRefusal (s : State) (k proc h b : Nat) : Nat :=
  let heads := (s.channel k).queue.filter (fun o => o.head == h)
  if proc ≤ 2 then
    if heads.any (fun o => o.op == 2 || o.op == 3) ∨ (heads ≠ [] ∧ driveMode s k ≠ 0) then 4
    else if 12 ≤ b ∨ ¬ laserOff s k h b then 3 else 0
  else if proc ≤ 6 then
    if heads ≠ [] then 4
    else if !inManual s k (2 * h) 0 || !inManual s k (2 * h + 1) 0 ||
        !(List.range 12).all (fun b => laserOff s k h b) || (proc == 6 && !focusAtRest s k h) then 3
    else 0
  else if proc = 7 then
    if s.cf k 0x4200 21 8 = 0 ∧ (s.cf k 0x4200 3 0 = 0 ∨ s.cf k 0x4200 3 0 = 9) ∧
        (s.ff k 0x2018 0 0 = 0 ∨ s.out k 0x13 = none ∨ s.out k 0x13 = some 0) then 0
    else 3
  else 0
/-- A write of fe.cal.cmd with a procedure code of 1 to 8 (R192): ignored with reject set while one runs. -/
def calStart (k proc h b : Nat) (s : State) : State :=
  if s.cf k 0x4008 1 0 = 1 then s.setCf k 0x4008 7 7 1
  else
    let r := calRefusal s k proc h b
    if r ≠ 0 then calStatus k 0 r proc 3 s
    else
      let s := if proc ≤ 2 then setService k h b false s else s
      relight k (calStatus k 0 0 proc 1 (s.setCal k (some { proc := proc, head := h, beam := b, start := s.time })))
/-- The row of one procedure. -/
def calRow (k proc h b : Nat) (s : State) : State := if aHead s k h then calStart k proc h b s else s
def execCalDataOffset (k h b : Nat) (s : State) : Res := .next (calRow k 1 h b s)
def execCalDataGain (k h b : Nat) (s : State) : Res := .next (calRow k 2 h b s)
def execCalServoOffsets (k h : Nat) (s : State) : Res := .next (calRow k 3 h 0 s)
def execCalServoGainBalance (k h : Nat) (s : State) : Res := .next (calRow k 4 h 0 s)
def execCalMonitorOffsets (k h : Nat) (s : State) : Res := .next (calRow k 5 h 0 s)
def execCalLaserLi (k h : Nat) (s : State) : Res := .next (calRow k 6 h 0 s)
def execCalSpindleCurrentOffset (k : Nat) (s : State) : Res := .next (calRow k 7 0 0 s)
def execCalShockOffset (k : Nat) (s : State) : Res := .next (calRow k 8 0 0 s)

/-- The fields a procedure commits, in order: offset in the calibration block, high and low bit (R184, R185, R191). -/
def calTargets (c : CalRun) : List (Nat × Nat × Nat) :=
  let ofs := fun (ch : Nat) => (0x1000 + 8 * ch, 9, 0)
  let gain := fun (ch : Nat) => (0x1400 + 8 * ch, 9, 0)
  if c.proc = 1 then [ofs (12 * c.head + c.beam)]
  else if c.proc = 2 then [gain (12 * c.head + c.beam)]
  else if c.proc = 3 then (List.range 6).map (fun i => ofs (24 + 6 * c.head + i))
  else if c.proc = 4 then (List.range 6).map (fun i => gain (24 + 6 * c.head + i))
  else if c.proc = 5 then (List.range 12).map (fun i => ofs (36 + 12 * c.head + i))
  else if c.proc = 6 then
    (List.range 12).flatMap (fun i => [(0x1900 + 8 * (12 * c.head + i), 11, 0), (0x1900 + 8 * (12 * c.head + i), 31, 16)])
  else if c.proc = 7 then [ofs 60, ofs 61]
  else [ofs 62, ofs 63]
/-- Firmware has written a word of the calibration block of slice k: a procedure that targets it is superseded (R193). -/
def calWritten (k off : Nat) (s : State) : State :=
  match s.calRun k with
  | some c => if (calTargets c).any (fun t => t.1 == off) then s.setCal k (some { c with superseded := true }) else s
  | none => s

/-- CAL_END: the procedure that runs converges with the values found, which are in force from the next slot frame on, times out, or
meets a bridge or servo fault on its head; a superseded one commits nothing (R193). -/
def execCalEnd (k : Nat) (fault : Bool) (found : Option (List Nat)) (s : State) : Res :=
  .next (match s.calRun k with
    | none => s
    | some c =>
      let us := (s.time - c.start) / 1000
      let done := fun (reason state : Nat) (s : State) =>
        let s := if c.proc ≤ 2 then setService k c.head c.beam true s else s
        relight k (calStatus k us reason c.proc state (s.setCal k none))
      if s.down then s
      else if c.superseded then done 2 3 s
      else if fault then done 5 3 s
      else
        match found with
        | some vs =>
          if us ≤ calTimeout c.proc then
            done 0 2 (((calTargets c).zip vs).foldl (fun s e =>
              let a := fAddr k e.1.1
              s.setLater 500 a (putFld (s.reg a) e.1.2.1 e.1.2.2 e.2)) s)
          else s
        | none =>
          if calTimeout c.proc ≤ us then done 1 3 (logFault 0x0014 k c.head k 0xFF (c.proc + 128 * c.head) s) else s)

end Sys2Proof.Machine
end

