-- ==== Sys2Proof/Machine/Fifo.lean ====
section
/-! DEFINITION. The trace and capture FIFOs (R386 to R396): the words a producer offers, what the FIFO drops and the
burgee that marks it, flush, pop, and the pointer check. -/

namespace Sys2Proof.Machine

/-- FIFO n of C-die d: 0 to 7 trace, 8 capture (R386). -/
def State.fifo (s : State) (d n : Nat) : Fifo := Tbl.at s.fifos (16 * d + n)
/-- Replaces a FIFO. -/
def State.setFifo (s : State) (d n : Nat) (f : Fifo) : State := { s with fifos := Tbl.upd (16 * d + n) f s.fifos }
/-- Whether C-die d has FIFO n. -/
def aFifo (s : State) (d n : Nat) : Bool := decide (d < s.nslices) && decide (n ≤ 8)
/-- Entries of FIFO n (R386). -/
def fifoSize (n : Nat) : Nat := if n = 8 then 8192 else 512
/-- Offset of FIFO n's registers (R396). -/
def fifoBase (n : Nat) : Nat := if n = 8 then 0x8400 else 0x8000 + 0x40 * n
/-- ctl.en and ctl.ovm (R396). -/
def fifoOn (s : State) (d n : Nat) : Bool := decide (s.cf d (fifoBase n + 8) 1 1 = 1)
def fifoOvm (s : State) (d n : Nat) : Bool := decide (s.cf d (fifoBase n + 8) 2 2 = 1)

/-- Entries the open item takes. -/
def Fifo.openEntries (f : Fifo) : Nat := match f.item with
  | some ws => ceilDiv ws.length 8
  | none => 0
/-- Entries of n that are free. -/
def Fifo.room (f : Fifo) (n : Nat) : Nat := n - f.vis.length - f.openEntries
/-- Opens the gap, if none is open, with the reason and time of its first drop (R390). -/
def Fifo.openGap (f : Fifo) (reason now : Nat) : Fifo :=
  if f.gap then f else { f with gap := true, gapReason := reason, gapFirst := now }
/-- Items and words dropped join the gap (R390). -/
def Fifo.drop (f : Fifo) (items words reason now : Nat) : Fifo :=
  let g := f.openGap reason now
  { g with gapItems := g.gapItems + items, gapWords := g.gapWords + words, dropped := g.dropped + items }
/-- The open item is dropped (R388, R391). -/
def Fifo.dropOpen (f : Fifo) (reason now : Nat) : Fifo := match f.item with
  | some ws => { f.drop 1 ws.length reason now with item := none }
  | none => f

/-- An entry of up to eight words: word k at bits [32 k + 31:32 k], the rest 0 (R388). -/
def packWords : List Word32 → BitVec 256
  | [] => 0
  | w :: t => w.zeroExtend 256 ||| packWords t <<< 32
/-- A word cut to its valid bytes. -/
def validBytes (w : Word32) (n : Nat) : Word32 := BitVec.ofNat 32 (w.toNat % 2 ^ (8 * n))
/-- The entries of an item whose last word has `vb` valid bytes (R388, R389). -/
def itemEntries (ws : List Word32) (vb : Nat) : List Entry :=
  let n := ceilDiv ws.length 8
  (List.range n).map (fun i =>
    let part := (ws.drop (8 * i)).take 8
    let last := decide (i + 1 = n)
    let part := if last then part.dropLast ++ (part.getLast?.map (fun w => validBytes w vb)).toList else part
    { data := packWords part, last := last, first := decide (i = 0)
      vb := if last then 4 * (part.length - 1) + vb else 32 })
/-- The burgee of the gap, entered now (R390). -/
def Fifo.burgee (f : Fifo) (now : Nat) : Entry :=
  let items := if f.gapUnknown then 0xFFFF_FFFF else min f.gapItems 0xFFFF_FFFE
  { data := BitVec.ofNat 256 (items + min f.gapWords 0xFFFF_FFFF * 2 ^ 32 + f.gapReason * 2 ^ 64 +
      f.gapFirst % 2 ^ 64 * 2 ^ 128 + now % 2 ^ 64 * 2 ^ 192)
    burgee := true, last := true, first := true, vb := 32 }
/-- The gap is closed. -/
def Fifo.closeGap (f : Fifo) : Fifo :=
  { f with gap := false, gapItems := 0, gapWords := 0, gapReason := 0, gapFirst := 0, gapUnknown := false }
/-- Before a new item, one burgee covers every drop since the last (R391). -/
def Fifo.enterBurgee (f : Fifo) (now : Nat) : Fifo :=
  if f.gap then { f.closeGap with vis := f.vis ++ [f.burgee now] } else f

/-- No entry for a word: the open item goes, and words are dropped until the next start of an item; in the overrun mode
ovr is set, and nothing is accepted until firmware clears it (R391, R393). -/
def Fifo.overflow (f : Fifo) (ovm : Bool) (now : Nat) : Fifo :=
  { f.dropOpen 1 now with skip := true, ovr := f.ovr || ovm }

/-- A word that starts an item (R388, R391, R393). -/
def Fifo.start (f : Fifo) (size : Nat) (ovm : Bool) (w : Word32) (now : Nat) : Fifo :=
  let f := f.dropOpen 4 now
  let need := if ovm && !f.gap then 1 else 2
  if f.room size < need then { f.drop 1 1 1 now with skip := true, ovr := f.ovr || ovm }
  else { f.enterBurgee now with skip := false, item := some [w] }
/-- A word that carries an item on: it needs an entry at every eighth word, one entry outside the reserve in the drop mode,
and an item holds at most all entries but one (R388, R391, R393). -/
def Fifo.more (f : Fifo) (size : Nat) (ovm : Bool) (w : Word32) (now : Nat) : Fifo :=
  match f.item with
  | none => f.drop 0 1 4 now
  | some ws =>
    if ws.length % 8 ≠ 0 then { f with item := some (ws ++ [w]) }
    else if f.room size < (if ovm then 1 else 2) then (f.overflow ovm now).drop 0 1 1 now
    else if size - 1 ≤ ws.length / 8 then ({ f.dropOpen 1 now with skip := true }).drop 0 1 1 now
    else { f with item := some (ws ++ [w]) }
/-- The end of the open item: its entries become visible (R388). -/
def Fifo.finish (f : Fifo) (vb : Nat) : Fifo := match f.item with
  | some ws => { f with vis := f.vis ++ itemEntries ws vb, item := none }
  | none => f
/-- One producer word: start and end marks, and the valid bytes of an end word (R387). A FIFO that waits for ovr to be
cleared accepts none (R393). -/
def Fifo.put (f : Fifo) (size : Nat) (ovm first last : Bool) (vb : Nat) (w : Word32) (now : Nat) : Fifo :=
  if ovm && f.ovr then f.drop (b2n first) 1 1 now
  else
    let f := if first then f.start size ovm w now
      else if f.skip then f.drop 0 1 4 now
      else f.more size ovm w now
    if last then f.finish vb else f

/-- Stores a FIFO, and counts the items it has dropped by the way (R385). -/
def putFifo (d n : Nat) (f : Fifo) (s : State) : State :=
  (s.setFifo d n f).count d (328 + n) (f.dropped - (s.fifo d n).dropped)
/-- A producer offers a word to a FIFO; with en 0 it is dropped and nothing marks it (R387, R396). -/
def offer (d n : Nat) (first last : Bool) (vb : Nat) (w : Word32) (s : State) : State :=
  if fifoOn s d n then putFifo d n ((s.fifo d n).put (fifoSize n) (fifoOvm s d n) first last vb w s.time) s else s

/-- A store to tr.put[n] of core n's own C-die (R387). -/
def tracePut (c : Nat) (v : Word) (s : State) : State :=
  offer (c / 8) (c % 8) (flag v 32) (flag v 33) (fld v 35 34 + 1) (v.truncate 32) s
def execTracePut (c : Nat) (own : Bool) (v : BitVec 64) (s : State) : Res :=
  .next (regAccess c .store own false (c / 8) (0x8000 + 0x40 * (c % 8)) false (tracePut c v) s)

/-- Firmware writes 1 to flush: everything visible and the open item are dropped, and so is every word up to the next start
of an item, before which a burgee comes (R392). -/
def Fifo.flush (f : Fifo) (now : Nat) : Fifo :=
  let items := (f.vis.filter (fun e => e.last)).length
  let words := ((f.vis.filter (fun e => !e.burgee)).map (fun e => ceilDiv e.vb 4)).sum
  let g := (f.dropOpen 2 now).drop items words 2 now
  { g with vis := [], item := none, skip := true }
def flushFifo (d n : Nat) (s : State) : State := putFifo d n ((s.fifo d n).flush s.time) s
def execFifoFlush (d n : Nat) (s : State) : Res := .next (if aFifo s d n && !s.down then flushFifo d n s else s)

/-- The tag a read of the tag register gives (R389). -/
def Fifo.tag (f : Fifo) : Nat := match f.vis with
  | [] => 0
  | e :: _ => 2 ^ 31 + b2n e.burgee * 2 ^ 8 + b2n e.last * 2 ^ 7 + b2n e.first * 2 ^ 6 + e.vb % 64
/-- A read of the tag register pops the head into the latch; an empty FIFO leaves the latch (R389). -/
def Fifo.pop (f : Fifo) : Fifo := match f.vis with
  | [] => f
  | e :: t => { f with vis := t, latch := e.data }
/-- Core c reads the tag register of FIFO n of C-die d into rd. -/
def execFifoTagPop (c : Nat) (own : Bool) (d n : Nat) (rd : BitVec 5) (s : State) : Res :=
  .next (if 8 < n then s
    else regAccess c .load own false d (fifoBase n + 0x18) false (fun s =>
      (s.modCore c (fun k => k.setR rd (BitVec.ofNat 64 (s.fifo d n).tag))).setFifo d n (s.fifo d n).pop) s)

/-- The copies of a pointer differ: everything goes but the latch, and the gap's count is unknown (R394). What the unit of
dropped items then counts is free. -/
def execFifoPointerMismatch (d n : Nat) (s : State) : Res :=
  .next (if aFifo s d n && !s.down then
      let f := s.fifo d n
      let g := f.openGap 3 s.time
      let f : Fifo := { g with vis := [], item := none, skip := true, perr := true, gapUnknown := true, gapReason := 3 }
      let r := s.freshNat
      logFault 0x0021 d n d 0xFF n ((r.2.setFifo d n f).count d (328 + n) r.1)
    else s)

/-- FIFO n's stat register (R396). -/
def fifoStat (s : State) (d n : Nat) : Nat :=
  let f := s.fifo d n
  f.vis.length * 2 ^ 16 + 8 * b2n f.perr + 4 * b2n f.ovr + 2 * b2n (decide (f.room (fifoSize n) = 0)) + b2n f.item.isSome
/-- Doubleword k of the read latch (R389, R396). -/
def fifoData (s : State) (d n k : Nat) : Nat := (s.fifo d n).latch.toNat / 2 ^ (64 * k) % 2 ^ 64
/-- A write of 1 to perr or ovr clears it (R396). -/
def fifoClear (d n : Nat) (v : Word) (s : State) : State :=
  let f := s.fifo d n
  s.setFifo d n { f with perr := f.perr && !flag v 3, ovr := f.ovr && !flag v 2 }

end Sys2Proof.Machine
end

