-- ==== Sys2Proof/Machine/Capture.lean ====
section
/-! DEFINITION. The capture selector (R395): the items it feeds the capture FIFO from what the read channel and the F-die take in, or from
the crossbar. -/

namespace Sys2Proof.Machine

/-- The frame that passes beam t of head h: that of its track at the position the wobble loop counts (R162, R168, R298). -/
def frameUnder (s : State) (d h t : Nat) : Nat :=
  let b := srvRdy s d h 31 18
  let pos := (if b = 0x3FFF then 0 else bandStart b) + (s.head d h).pos
  let q := pos % 8
  pfaOf h (srvRdy s d h 17 16) (3 * (pos / 8) + (t % 3 + q) % 3) (4 * q + t / 3)
/-- How head h reads what is captured: as the operation that runs on it does, else with the primary bank of the layer under it (log entry
138). -/
def capturePass (s : State) (d h : Nat) : Pass :=
  match s.front d with
  | some o =>
    if o.started ∧ o.head = h ∧ o.bank.isSome then readPass o o.current
    else { bank := s.cf d (0x6040 + 8 * h) (4 + 5 * srvRdy s d h 17 16) (5 * srvRdy s d h 17 16), solo := false, lit := List.range 12 }
  | none =>
    { bank := s.cf d (0x6040 + 8 * h) (4 + 5 * srvRdy s d h 17 16) (5 * srvRdy s d h 17 16), solo := false, lit := List.range 12 }
/-- Values of 8 n bits, packed into words, the first lowest. -/
def packValues (n : Nat) (vs : List Int) : List Word32 :=
  (List.range (vs.length * n / 4)).map (fun i =>
    BitVec.ofNat 32 (((List.range (4 / n)).map (fun j => toField (8 * n) (vs.getD (4 / n * i + j) 0) * 2 ^ (8 * n * j))).sum))
/-- The words of an item of a source, when the source is on: resampled samples, equalised ones, or the LLRs in clear of the frame that
passes beam `sel`; the servo channels of head `sel`; the crossbar (R395). `adc` and `start` are as for FRAME_READ, `given` as for
SLOT_START. -/
def captureWords (s : State) (d src sel : Nat) (adc : List (List (Option (BitVec 8)))) (start : Rat)
    (given : List (Nat × List Int)) : Option (List Word32) :=
  let h := sel / 12
  let t := sel % 12
  if 1 ≤ src ∧ src ≤ 3 ∧ sel < 24 then
    let xs := streamsOf s d h adc start
    if src = 1 then some (packValues 2 ((List.range 20640).map (fun n => Stream.value (xs.getD t []) (n : Int))))
    else if src = 2 then
      let y := equalOut s d (capturePass s d h) xs t
      some (packValues 2 ((List.range 20640).map (fun (n : Nat) => (y.getD ((n : Int) - detectFrom).toNat 0).floor)))
    else
      let f := (see s d h (capturePass s d h) t xs).frame
      some (packValues 1 (codewordLlrs (frameUnder s d h t) f.llrA f.llrB (0, 0)))
  else if src = 4 ∧ sel < 2 then
    some ((List.range 6).map (fun i =>
      let ch := 6 * sel + i
      (given.find? (fun g => g.1 == ch)).elim 0 (fun g => sampled s d ch g.2)))
  else if src = 5 then some ((List.range 32).map (fun i => (s.out d (0xC0 + i)).getD 0))
  else none
/-- One item: its header, the frame address of sources 1 to 3 and s.frame of 4 and 5, then its words; all four bytes of the
last word are valid (R395). -/
def execCaptureItem (d : Nat) (adc : List (List (Option (BitVec 8)))) (start : Rat) (given : List (Nat × List Int)) (s : State) :
    Res :=
  .next (if s.nslices ≤ d ∨ s.down then s
    else
      let src := s.cf d 0x8440 3 0
      let sel := s.cf d 0x8440 8 4
      match captureWords s d src sel adc start given with
      | none => s
      | some ws =>
        let head := if src ≤ 3 then BitVec.ofNat 32 (frameUnder s d (sel / 12) (sel % 12)) else BitVec.ofNat 32 s.frame
        let s := offer d 8 true false 4 head s
        let s := ws.dropLast.foldl (fun s w => offer d 8 false false 4 w s) s
        offer d 8 false true 4 (ws.getLast?.getD 0) s)

end Sys2Proof.Machine
end

