-- ==== Sys2Proof/Machine/Compare.lean ====
section
/-! DEFINITION. Compare, predicate-logic and control-flow instructions (R47, R49, R54 to R56, R100). -/

namespace Sys2Proof.Machine

/-- A comparison of two words of any width. -/
abbrev Cmp := (n : Nat) → BitVec n → BitVec n → Bool

/-- A register compare of either profile: pd := the comparison (R54). -/
def cmpRR (f : Cmp) (a : Agent) (pd : BitVec 3) (ra rb : BitVec 5) (pred : BitVec 3) (pneg : Bool) (s : State) :
    State :=
  match a with
  | .deck c => deckCore c (fun k => if k.execs pred pneg then k.setP pd (f 64 (k.r ra) (k.r rb)) else k) s
  | .loop k e => loopRegs k e 1 (lpred pd && lreg ra && lreg rb && lpred pred)
      (fun r => if r.execs pred pneg then r.setP pd (f 32 (r.r ra) (r.r rb)) else r) s
/-- A compare with an immediate (R56). -/
def cmpRI (f : Cmp) (ext : (n : Nat) → BitVec 16 → BitVec n) (a : Agent) (pd : BitVec 3) (ra : BitVec 5)
    (imm : BitVec 16) (s : State) : State :=
  match a with
  | .deck c => deckCore c (fun k => k.setP pd (f 64 (k.r ra) (ext 64 imm))) s
  | .loop k e => loopRegs k e 1 (lpred pd && lreg ra) (fun r => r.setP pd (f 32 (r.r ra) (ext 32 imm))) s
/-- Predicate logic of either profile (R54). -/
def predOp (f : Bool → Bool → Bool) (a : Agent) (pd pa pb : BitVec 3) (pred : BitVec 3) (pneg : Bool) (s : State) :
    State :=
  match a with
  | .deck c => deckCore c (fun k => if k.execs pred pneg then k.setP pd (f (k.pr pa) (k.pr pb)) else k) s
  | .loop k e => loopRegs k e 1 (lpred pd && lpred pa && lpred pb && lpred pred)
      (fun r => if r.execs pred pneg then r.setP pd (f (r.pr pa) (r.pr pb)) else r) s

def execCmpeq (a : Agent) (pd : BitVec 3) (ra rb : BitVec 5) (pred : BitVec 3) (pneg : Bool) (s : State) : Res :=
  .next (cmpRR (fun _ x y => x == y) a pd ra rb pred pneg s)
def execCmpne (a : Agent) (pd : BitVec 3) (ra rb : BitVec 5) (pred : BitVec 3) (pneg : Bool) (s : State) : Res :=
  .next (cmpRR (fun _ x y => x != y) a pd ra rb pred pneg s)
def execCmplt (a : Agent) (pd : BitVec 3) (ra rb : BitVec 5) (pred : BitVec 3) (pneg : Bool) (s : State) : Res :=
  .next (cmpRR (fun _ x y => x.slt y) a pd ra rb pred pneg s)
def execCmpltu (a : Agent) (pd : BitVec 3) (ra rb : BitVec 5) (pred : BitVec 3) (pneg : Bool) (s : State) : Res :=
  .next (cmpRR (fun _ x y => x.ult y) a pd ra rb pred pneg s)
def execCmpge (a : Agent) (pd : BitVec 3) (ra rb : BitVec 5) (pred : BitVec 3) (pneg : Bool) (s : State) : Res :=
  .next (cmpRR (fun _ x y => !x.slt y) a pd ra rb pred pneg s)
def execCmpgeu (a : Agent) (pd : BitVec 3) (ra rb : BitVec 5) (pred : BitVec 3) (pneg : Bool) (s : State) : Res :=
  .next (cmpRR (fun _ x y => !x.ult y) a pd ra rb pred pneg s)
def execPand (a : Agent) (pd pa pb : BitVec 3) (pred : BitVec 3) (pneg : Bool) (s : State) : Res :=
  .next (predOp (fun x y => x && y) a pd pa pb pred pneg s)
def execPor (a : Agent) (pd pa pb : BitVec 3) (pred : BitVec 3) (pneg : Bool) (s : State) : Res :=
  .next (predOp (fun x y => x || y) a pd pa pb pred pneg s)
def execPxor (a : Agent) (pd pa pb : BitVec 3) (pred : BitVec 3) (pneg : Bool) (s : State) : Res :=
  .next (predOp (fun x y => xor x y) a pd pa pb pred pneg s)
def execPandn (a : Agent) (pd pa pb : BitVec 3) (pred : BitVec 3) (pneg : Bool) (s : State) : Res :=
  .next (predOp (fun x y => x && !y) a pd pa pb pred pneg s)
def execCmpeqi (a : Agent) (pd : BitVec 3) (ra : BitVec 5) (imm : BitVec 16) (s : State) : Res :=
  .next (cmpRI (fun _ x y => x == y) (fun n i => i.signExtend n) a pd ra imm s)
def execCmplti (a : Agent) (pd : BitVec 3) (ra : BitVec 5) (imm : BitVec 16) (s : State) : Res :=
  .next (cmpRI (fun _ x y => x.slt y) (fun n i => i.signExtend n) a pd ra imm s)
def execCmpltui (a : Agent) (pd : BitVec 3) (ra : BitVec 5) (imm : BitVec 16) (s : State) : Res :=
  .next (cmpRI (fun _ x y => x.ult y) (fun n i => i.zeroExtend n) a pd ra imm s)

/-- JMPR: rd := pc + 4, then pc := the old ra with bits [1:0] cleared (R55). -/
def execJmpr (c : Nat) (rd ra : BitVec 5) (pred : BitVec 3) (pneg : Bool) (s : State) : Res :=
  .next (deckRun c false false (fun s => .done (s.modCore c (fun k =>
    if k.execs pred pneg then { k.setR rd (k.pc + 4) with pc := k.r ra &&& ~~~3#64 }
    else { k with pc := k.pc + 4 }))) s)

/-- BR: pc := pc + sext(disp21) * 4, with g31 := pc + 4 when link is set (R49). -/
def execBr (c : Nat) (pred : BitVec 3) (pneg : Bool) (link : Bool) (disp : BitVec 21) (s : State) : Res :=
  .next (deckRun c false false (fun s => .done (s.modCore c (fun k =>
    if k.execs pred pneg then
      { (if link then k.setR 31 (k.pc + 4) else k) with pc := k.pc + disp64 disp }
    else { k with pc := k.pc + 4 }))) s)

end Sys2Proof.Machine
end

