-- ==== Sys2Proof/Machine/HostIo.lean ====
section
/-! DEFINITION. The host port's queues and the I/O commands: doorbells, fetching, NVMe field checks, the zoned view, and
admission (R425 to R440, R449 to R453, R466). -/

namespace Sys2Proof.Machine

/-- Whether the controller fetches commands: the link is up, firmware has started the port, the controller is ready
and nothing has stopped fetching (R426, R456, R586). -/
def hostReady (s : State) : Bool :=
  s.host.linkUp && s.host.started && s.host.fetching && s.host.csts.getLsbD 0

/-- The host writes a submission queue's tail doorbell; a value past the queue's end is ignored (R425). -/
def execSqTailDoorbell (y tail : Nat) (s : State) : Res :=
  .next (match Tbl.at s.host.sqs y with
    | some q =>
      if s.host.linkUp && decide (tail < q.size) then
        { s with host := { s.host with sqs := Tbl.upd y (some { q with tail := tail }) s.host.sqs } }
      else s
    | none => s)

/-- Posts the completions of queue y that waited for room (R427). -/
def drainWaiting (y : Nat) (s : State) : State :=
  let mine := s.host.waiting.filter (fun c => c.cqid == y)
  mine.foldl (fun s c => postCqe c s) { s with host := { s.host with
    waiting := s.host.waiting.filter (fun c => c.cqid != y) } }

/-- The host writes a completion queue's head doorbell, which makes room (R425, R427). -/
def execCqHeadDoorbell (y head : Nat) (s : State) : Res :=
  .next (match Tbl.at s.host.cqs y with
    | some q =>
      if s.host.linkUp && decide (head < q.size) then
        drainWaiting y { s with host := { s.host with cqs := Tbl.upd y (some { q with head := head }) s.host.cqs } }
      else s
    | none => s)

/-- Takes the next entry of a submission queue, if the port fetches and the queue holds one. -/
def takeEntry (y : Nat) (s : State) : Option State :=
  match Tbl.at s.host.sqs y with
  | some q =>
    if hostReady s && q.head != q.tail then
      some { s with host := { s.host with sqs := Tbl.upd y (some { q with head := (q.head + 1) % q.size }) s.host.sqs } }
    else none
  | none => none

/-! Fields of a submission queue entry (NVMe). -/

/-- Dword i of an entry. -/
def cdw (sqe : List Byte) (i : Nat) : Nat := leAt sqe (4 * i) 4
def sqeOpcode (sqe : List Byte) : Nat := leAt sqe 0 1
def sqeCid (sqe : List Byte) : Nat := leAt sqe 2 2
def sqeNsid (sqe : List Byte) : Nat := cdw sqe 1
def sqeLba (sqe : List Byte) : Nat := cdw sqe 10 + cdw sqe 11 * 2 ^ 32

/-- A completion with an error joins the 64 entries of the Error Information log (R447). -/
def logError (c : Cqe) (s : State) : State :=
  let es := s.host.errors ++ [c]
  { s with host := { s.host with errors := es.drop (es.length - 64), errorCount := s.host.errorCount + 1 } }

/-- Completes a fetched I/O command at once, in its place among an ordered queue's completions (R452). -/
def finishIo (y : Nat) (sqe : List Byte) (sct sc more dw0 dw1 : Nat) (s : State) : State :=
  let x : Slot := { sqe := sqe, sqid := y, cls := s.classOf y, ordered := s.ordered (s.classOf y), order := s.adm.nextOrder }
  let s := { s with adm := { s.adm with nextOrder := s.adm.nextOrder + 1 } }
  let s := if sct = 0 ∧ sc = 0 then s else logError (slotCqe x sct sc more dw0 dw1 s) s
  postSlot x sct sc more dw0 dw1 s

/-! The zoned view (R438, R439). -/

/-- Whether a zone is active: open or closed. -/
def Zone.active (z : Zone) : Bool := z.state == .implicitOpen || z.state == .explicitOpen || z.state == .closed
/-- Active zones of a drive. -/
def activeZones (s : State) (k : Nat) : Nat := (s.host.zones.filter (fun e => e.1 / 8192 == k && e.2.active)).length

/-- The Zoned Namespace status of a write of n blocks at an offset of a zone, 0 for none: boundary 0xB8, full 0xB9,
not at the write pointer 0xBC, too many active 0xBD (R438, R439, R450). -/
def zoneWriteStatus (s : State) (k z off n : Nat) : Nat :=
  let x := s.zone k z
  if x.state = .full then 0xB9
  else if zoneCap z < off + n then 0xB8
  else if off ≠ x.wp then 0xBC
  else if x.state = .empty ∧ 64 ≤ activeZones s k then 0xBD
  else 0
/-- A write accepted at a zone's write pointer advances it and opens the zone; one that fills it makes it Full (R439,
R466; log entry 25). -/
def zoneWrite (k z n : Nat) (s : State) : State :=
  let x := s.zone k z
  let wp := x.wp + n
  s.setZone k z { wp := wp, state := if zoneCap z ≤ wp then .full
    else if x.state = .explicitOpen then .explicitOpen else .implicitOpen }

/-- Whether a zone reports Read Only: its disc is in mstate 3, and it is neither Empty nor Full (R439). -/
def zoneReadOnly (s : State) (k : Nat) (x : Zone) : Bool :=
  decide ((s.map k).mstate = 3) && x.state != .empty && x.state != .full

/-- The Zoned Namespace status of a Zone Management Send action on one zone, and the zone after it: close 1, finish 2,
open 3, reset 4; no action takes a Read Only zone to another state (R439). -/
def zoneAction (readOnly : Bool) (x : Zone) (act : Nat) : Nat × Zone :=
  if readOnly then (0xBF, x)
  else if act = 4 then (if x.state = .empty then (0, x) else (0xBF, x))
  else if act = 3 then (if x.state = .full then (0xBF, x) else (0, { x with state := .explicitOpen }))
  else if act = 1 then
    (if x.state = .implicitOpen ∨ x.state = .explicitOpen then (0, { x with state := .closed })
     else if x.state = .closed then (0, x) else (0xBF, x))
  else (0, x)

/-- Zone Management Send on one zone, or on every zone of the drive: the status, and the state when there is none
(R439). -/
def zoneSend (s : State) (k z act : Nat) (all : Bool) : Nat × State :=
  if all then
    let mine := s.host.zones.filter (fun e => e.1 / 8192 == k && !(act != 4 && zoneReadOnly s k e.2))
    if act = 4 then ((if mine = [] then 0 else 0xBF), s)
    else if act = 3 then
      (0, mine.foldl (fun s e => if e.2.state = .closed then s.setZone k (e.1 % 8192) { e.2 with state := .explicitOpen }
        else s) s)
    else
      (0, mine.foldl (fun s e => if e.2.state = .implicitOpen ∨ e.2.state = .explicitOpen then
        s.setZone k (e.1 % 8192) { e.2 with state := .closed } else s) s)
  else
    let x := s.zone k z
    let r := zoneAction (zoneReadOnly s k x) x act
    if r.1 ≠ 0 then (r.1, s)
    else if act = 3 ∧ x.state = .empty ∧ 64 ≤ activeZones s k then (0xBD, s)
    else (0, s.setZone k z r.2)

/-! Field checks and admission (R429 to R440, R466). -/

/-- What the field checks of an I/O command answer: a status code type, code and DNR bits that complete it at once, or
what it accepts and the state its acceptance leaves in the zones. -/
inductive Checked where
  | done (sct sc more : Nat)
  | accept (a : Ask) (start : Nat) (zones : State)

/-- Whether the entry's data pointer has a descriptor type that the port takes (R429). -/
def pointerOk (sqe : List Byte) : Bool :=
  leAt sqe 1 1 / 64 == 0 || [0, 2, 3].contains (leAt sqe 39 1 / 16)

/-- The field checks of an I/O command before admission (R429, R431, R433, R436 to R440, R450). -/
def checkIo (s : State) (y : Nat) (sqe : List Byte) : Checked :=
  let op := sqeOpcode sqe
  let zoneOp := op == 0x79 || op == 0x7A || op == 0x7D
  let all := op == 0 && sqeNsid sqe == 0xFFFF_FFFF
  let k := sqeNsid sqe - 1
  let lba := sqeLba sqe
  let moves := op == 1 || op == 2 || op == 0x0C || op == 0x7D
  let n := if moves then cdw sqe 12 % 65536 + 1 else if op = 0x80 then 1 else 0
  let d := s.feat 0xC3 (s.classOf y)
  let fua := (op == 1 || op == 0x7D) && (bitSet (cdw sqe 12) 30 || s.feat 0x06 0 == 0)
  let writes := op == 1 || op == 0x7D
  let z := lba / 30720
  let ask := fun (start : Nat) (s' : State) =>
    let c := costOf s k op start n d
    Checked.accept { k := if all then 0 else k, allDrives := all, op := op, slba := start, n := n
                     hasRange := moves || op == 0x80, fua := fua, c := c, e := energyOf s k op c } start s'
  if !([0, 1, 2, 0x0C, 0x80].contains op || (zoneOp && s.zoned)) then .done 0 0x01 0
  else if leAt sqe 1 1 % 4 ≠ 0 then .done 0 0x02 0
  else if op ≠ 0 ∧ op ≠ 0x0C ∧ op ≠ 0x79 ∧ !pointerOk sqe then .done 0 0x11 0
  else if !all && (sqeNsid sqe == 0 || decide (s.nslices ≤ k)) then .done 0 0x0B 0
  else if !all && decide ((s.map k).mstate < 2) then .done 7 0x83 8
  else if op = 0x80 ∧ (cdw sqe 12 ≠ 0 ∨ bitsOf (cdw sqe 13) 31 9 ≠ 0 ∨ bitsOf (cdw sqe 13) 7 6 ≠ 0) then .done 0 0x02 0
  else if op ≠ 0x0C ∧ 512 < n then .done 0 0x02 0
  else if op ≠ 0 ∧ (lbnCount ≤ lba ∨ lbnCount < lba + n) then .done 0 0x80 0
  else if writes && (s.map k).mstate == 3 then .done 0 0x20 0
  else if op = 0x79 then
    let act := cdw sqe 13 % 256
    if act = 2 ∨ act = 0 ∨ 4 < act ∨ (!bitSet (cdw sqe 13) 8 && decide (lba % 30720 ≠ 0)) then .done 0 0x02 0
    else
      let r := zoneSend s k z act (bitSet (cdw sqe 13) 8)
      if r.1 ≠ 0 then .done 1 r.1 0 else ask lba r.2
  else if op = 0x7A then
    (if cdw sqe 13 % 256 ≠ 0 ∨ 7 < cdw sqe 13 / 256 % 256 then .done 0 0x02 0 else ask lba s)
  else if op = 0x7D then
    if lba % 30720 ≠ 0 then .done 0 0x02 0
    else
      let wp := (s.zone k z).wp
      let st := zoneWriteStatus s k z wp n
      if st ≠ 0 then .done 1 st 0 else ask (lba + wp) (zoneWrite k z n s)
  else if op = 1 ∧ s.zoned then
    let st := zoneWriteStatus s k z (lba % 30720) n
    if st ≠ 0 then .done 1 st 0 else ask lba (zoneWrite k z n s)
  else ask lba s

/-- Completion Dword 0 of a Version Read that the device ends without firmware: what the map holds of the block, and 0 where no
block of a loaded disc is named (R357, R365, R440). -/
def versionDw (s : State) (sqe : List Byte) : Nat :=
  let lba := sqeLba sqe
  let m := s.map (sqeNsid sqe - 1)
  if sqeOpcode sqe ≠ 0x80 ∨ sqeNsid sqe = 0 ∨ s.nslices < sqeNsid sqe ∨ m.mstate < 2 ∨ lbnCount ≤ lba then 0
  else
    let v := if bitSet (cdw sqe 13) 8 then m.topEntry lba else cdw sqe 13 % 64
    2 ^ 10 * b2n (m.homeState (lba / 30) == 3) + 2 ^ 9 * b2n (m.flags.contains (lba, v)) + 2 ^ 8 * b2n (m.written lba) +
      m.topEntry lba

/-- A fetched I/O command: its field checks, then the decision, which accepts it into a slot or completes it with Not
Admissible (R449, R463, R466, R487). -/
def admitIo (y : Nat) (sqe : List Byte) (s : State) : State :=
  match freeSlot s with
  | none => s
  | some i =>
    match checkIo s y sqe with
    | .done sct sc more => finishIo y sqe sct sc more (versionDw s sqe) 0 s
    | .accept a start s' =>
      let c := s.classOf y
      let d := (s.time + s.feat 0xC0 c * 100000) / 100000 * 100000
      match decide6 s a d with
      | .refuse step dw =>
        finishIo y sqe 7 0x80 0 dw 0 (s.modStat c (fun t =>
          if step ≤ 3 then { t with refused13 := t.refused13 + 1 }
          else if step = 4 then { t with refused4 := t.refused4 + 1 }
          else if step = 5 then { t with refused5 := t.refused5 + 1 }
          else { t with refused6 := t.refused6 + 1 }))
      | .accept =>
        enterSlot i { sqe := sqe, sqid := y, opcode := a.op, drive := a.k, allDrives := a.allDrives, cls := c
                      ordered := s.ordered c, fua := a.fua, d := d, accepted := s.time, cost := a.c, energy := a.e
                      policy := s.feat 0xC2 c, depth := s.feat 0xC3 c, slba := start, nblocks := a.n
                      hasRange := a.hasRange }
          (s'.modStat c (fun t => { t with accepted := t.accepted + 1 }))

/-- The port fetches the next entry of an I/O queue, if a slot is free, and passes it to admission (R428). -/
def fetchIo (y : Nat) (sqe : List Byte) (fits : Bool) (s : State) : State :=
  if y = 0 ∨ !fits ∨ (freeSlot s).isNone then s
  else
    match takeEntry y s with
    | some t => admitIo y sqe t
    | none => s

/-- Whether an entry holds a Zone Management Send of an action. -/
def isZoneSend (sqe : List Byte) (act : Nat) : Bool := sqeOpcode sqe == 0x79 && cdw sqe 13 % 256 == act
def execFlush (sqid : Nat) (sqe : List Byte) (s : State) : Res := .next (fetchIo sqid sqe (sqeOpcode sqe == 0x00) s)
def execWrite (sqid : Nat) (sqe : List Byte) (s : State) : Res := .next (fetchIo sqid sqe (sqeOpcode sqe == 0x01) s)
def execRead (sqid : Nat) (sqe : List Byte) (s : State) : Res := .next (fetchIo sqid sqe (sqeOpcode sqe == 0x02) s)
def execVerify (sqid : Nat) (sqe : List Byte) (s : State) : Res := .next (fetchIo sqid sqe (sqeOpcode sqe == 0x0C) s)
def execResetZone (sqid : Nat) (sqe : List Byte) (s : State) : Res := .next (fetchIo sqid sqe (isZoneSend sqe 4) s)
def execFinishZone (sqid : Nat) (sqe : List Byte) (s : State) : Res := .next (fetchIo sqid sqe (isZoneSend sqe 2) s)
def execOpenZone (sqid : Nat) (sqe : List Byte) (s : State) : Res := .next (fetchIo sqid sqe (isZoneSend sqe 3) s)
def execCloseZone (sqid : Nat) (sqe : List Byte) (s : State) : Res := .next (fetchIo sqid sqe (isZoneSend sqe 1) s)
def execZoneManagementReceive (sqid : Nat) (sqe : List Byte) (s : State) : Res :=
  .next (fetchIo sqid sqe (sqeOpcode sqe == 0x7A) s)
def execZoneAppend (sqid : Nat) (sqe : List Byte) (s : State) : Res := .next (fetchIo sqid sqe (sqeOpcode sqe == 0x7D) s)
def execVersionRead (sqid : Nat) (sqe : List Byte) (s : State) : Res := .next (fetchIo sqid sqe (sqeOpcode sqe == 0x80) s)

end Sys2Proof.Machine
end

