-- ==== Sys2Proof/Machine/Lending.lean ====
section
/-! DEFINITION. Lending supply budget over the ring (R567 to R571). A rate leaves one side's ledger before any frame that
adds it to the other; the ledger is the one home of the rates lent and borrowed (R578, R480). -/

namespace Sys2Proof.Machine

/-- hr.lstat (R578). -/
def lendStat (loan result : Nat) (busy : Bool) (s : State) : State :=
  ((s.setCf 0 0xF040 63 48 loan).setCf 0 0xF040 7 4 result).setCf 0 0xF040 0 0 (b2n busy)
/-- Whether hr.lend ignores writes (R578). -/
def lendBusy (s : State) : Bool := decide (s.cf 0 0xF040 0 0 = 1)
/-- The result of the operation on a loan, when that is the one hr.lstat shows as pending. -/
def lendDone (loan result : Nat) (s : State) : State :=
  if lendBusy s && decide (s.cf 0 0xF040 63 48 = loan) then lendStat loan result false s else s
/-- A ledger entry. -/
def State.loan (s : State) (i : Nat) : Option Loan := Tbl.at s.ring.loans i
/-- Replaces a ledger entry. -/
def State.setLoan (s : State) (i : Nat) (l : Option Loan) : State :=
  s.setRing { s.ring with loans := Tbl.upd i l s.ring.loans }
/-- Every core hears of a change of Rs (R483, R567). -/
def supplyChanged (s : State) : State := noticeAll 8 s.rateSupply 0 (reconsider s)
/-- The entry of one side that a test picks. -/
def findLoan (s : State) (side : Bool) (p : Loan → Bool) : Option (Nat × Loan) :=
  s.ring.loans.findSome? (fun e => match e.2 with
    | some l => if decide (16 ≤ e.1) == side && p l then some (e.1, l) else none
    | none => none)
/-- A free entry of one side (R569). -/
def freeEntry (s : State) (side : Bool) : Option Nat :=
  ((List.range 16).map (· + (if side then 16 else 0))).find? (fun i => (s.loan i).isNone)
/-- A LOAN frame's block of steps 1 to 5 (R554). -/
def loanBlock (step num rate lender : Nat) : List Nat := [step + num * 2 ^ 4 + rate * 2 ^ 20 + lender * 2 ^ 36]
/-- Sends a LOAN frame to a package. -/
def sendLoan (dst step num rate lender : Nat) (s : State) : State :=
  let q := nextSeq s
  unicast 5 dst q.1 (loanBlock step num rate lender) q.2

/-- A loan number no entry lent has. -/
def loanNumber (s : State) : Nat :=
  ((List.range 17).map (fun i => (s.ring.loanNext + i) % 65536)).find?
    (fun n => (findLoan s false (fun l => l.num == n)).isNone) |>.getD 0

/-- hr.lend op 1: lend (R567, R578). A rate of 0 is no rate. -/
def lend (peer rate : Nat) (s : State) : State :=
  if lendBusy s || decide (rate = 0) then s
  else if !s.formed then lendStat 0 9 false s
  else if !s.present peer ∨ peer = s.pos then lendStat 0 8 false s
  else if !s.keepsSupply then lendStat 0 6 false s
  else if s.rateSupply < rate then lendStat 0 5 false s
  else
    match freeEntry s false with
    | none => lendStat 0 4 false s
    | some i =>
      let n := loanNumber s
      let s := s.setLoan i (some { state := 1, peer := peer, rate := rate, num := n, sentAt := s.time })
      let s := s.setRing { s.ring with loanNext := (n + 1) % 65536 }
      sendLoan peer 1 n rate s.pos (lendStat n 1 true (supplyChanged s))
def execLend (peer : BitVec 9) (rate : BitVec 16) (s : State) : Res := .next (lend peer.toNat rate.toNat s)

/-- hr.lend op 2: recall (R567). -/
def recallLoan (loan : Nat) (s : State) : State :=
  if lendBusy s then s
  else
    match findLoan s false (fun l => l.num == loan) with
    | none => lendStat loan 7 false s
    | some (i, l) =>
      if !s.formed then lendStat loan 9 false s
      else if !s.present l.peer then lendStat loan 8 false s
      else
        let s := s.setLoan i (some { l with state := 3, sentAt := s.time, tries := 0 })
        sendLoan l.peer 4 loan l.rate s.pos (lendStat loan 1 true s)
def execRecall (loan : BitVec 16) (s : State) : Res := .next (recallLoan loan.toNat s)

/-- hr.lend op 3: the borrower returns a loan of a lender (R567). -/
def returnLoan (peer loan : Nat) (s : State) : State :=
  if lendBusy s then s
  else
    match findLoan s true (fun l => l.num == loan && l.peer == peer) with
    | none => lendStat loan 7 false s
    | some (i, l) =>
      if !s.formed then lendStat loan 9 false s
      else if !s.present peer then lendStat loan 8 false s
      else sendLoan peer 5 loan l.rate peer (lendStat loan 2 false (supplyChanged (s.setLoan i none)))
def execReturnLoan (peer : BitVec 9) (loan : BitVec 16) (s : State) : Res := .next (returnLoan peer.toNat loan.toNat s)

/-- hr.lend op 4: write-off, which the fault log records (R571, R609). -/
def writeOff (loan : Nat) (s : State) : State :=
  if lendBusy s then s
  else
    match findLoan s false (fun l => l.num == loan) with
    | none => lendStat loan 7 false s
    | some (i, _) => logRing 0 1 loan (lendStat loan 2 false (supplyChanged (s.setLoan i none)))
def execWriteOff (loan : BitVec 16) (s : State) : Res := .next (writeOff loan.toNat s)

/-! Frames received. -/

/-- Fields of a LOAN frame of steps 1 to 5. -/
def RFrame.step (f : RFrame) : Nat := bitsOf (f.at_ 0) 3 0
def RFrame.loanNum (f : RFrame) : Nat := bitsOf (f.at_ 0) 19 4
def RFrame.rate (f : RFrame) : Nat := bitsOf (f.at_ 0) 35 20
/-- Whether a frame is a LOAN of a step for this package. -/
def isLoan (s : State) (step : Nat) (f : RFrame) : Bool := f.type == 5 && !f.bc && f.dst == s.pos && f.step == step

/-- An offer arrives: the borrower adds the rate and accepts, or refuses; a repeat only answers again (R567). -/
def execLoanOfferReceived (port : Nat) (blocks : List Word) (s : State) : Res :=
  .next (onFrame port blocks (isLoan s 1) (fun f s =>
    let n := f.loanNum
    let answer := fun (step : Nat) (s : State) => sendLoan f.src step n f.rate f.src s
    match findLoan s true (fun l => l.num == n && l.peer == f.src) with
    | some _ => answer 2 s
    | none =>
      match freeEntry s true with
      | none => answer 3 s
      | some i =>
        if !s.keepsSupply then answer 3 s
        else answer 2 (supplyChanged (s.setLoan i (some { state := 2, peer := f.src, rate := f.rate, num := n })))) s)

/-- An accept arrives: the loan is in force (R567). -/
def execLoanAcceptReceived (port : Nat) (blocks : List Word) (s : State) : Res :=
  .next (onFrame port blocks (isLoan s 2) (fun f s =>
    match findLoan s false (fun l => l.num == f.loanNum && l.peer == f.src && (l.state == 1 || l.state == 4)) with
    | some (i, l) => lendDone l.num 2 (s.setLoan i (some { l with state := 2 }))
    | none => s) s)

/-- A refusal arrives: the lender restores its rate (R567). -/
def execLoanRefuseReceived (port : Nat) (blocks : List Word) (s : State) : Res :=
  .next (onFrame port blocks (isLoan s 3) (fun f s =>
    match findLoan s false (fun l => l.num == f.loanNum && l.peer == f.src && (l.state == 1 || l.state == 4)) with
    | some (i, l) => lendDone l.num 3 (supplyChanged (s.setLoan i none))
    | none => s) s)

/-- A recall arrives: the borrower drops the rate if the loan is in force, and sends return either way (R567). -/
def execLoanRecallReceived (port : Nat) (blocks : List Word) (s : State) : Res :=
  .next (onFrame port blocks (isLoan s 4) (fun f s =>
    let s := match findLoan s true (fun l => l.num == f.loanNum && l.peer == f.src) with
      | some (i, _) => supplyChanged (s.setLoan i none)
      | none => s
    sendLoan f.src 5 f.loanNum f.rate f.src s) s)

/-- A return arrives: a loan still out is restored (R567). -/
def execLoanReturnReceived (port : Nat) (blocks : List Word) (s : State) : Res :=
  .next (onFrame port blocks (isLoan s 5) (fun f s =>
    match findLoan s false (fun l => l.num == f.loanNum && l.peer == f.src) with
    | some (i, l) => lendDone l.num 2 (supplyChanged (s.setLoan i none))
    | none => s) s)

/-- The loan numbers a confirm lists (R554). -/
def confirmNums (f : RFrame) : List Nat :=
  (List.range (min 16 (bitsOf (f.at_ 0) 17 13))).map (fun i =>
    bitsOf (f.at_ (1 + i / 4)) (16 * (i % 4) + 15) (16 * (i % 4)))

/-- One loan confirmed by its borrower. A lender whose ledger was lost enters it anew, its rate a free value, since the
frame does not carry it (R569, R570; log entry 29). -/
def confirmOne (src n : Nat) (s : State) : State :=
  match findLoan s false (fun l => l.num == n && l.peer == src) with
  | some (i, l) => s.setLoan i (some { l with confirmed := true })
  | none =>
    if s.ring.ledgerLost then
      match freeEntry s false with
      | some i =>
        let r := s.freshNat
        r.2.setLoan i (some { state := 2, peer := src, rate := r.1 % 65536, num := n, confirmed := true })
      | none => s
    else s

/-- A confirm arrives (R570). -/
def execLoanConfirmReceived (port : Nat) (blocks : List Word) (s : State) : Res :=
  .next (onFrame port blocks (isLoan s 6) (fun f s =>
    (confirmNums f).foldl (fun s n => confirmOne f.src n s) s) s)

/-- An offer or recall of an entry has gone unanswered for 8 rotations: it is sent again, up to 3 times, and then the
operation is left to settlement (R567). -/
def execLoanResend (entry : Nat) (s : State) : Res :=
  .next (match s.loan entry with
    | none => s
    | some l =>
      if 16 ≤ entry ∨ (l.state ≠ 1 ∧ l.state ≠ 3) ∨ !s.formed ∨ s.time < l.sentAt + 8 * s.rot then s
      else if 3 ≤ l.tries then
        (s.setLoan entry (some { l with state := 4 })).setCf 0 0xF040 0 0
          (if s.cf 0 0xF040 63 48 = l.num then 0 else s.cf 0 0xF040 0 0)
      else
        sendLoan l.peer (if l.state = 1 then 1 else 4) l.num l.rate s.pos
          ((s.setLoan entry (some { l with sentAt := s.time, tries := l.tries + 1 })).count 0 426 1))

/-- Four rotations after FORMED a lender settles: what a present borrower has confirmed stays in force, what it has not
comes back, and a loan of an absent borrower stays out (R570). A lost ledger counts again from here (R569). -/
def execLoanSettlement (s : State) : Res :=
  .next (if !s.formed || s.ring.settled || decide (s.time < s.ring.formedAt + 4 * s.rot) then s
    else
      let settle := fun (l : Loan) =>
        if !s.present l.peer then some l
        else if l.confirmed then some { l with state := if l.state = 3 then 3 else 2 }
        else none
      let loans := s.ring.loans.filterMap (fun e =>
        if 16 ≤ e.1 then some e
        else match e.2.bind settle with
          | some l => some (e.1, some l)
          | none => none)
      let t := s.setRing { s.ring with loans := loans, settled := true, ledgerLost := false }
      if t.rateSupply = s.rateSupply then t else supplyChanged t)

end Sys2Proof.Machine
end

