-- ==== Sys2Proof/Machine/Boot.lean ====
section
/-! DEFINITION. Firmware images and the boot ROM (R518 to R525, R541): the checks of an image, the choice of a slot, the
measurements, key import and the jump to stage 1. -/

namespace Sys2Proof.Machine

/-- A component of an image (R519). -/
structure Comp where
  type : Nat
  flags : Nat
  off : Nat
  len : Nat
  digest : List Byte
  deriving DecidableEq, Repr

/-- The component table of an image. -/
def imageTable (img : List Byte) : List Byte := (img.drop 224).take (64 * leAt img 6 2)
/-- The components of an image. -/
def imageComps (img : List Byte) : List Comp :=
  (List.range (leAt img 6 2)).map (fun i =>
    let e := (img.drop (224 + 64 * i)).take 64
    ⟨leAt e 0 2, leAt e 2 2 + 2 ^ 16 * leAt e 12 4, leAt e 4 4, leAt e 8 4, (e.drop 16).take 48⟩)
/-- The bytes of a component. -/
def Comp.bytes (x : Comp) (img : List Byte) : List Byte := (img.drop x.off).take x.len
/-- The first component of a type. -/
def compOf (t : Nat) (img : List Byte) : Option Comp := (imageComps img).find? (fun x => x.type == t)
/-- The bytes of the first component of a type; none of them when there is none. -/
def compBytes (t : Nat) (img : List Byte) : List Byte :=
  match compOf t img with
  | some x => x.bytes img
  | none => []
/-- svn of an image. -/
def imageSvn (img : List Byte) : Nat := leAt img 12 4

/-- Whether magic, format, length and table meet R519. -/
def imageForm (img : List Byte) : Bool :=
  let cs := imageComps img
  let n := leAt img 6 2
  let len := leAt img 8 4
  let howMany := fun (t : Nat) => (cs.filter (fun x => x.type == t)).length
  decide (leAt img 0 4 = 0x474D_4953) && decide (leAt img 4 2 = 1) && decide (1 ≤ n) && decide (n ≤ 16) &&
  decide (224 + 64 * n ≤ len) && decide (len ≤ 0x0100_0000) && decide (len ≤ img.length) && decide (imageSvn img ≤ 63) &&
  decide (leAt img 19 1 < 2) && decide (leAt img 28 4 = 0) &&
  cs.all (fun x => decide (x.flags = 0) && decide (x.off + x.len ≤ len) &&
    ((decide (1 ≤ x.type) && decide (x.type ≤ 6)) || (decide (0x80 ≤ x.type) && decide (x.type ≤ 0xFF)))) &&
  decide (howMany 1 = 1) && decide (howMany 2 ≤ 1) && decide (howMany 4 ≤ 1) && decide (howMany 5 ≤ 1) &&
  decide (howMany 6 ≤ 1) && decide ((compBytes 1 img).length ≤ 393216)
/-- Whether an image is valid (R520). -/
def imageValid (s : State) (img : List Byte) : Bool :=
  let key := (img.drop 32).take 96
  imageForm img && keyAdmitted s key && Config.verify key (img.take 128 ++ imageTable img) ((img.drop 128).take 96) &&
  (imageComps img).all (fun x => decide (Config.sha384 (x.bytes img) = x.digest)) &&
  bitSet (leAt img 16 2) s.part.code && decide (leAt img 18 1 ≤ s.rev.code) &&
  decide (s.cf 0 0xE018 5 0 ≤ imageSvn img)

/-- A slot's image; none of it when the slot is empty. -/
def slotImage (s : State) (n : Nat) : List Byte := Tbl.at s.sec.slots n
/-- The slot to boot: the trial slot, the active slot, the others ascending; the first with a valid image (R522). -/
def chooseSlot (s : State) : Option Nat :=
  (s.sec.trial.toList ++ [s.sec.active] ++ [0, 1, 2]).find? (fun n => imageValid s (slotImage s n))

/-- The KEK of one escrow blob whose recipient is the DeviceID key; none when the blob does not open (R540, R541). -/
def openEscrow (b : List Byte) : Option Kek :=
  let kid := (b.drop 4).take 16
  let key := Config.hkdf (Config.ecdh deviceKey ((b.drop 68).take 96)) kid (ascii "ZOA escrow")
  if leAt b 0 4 = 0x5743_5345 ∧ (b.drop 20).take 48 = Config.sha384 devicePub then
    (Config.gcmOpen key ((b.drop 164).take 12) (b.take 68) ((b.drop 176).take 48)).map (fun k => ⟨kid, k⟩)
  else none
/-- Key import (R541): each blob's KEK joins the key store; one already held, or without a slot, is skipped and
logged. -/
def importKeys (bs : List Byte) (s : State) : State :=
  let s := (List.range (bs.length / 256)).foldl (fun (s : State) i =>
    match openEscrow ((bs.drop (256 * i)).take 256) with
    | none => s
    | some k =>
      if s.keys.keks.any (fun x => x.kid == k.kid) then logFault 0x0042 0 0xFF 0xFF 0xFF 1 s
      else if 4 ≤ s.keys.keks.length then logFault 0x0042 0 0xFF 0xFF 0xFF 2 s
      else { s with keys := { s.keys with keks := s.keys.keks ++ [k] } }) s
  showKeys (s.setSec { s.sec with keyImport := true })

/-- The measurements made before the slot is chosen (R523, R530). -/
def romEntries (s : State) : State :=
  let fuse := fuseDigest s
  let s := addBoot 0x0001 3 0 (Config.sha384 ((List.range 0x4_0000).map Config.romByte)) s
  let s := addBoot 0x0002 3 0 fuse (s.setSec { s.sec with fuse := fuse })
  addBoot 0x0003 3 0 (Config.sha384 (s.bytes aonBase 0x6500)) s

/-- After a restart from STRUCK the mode in force is the retained one, but no higher in budget than DIPPED (R511). -/
def struckLimit (s : State) : State :=
  if s.cf 0 0xC000 10 10 = 1 then
    s.setCf 0 0xC000 6 4 (max 2 s.modeSet)
  else s
/-- F-die k leaves reset: its calibration block takes section 0 (R186, R590, R594). -/
def restoreFdie (k : Nat) (s : State) : State :=
  match (sourceOf 0 (s.cf 0 0xD0A0 2 2 == 0 || !s.sec.needDefaults) [] s).2 with
  | some bs => restoreCal k bs s
  | none => s

/-- The ROM boots slot n (R523): entries 0x0004 to 0x0007, stage 1 in core 0's local memory, escrow key and key import,
the retained sections that wait for image defaults, and the jump. -/
def bootSlot (n : Nat) (s : State) : State :=
  let img := slotImage s n
  let s := s.setSec { s.sec with
    running := img, runSlot := n, tried := s.sec.trial.isSome, noSlot := false, escrow := compBytes 5 img
    issued := s.rtcMs.getD 0
    boot := s.sec.boot.map (fun b => { b with slot := n, svn := imageSvn img }) }
  let s := s.setCf 0 0xE000 23 22 n
  let s := addBoot 0x0004 3 0 (Config.sha384 (img.take 128 ++ imageTable img)) s
  let s := addBoot 0x0005 3 0 (Config.sha384 (compBytes 1 img)) s
  let s := memWrite (localBase 0) (compBytes 1 img) s
  let s := if (compOf 5 img).isSome then addBoot 0x0006 3 0 (Config.sha384 (compBytes 5 img)) s else s
  let s := if (compOf 6 img).isSome then
      importKeys (compBytes 6 img) (addBoot 0x0007 3 0 (Config.sha384 (compBytes 6 img)) s)
    else s
  let s := if s.sec.needDefaults then
      let r := restoreBlock (s.cf 0 0xD0A0 2 2 == 0) (compBytes 4 img) s
      let t := reportSources r.1 r.2
      let t := struckLimit (t.setSec { t.sec with needDefaults := false })
      upTo t.nslices (fun k t => if t.cf 0 0x0200 (16 + k) (16 + k) = 1 then restoreFdie k t else t) t
    else s
  s.modCore 0 (fun k => { k with pc := 0x0010_0000 })

/-- No slot holds a valid image (R522): a record of kind 3 into the ring, the link down. -/
def bootFails (s : State) : State :=
  let r := (s.sec.boot.getD { kind := 3 })
  let s := closeRecord { r with kind := 3 } false (s.setSec { s.sec with boot := none, noSlot := true, triedAt := s.time })
  { s with host := { s.host with linkUp := false } }

/-- The boot ROM, once in each boot (R523). -/
def bootRom (s : State) : State :=
  match s.sec.boot with
  | some b =>
    if b.meas = [] ∧ !s.sealed ∧ (s.core 0).run = .running then
      let s := romEntries s
      match chooseSlot s with
      | some n => bootSlot n s
      | none => bootFails { s with sec := { s.sec with tried := s.sec.trial.isSome } }
    else s
  | none => s
def execBootRomStart (s : State) : Res := .next (whileUp s (fun s => if s.stopped then s else bootRom s))
/-- With no valid slot the ROM tries again 10 s after it last did: a boot record opens once a slot is valid (R522). -/
def execBootRetry (s : State) : Res :=
  .next (whileUp s (fun s =>
    if s.sec.noSlot ∧ s.sec.triedAt + 10000000000 ≤ s.time then
      match chooseSlot s with
      | none => s.setSec { s.sec with triedAt := s.time }
      | some n =>
        let s := s.setSec { s.sec with boot := some { kind := 1, reset := s.cf 0 0x0200 15 0 } }
        let s := bootSlot n (romEntries s)
        { s with host := { s.host with linkUp := !s.host.perst } }
    else s))

end Sys2Proof.Machine
end

