-- ==== Sys2Proof/Machine/Registers.lean ====
section
/-! DEFINITION. Registers whose stores and reads have an effect of their own and no other chapter's module: doorbells, the
completion queue, the corrected-error report, the fault acknowledgement, the buffer minima (R73, R383, R610, R621, R655). -/

namespace Sys2Proof.Machine

/-- A write of db.send: core c rings core t, whose bit c of db.pend sets; a core the part does not contain is not rung
(R73). -/
def ringCore (c t : Nat) (s : State) : State :=
  if s.hasCore t then s.modCore t (fun k => { k with dbPend := k.dbPend ||| BitVec.ofNat 32 (2 ^ c) }) else s
def execDoorbellSend (c : Nat) (own : Bool) (target : BitVec 5) (s : State) : Res :=
  .next (regAccess c .store own false (c / 8) 0x0140 false (ringCore c target.toNat) s)
/-- Core c writes 1s to its own db.pend (R73). -/
def clearRings (c : Nat) (mask : BitVec 32) (s : State) : State :=
  s.modCore c (fun k => { k with dbPend := k.dbPend &&& ~~~mask })
def execDoorbellClear (c : Nat) (own : Bool) (mask : BitVec 32) (s : State) : Res :=
  .next (regAccess c .store own false (c / 8) (0x0180 + 8 * (c % 8)) false (clearRings c mask) s)

/-- cq.head: the oldest tag, and how many are queued behind it (R621). -/
def Core.cqWord (k : Core) : Nat := match k.cq with
  | [] => 0
  | t :: rest => 2 ^ 63 + rest.length % 256 * 2 ^ 16 + t % 2 ^ 16
/-- Core c reads its own cq.head into rd, which pops one tag (R147, R621). -/
def execCompletionQueuePop (c : Nat) (own : Bool) (rd : BitVec 5) (s : State) : Res :=
  .next (regAccess c .load own false (c / 8) (0x0100 + 8 * (c % 8)) false
    (fun s => s.modCore c (fun k => k.popTag.setR rd (BitVec.ofNat 64 k.cqWord))) s)

/-- cer (R655). -/
def Core.cerWord (k : Core) : Nat := b2n k.cerPend * 2 ^ 32 + k.cerCnt % 2 ^ 16 * 2 ^ 16 + k.cerSrc % 4
/-- Core c writes 1 to pend of its own cer: pend and cnt clear (R655). -/
def clearCer (c : Nat) (s : State) : State := s.modCore c (fun k => { k with cerPend := false, cerCnt := 0 })
def execCerClear (c : Nat) (own : Bool) (s : State) : Res :=
  .next (regAccess c .store own false (c / 8) (0x01C0 + 8 * (c % 8)) false (clearCer c) s)

/-- Core c writes its own flt.ack (R610). -/
def faultAck (c seq : Nat) (s : State) : State := s.modCore c (fun k => { k with fltAck := seq })
def execFaultAck (c : Nat) (own : Bool) (seq : BitVec 32) (s : State) : Res :=
  .next (regAccess c .store own false (c / 8) (0x0308 + 8 * (c % 8)) false (faultAck c seq.toNat) s)

/-- A write of bp.min[i] of C-die d: one that would raise the sum of the 60 minima above 28,640 is refused, and sets minerr
(R383). -/
def minWrite (d i v : Nat) (s : State) : State :=
  let others := (((List.range 60).filter (fun o => o != i)).map (fun o => s.cf d (0x3100 + 8 * o) 14 0)).sum
  if 28640 < others + v ∧ s.cf d (0x3100 + 8 * i) 14 0 < v then s.setCf d 0x3008 32 32 1
  else s.setCf d (0x3100 + 8 * i) 14 0 v
def execBpMinWrite (d : Nat) (i : BitVec 6) (min : BitVec 15) (s : State) : Res :=
  .next (if d < s.nslices ∧ i.toNat < 60 ∧ ¬ s.down then minWrite d i.toNat min.toNat s else s)

end Sys2Proof.Machine
end

