-- ==== Sys2Proof/Machine/RegRead.lean ====
section
/-! DEFINITION. Reads of register pages (R7, R15, R618 to R622): the registers that hardware computes from its own state,
the windows, and what a read pops. -/

namespace Sys2Proof.Machine

/-- The offsets of a run of registers: `some i` when an offset is register i of n from base. -/
def inRun (off base n : Nat) : Option Nat :=
  if base ≤ off ∧ off < base + 8 * n ∧ (off - base) % 8 = 0 then some ((off - base) / 8) else none

/-- mc.map.stat (R376). -/
def mapStatWord (m : MapEng) : Nat :=
  if m.mstate = 0 then 0
  else
    let surface := min 7 (m.mapFront / 12000)
    surface * 2 ^ 61 + (540000 + (m.mapFront - surface * 12000)) * 2 ^ 41 + m.deltas.length % 2 ^ 16 * 2 ^ 25 +
      m.brec.length % 2 ^ 11 * 2 ^ 14 + b2n (m.ckpt.isSome && decide (2 ≤ m.mstate)) * 2 ^ 5 + b2n m.fill.isSome * 2 ^ 4 +
      m.mstate % 4
/-- mc.map.dur (R376). -/
def mapDurWord (m : MapEng) : Nat := if m.mstate = 0 then 0 else m.next % 2 ^ 32 * 2 ^ 32 + m.dur % 2 ^ 32
/-- mc.map.front of a surface (R376). -/
def mapFrontWord (m : MapEng) (surface : Nat) : Nat :=
  if m.mstate = 0 then 0
  else m.frontOf surface 0 * 2 ^ 56 + m.frontOf surface 1 * 2 ^ 32 + m.frontOf surface 2
/-- ab.heat or ab.sup: the pool in 1/1,000 pennant, its rate, the fixed draw (R486). -/
def poolWord (s : State) (pool : Int) (rate : Nat) : Nat :=
  toField 32 (pool / 10) * 2 ^ 32 + rate % 2 ^ 16 * 2 ^ 16 + s.fixedMean % 2 ^ 16
/-- cc.stat (R421). -/
def ccStatWord (s : State) (d : Nat) : Nat :=
  ((List.range 16).map (fun w => b2n (s.way d w).withdrawn * 2 ^ (16 + w))).sum +
  ((List.range 8).map (fun i => (match (s.way d (8 + i)).lock with
    | .none => 0
    | .scratch => 1
    | .range _ => 2) * 2 ^ (2 * i))).sum

/-- The registers of the lead C-die's page that are computed; the others' pages read 0 there (R15). -/
def leadWord (s : State) (off : Nat) : Option Nat :=
  if off = 0x0300 then some s.flt.head
  else if off = 0xA008 then
    some (s.liveSlots.length % 2 ^ 15 * 2 ^ 32 + (s.liveSlots.filter (fun e => e.2.hasRange)).length % 2 ^ 14)
  else if off = 0xC008 then some (poolWord s s.adm.heat s.rateHeat)
  else if off = 0xC010 then some (poolWord s s.adm.sup s.rateSupply)
  else if off = 0xC020 then
    some (s.loanSum true (fun l => l.state == 2) % 2 ^ 16 * 2 ^ 16 + s.loanSum false (fun l => l.state == 2) % 2 ^ 16)
  else if off = 0xF018 then some s.ringTime
  else
    match inRun off 0xA010 4 with
    | some k => some (Tbl.at s.adm.stagedW k % 2 ^ 16 * 2 ^ 32 + Tbl.at s.adm.stagedH k % 2 ^ 32)
    | none =>
      match inRun off 0xF100 32 with
      | some i => some (loanWord i (Tbl.at s.ring.loans i))
      | none => none
/-- A register of FIFO n at an offset from its base (R396). -/
def fifoWord (s : State) (d n rel : Nat) : Option Nat :=
  if rel = 0x10 then some (fifoStat s d n)
  else if rel = 0x18 then some (s.fifo d n).tag
  else if 0x20 ≤ rel ∧ rel < 0x40 then some (fifoData s d n (rel / 8 - 4))
  else none
/-- The computed registers of every C-die's page. -/
def cdieWord (s : State) (d off : Nat) : Option Nat :=
  if off = 0x3008 then some (s.cf d 0x3008 32 32 * 2 ^ 32 + freeCount s d)
  else if off = 0x9008 then some (ccStatWord s d)
  else if off = 0x7200 then some (mapStatWord (s.map d))
  else if off = 0x7208 then some (mapDurWord (s.map d))
  else if 0x8000 ≤ off ∧ off < 0x8200 then fifoWord s d ((off - 0x8000) / 0x40) ((off - 0x8000) % 0x40)
  else if 0x8400 ≤ off ∧ off < 0x8440 then fifoWord s d 8 (off - 0x8400)
  else
    match inRun off 0x0100 8, inRun off 0x0180 8, inRun off 0x01C0 8, inRun off 0x0308 8 with
    | some i, _, _, _ => some (s.core (8 * d + i)).cqWord
    | _, some i, _, _ => some (s.core (8 * d + i)).dbPend.toNat
    | _, _, some i, _ => some (s.core (8 * d + i)).cerWord
    | _, _, _, some i => some (s.core (8 * d + i)).fltAck
    | none, none, none, none =>
      match inRun off 0x3400 64, inRun off 0x7300 8, inRun off 0xC800 8 with
      | some i, _, _ => some (heldCount s d i)
      | _, some i, _ => some (mapFrontWord (s.map d) i)
      | _, _, some i => some (noticeWord (s.core (8 * d + i))).toNat
      | none, none, none => if d = 0 then leadWord s off else none

/-- The doubleword that a read of a register returns: the identity registers of every die, a computed register, or the
stored fields (R615, R619, R620, R622). -/
def regWord (s : State) (fdie : Bool) (d off : Nat) : Word :=
  if off = 0 then s.identity
  else if off = 8 then s.place fdie d
  else if off = 0x10 then BitVec.ofNat 64 s.time
  else if fdie then
    match inRun off 0x2160 2 with
    | some h => putFld (s.reg (fAddr d off)) 16 16 (b2n (wiRaised s d h))
    | none => s.reg (fAddr d off)
  else
    match cdieWord s d off with
    | some v => BitVec.ofNat 64 v
    | none => s.reg (cAddr d off)

/-- Whether an offset lies in the memory windows of a C-die's page: the parameter and telemetry windows, and the banks
(R619). -/
def inWindow (fdie : Bool) (off : Nat) : Bool :=
  !fdie && ((decide (0x1_0000 ≤ off) && decide (off < 0x1_8000)) || (decide (0x2_0000 ≤ off) && decide (off < 0x3_0000)))

/-- The bytes that a load of n bytes from a page returns (R618, R624). -/
def pageBytes (s : State) (fdie : Bool) (d off n : Nat) : List Byte :=
  if inWindow fdie off then s.bytes (cAddr d off) n
  else if !fdie && decide (0x4_0000 ≤ off) && decide (off < 0x5_0000) then
    let u := (off - 0x4_0000) / 64
    if unitExists d u then ((shadowBytes s d u).drop (off % 64)).take n else List.replicate n 0
  else ((leBytes 8 (regWord s fdie d (off / 8 * 8)).toNat).drop (off % 8)).take n

/-- What a load of a page pops: the tag of cq.head for its own core, a FIFO's tag, a notice (R618, R621). -/
def pagePop (c : Nat) (fdie : Bool) (d off : Nat) (s : State) : State :=
  let r := off / 8 * 8
  if fdie then s
  else if 0x8000 ≤ r ∧ r < 0x8200 ∧ r % 0x40 = 0x18 then
    s.setFifo d ((r - 0x8000) / 0x40) (s.fifo d ((r - 0x8000) / 0x40)).pop
  else if r = 0x8418 then s.setFifo d 8 (s.fifo d 8).pop
  else
    match inRun r 0x0100 8, inRun r 0xC800 8 with
    | some i, _ => if c = 8 * d + i then s.modCore c Core.popTag else s
    | _, some i => s.modCore (8 * d + i) Core.popNotice
    | none, none => s

end Sys2Proof.Machine
end

