-- ==== Sys2Proof/Machine/Reset.lean ====
section
/-! DEFINITION. Package resets, the safety sequence's stages, the watchdogs, the ends of a controlled stop and the restart
of a deck core (R509, R580 to R588, R600 to R607). A package reset is entered, which puts the dies in reset, and left,
which runs the hardware phase of R585; `rst.held` is the kind of one entered and not left. -/

namespace Sys2Proof.Machine

/-! What a package reset keeps (R582, R580). -/

/-- Register bits of the lead that a package reset keeps: their offsets and masks. The fuses give the SVN floor, the boot flash
what the Ensign log says; the rest, rst.stat.scause, tm.last, pm.sup.bor and vbl, sec.stat.ks and sec.tev, stand in the device
status words and the key store, which a lost VBAT takes away, so that they read their reset values then (R8, R493, R516, R549,
R589, R614). -/
def keptBits (lost : Bool) : List (Nat × Nat) :=
  [(0xE000, 0x0200_0000), (0xE018, 0x3F), (0xE028, 0x80), (0xE030, 2 ^ 64 - 1)] ++
  (if lost then [] else
    [(0x0200, 0xFF00_0000), (0xD088, 2 ^ 64 - 1), (0xD0A0, 0xC), (0xE000, 0x3200_0000), (0xE028, 2 ^ 64 - 1)])
/-- The registers after a reset: reset values but for what the AON keeps, the pages of the F-dies that are not yet in reset,
and the levels of the loader's pins (R639). -/
def resetRegs (lost : Bool) (fdies : List Nat) (s : State) : State :=
  let t := { s with regs := s.regs.filter (fun e => fdies.any (fun k =>
    decide (fAddr k 0 ≤ e.1) && decide (e.1 < fAddr (k + 1) 0))) }
  let t := upTo s.nslices (fun k t => t.setFf k 0x2040 1 0 (s.ff k 0x2040 1 0)) t
  (keptBits lost).foldl (fun t b =>
    let a := cAddr 0 b.1
    t.setReg a (BitVec.ofNat 64 (Nat.land (s.reg a).toNat b.2 + Nat.land (regReset a).toNat (2 ^ 64 - 1 - b.2)))) t
/-- Whether a byte of memory survives: the AON's always, GDDR6 where the kind keeps it, no other (R580, R582). -/
def survives (gddr : Bool) (a : Nat) : Bool :=
  (memKind a == 3 && gddr) || (decide (aonBase ≤ a) && decide (a < aonBase + 0x1_0000))
/-- Memory after a reset: dirty lines written back first, every tag invalidated (R408). -/
def resetMemory (gddr : Bool) (s : State) : State :=
  let s := if gddr then s.cache.lines.foldl (fun s l => evictLine l s) s else s
  { s with cache := {}, mem := s.mem.filter (fun e => survives gddr e.1), ecc := s.ecc.filter (fun e => survives gddr e.1) }
/-- The buffer pool after a reset (R380). -/
def resetBufs (kind : Nat) (s : State) : State :=
  if kind = 1 ∨ kind = 2 ∨ kind = 5 then { s with bufs := [] }
  else
    s.bufs.foldl (fun s e =>
      if e.2.owners = [] then s else { s with bufs := Tbl.upd e.1 { gen := e.2.gen + 1, owners := [] } s.bufs }) s

/-- A lost VBAT at power-up (R493): what the AON domain held is not trusted. -/
def forgetAon (s : State) : State :=
  { s with
    mem := s.mem.filter (fun e => !(decide (aonBase ≤ e.1) && decide (e.1 < aonBase + 0x1_0000)))
    flt := { s.flt with recs := [], head := 0 }
    keys := {}
    ring := { s.ring with loans := [], ledgerLost := true }
    aon := { s.aon with staging := none }
    sec := { s.sec with
      ring := [], appends := [], ringLost := true, tclsCopy := none
      nextSeq := match s.sec.history.getLast? with
        | some b => leAt b 8 8 + 1
        | none => 0 } }

/-- The hardware's restore (R592, R594, R595), which completes a marked copy first: the whole block when the retained SRAM and the shadow hold every section; else
the sections they hold, the rest waiting for the image defaults. -/
def restoreNow (s : State) : State :=
  let s := finishStaging s
  let trusted := s.cf 0 0xD0A0 2 2 == 0
  let found := (List.range 6).map (fun i => sourceOf i trusted [] s)
  if found.all (fun f => f.2.isSome) then
    let r := restoreBlock trusted [] s
    reportSources r.1 r.2
  else
    let s := s.setSec { s.sec with needDefaults := true }
    ((List.range 6).zip found).foldl (fun s e =>
      match e.2.2 with
      | some bs => restoreSection e.1 bs s
      | none => s) s

/-! Entering and leaving (R581 to R588). -/

/-- The dies enter reset: channel operations end (R657), safety sequences start where the kind has them, the link goes
down and the bypass closes. `fdies` names the F-dies whose reset waits for their safety sequence. -/
def enterReset (kind : Nat) (fdies : List Nat) (s : State) : State :=
  let s := if kind = 1 ∨ kind = 2 then s else abortChops s
  let s := if kind = 3 ∨ kind = 4 ∨ kind = 5 then upTo s.nslices triggerSafety s else s
  let s := { s with chan := s.chan.filterMap (fun (e : Nat × Channel) =>
    if e.2.burnt = [] then none else some (e.1, { burnt := e.2.burnt })) }
  { s with
    cores := [], icache := []
    host := { s.host with linkUp := false, fetching := false }
    rst := { s.rst with held := some kind, struck := none, fdie := fdies, endWaits := false } }

/-- The host port after a package reset: SMART counts and what has gone to host memory stay. -/
def resetHost (kind : Nat) (h : HostPort) : HostPort :=
  let power := decide (kind = 1) || decide (kind = 2)
  let unsafeDown := power && decide (bitsOf h.csts.toNat 3 2 ≠ 2)
  let smart := if power then Tbl.upd 10 (Tbl.at h.smart 10 + 1) h.smart else h.smart
  { perst := h.perst, linkUp := !h.perst, posted := h.posted, sent := h.sent
    smart := if unsafeDown then Tbl.upd 11 (Tbl.at smart 11 + 1) smart else smart
    errors := if power then [] else h.errors, errorCount := h.errorCount }

/-- The ring after a package reset: the ledger stays (R569); a reset without a power-up is none (R561). -/
def resetRing (kind : Nat) (r : Ring) : Ring :=
  { formedOnce := r.formedOnce && (kind == 3 || kind == 4 || kind == 6)
    loans := r.loans.map (fun (e : Nat × Option Loan) =>
      (e.1, e.2.map (fun l => { l with sentAt := 0, tries := 0, confirmed := false })))
    ledgerLost := r.ledgerLost, loanNext := r.loanNext }

/-- The reset ends: the hardware phase runs, the retained state is restored, and core 0 of the lead comes out at Boot level in
the boot ROM (R523, R581, R582, R585). What is logged from here on notifies the cores (R610). `elapsed` is the time since it was entered that the timebase did not count,
ms. -/
def leaveReset (kind elapsed : Nat) (s : State) : State :=
  let lost := decide (kind = 1) && s.aon.vbatLost
  let s := if lost then s else appendWaiting s
  let waiting := s.rst.fdie.filter (fun k => (s.seq k).run)
  let gddr := decide (kind = 3) || decide (kind = 4) || decide (kind = 6) ||
    (decide (kind = 5) && decide (s.cf 0 0xD088 40 40 = 1))
  let rtc := s.rtcMs.map (· + elapsed)
  let s := resetBufs kind (resetMemory gddr s)
  let s := if lost then forgetAon s else s
  let head := s.flt.head
  let s := resetRegs lost waiting s
  let s := if kind = 1 then s.setCf 0 0xD0A0 2 2 (b2n lost) else s
  let s := { s with
    now := 0, sealed := false
    cores := [], icache := [], fifos := [], snap := {}, adm := {}, therm := [], engines := []
    outs := s.outs.filter (fun e => waiting.contains (e.1 / 256) && decide (e.1 % 256 < 0xC0)), published := []
    shock := [], tripped := [], polls := [], lit := [], trims := []
    spins := [], axes := [], steps := [], progs := [], cal := []
    safe := (s.safe.filter (fun (e : Nat × SafetySeq) => waiting.contains e.1)).map (fun (e : Nat × SafetySeq) =>
      (e.1, { e.2 with at_ := e.2.at_ - s.time - (elapsed * 1000000 : Nat) }))
    maps := s.maps.filterMap (fun (e : Nat × MapEng) => if e.2.disc = [] then none else some (e.1, { disc := e.2.disc }))
    keys := { s.keys with locked := false }
    ring := resetRing kind s.ring
    aon := { s.aon with rtc := rtc, shadowRun := none, vbatLost := s.aon.vbatLost && !lost, spinTimeout := false }
    host := resetHost kind s.host
    flt := { s.flt with boots := s.flt.boots + 1 }
    rst := { pinLow := s.rst.pinLow, fdie := waiting }
    sec := { (if s.sec.tried then Secure.setControl s.sec.active none s.sec else s.sec) with
      tried := false
      running := [], boot := some { kind := 1, reset := kind }, act := none, setup := [], fuse := []
      keyImport := false, key := none, escrow := [], noSlot := false, needDefaults := false
      nonce := [], jtag := .idcode, tdo := [] } }
  let ready := ((List.range s.nslices).map (fun k => b2n (!waiting.contains k) * 2 ^ k)).sum
  let s := (s.setCf 0 0x0200 15 0 kind).setCf 0 0x0200 19 16 ready
  let s := (s.setCf 0 0xE000 27 26 (s.sec.policy % 2)).setCf 0 0xE000 24 24 (b2n s.sec.ringLost)
  let s := restoreNow (showRecord (showKeys s))
  let s := if kind = 5 then struckLimit (s.setCf 0 0xC000 10 10 1) else s
  let s := upTo s.nslices (fun k s => if waiting.contains k then s else restoreFdie k s) s
  let s := upTo (8 * s.nslices) (fun c s => s.modCore c (fun k => { k with fltAck := head })) s
  s.modCore 0 (fun k => { k with run := .running })

/-- A package reset that nothing holds. -/
def packageReset (kind : Nat) (s : State) : State := leaveReset kind 0 (enterReset kind (List.range s.nslices) s)

/-! The events of a reset. -/

/-- The rails have been in range for 2 ms, after `elapsed` ms without them (R489, R585): a brown-out or a STRUCK restart
that waits for them completes; otherwise the power came from off. -/
def execPowerUp (elapsed : Nat) (s : State) : Res :=
  .next (match s.rst.held with
    | some 2 => leaveReset 2 elapsed s
    | some 5 => leaveReset 5 elapsed s
    | some _ => s
    | none => if s.rst.struck.isSome then s else leaveReset 1 elapsed (enterReset 1 [] s))
/-- A rail of groups 1 to 4 falls below its minimum (R490): `powered` names the F-dies whose own rails stay in range and
which run the safety sequence. -/
def execBrownOut (powered : BitVec 4) (s : State) : Res :=
  .next (whileUp s (fun s =>
    let run := (List.range s.nslices).filter (fun k => powered.getLsbD k)
    let s := run.foldl (fun s k => triggerSafety k s) s
    (enterReset 2 run s).setCf 0 0xD0A0 3 3 1))
/-- A controlled stop ends in a kind 6 reset once every safety sequence has ended; SYS_RST_N low holds it (R607). -/
def stopEnd (s : State) : State :=
  if !s.stopped then s
  else if (List.range s.nslices).any (fun k => (s.seq k).run) then { s with rst := { s.rst with endWaits := true } }
  else
    let s := enterReset 6 [] s
    if s.rst.pinLow then s else leaveReset 6 0 s
/-- SYS_RST_N has been low for 1 µs: a kind 3 reset, or the end of a controlled stop; held while it stays low (R583). -/
def execPinReset (s : State) : Res :=
  .next (let s := { s with rst := { s.rst with pinLow := true } }
    whileUp s (fun s => if s.stopped then stopEnd s else enterReset 3 (List.range s.nslices) s))
/-- SYS_RST_N rises: the reset it held goes on (R583, R607). -/
def execSysRstNRelease (s : State) : Res :=
  .next (let s := { s with rst := { s.rst with pinLow := false } }
    match s.rst.held with
    | some 3 => leaveReset 3 0 s
    | some 6 => leaveReset 6 0 s
    | _ => s)
/-- A write of rst.ctl (R584): core 0 of the lead at Supervisor or Boot level, with the key and go, starts a kind 4
reset. -/
def resetCtl (c key : Nat) (go : Bool) (s : State) : State :=
  if c = 0 ∧ (s.core c).level ≠ .task ∧ key = 0xA5C3 ∧ go then packageReset 4 s else s
def execFirmwareReset (c : Nat) (own : Bool) (key : BitVec 16) (go : Bool) (s : State) : Res :=
  .next (regAccess c .store own false 0 0x0208 false (resetCtl c key.toNat go) s)
/-- 10 s after a stop began, with rst.cfg.auto set (R607). -/
def execStopAutoRestart (s : State) : Res :=
  .next (whileUp s (fun s =>
    if s.cf 0 0x0210 0 0 = 1 ∧ s.rst.stopAt + 10000000000 ≤ s.time then stopEnd s else s))
/-- An event of R607 that ends a controlled stop. -/
def execStopRestart (s : State) : Res := .next (whileUp s stopEnd)

/-! The safety sequence (R509, R588). -/

/-- When a stage of slice k's sequence is due, ns after its trigger: the park lasts its time where the sleds are parked at all (R291,
R292, R509). -/
def stageDue (s : State) (k stage : Nat) : Nat :=
  let p := parkPlan s k
  if stage = 1 then 500000 else if stage = 2 then 2000000 else if stage = 3 then (if p.1 then p.2.2.2.2 * 1000000 else 0) else 0
/-- A stage of slice k's sequence is reached: 1 the short brake starts, 2 the coil currents are 0, 3 the sleds are parked,
4 the spindle is below 60 rpm and every gate is off (R291, R509). In a reset the timebase does not tell when. -/
def execSafetySequenceStage (k stage : Nat) (s : State) : Res :=
  .next (let q := s.seq k
    if !q.run || decide (s.nslices ≤ k) || (!s.down && decide (seqTime s k < stageDue s k stage)) then s
    else if stage = 1 then s.setSeq k { q with braking := !q.coast && !q.gatesOff }
    else if stage = 2 then (s.setSeq k { q with coilsDown := true }).setFf k 0x2020 5 0 0
    else if stage = 3 then (s.setSeq k { q with parked := true }).setFf k 0x2020 11 8 0
    else if stage = 4 then s.setSeq k { q with gatesOff := true, braking := false }
    else s)
/-- 10 s without the spindle below 60 rpm: the gates go off, and the AON records it; a STRUCK in force takes cause 2 (R509,
R516). -/
def execSafetySpindleTimeout (k : Nat) (s : State) : Res :=
  .next (let q := s.seq k
    if !q.run || q.gatesOff || decide (s.nslices ≤ k) || (!s.down && decide (seqTime s k < 10000000000)) then s
    else
      let s := s.setSeq k { q with gatesOff := true, braking := false }
      let s := { s with aon := { s.aon with spinTimeout := true } }
      if s.rst.struck.isSome then s.setCf 0 0xD088 7 0 2 else s)
/-- An F-die enters reset and leaves it at once: its page, its outputs and its sequence start again, and bit k of fready sets
(R588). -/
def fdieReset (k : Nat) (s : State) : State :=
  let pins := s.ff k 0x2040 1 0
  let s := { s with
    regs := s.regs.filter (fun e => !(decide (fAddr k 0 ≤ e.1) && decide (e.1 < fAddr (k + 1) 0)))
    outs := s.outs.filter (fun e => e.1 / 256 != k || decide (0xC0 ≤ e.1 % 256))
    safe := s.safe.filter (fun e => e.1 != k)
    shock := s.shock.filter (fun e => e.1 / 2 != k), tripped := s.tripped.filter (fun e => e.1 / 16 != k)
    polls := s.polls.filter (fun e => e.1 != k), lit := s.lit.filter (fun e => e.1 / 24 != k)
    trims := s.trims.filter (fun e => !(decide (fAddr k 0 ≤ e.1) && decide (e.1 < fAddr (k + 1) 0)))
    rst := { s.rst with fdie := s.rst.fdie.filter (fun x => x != k) } }
  let s := s.setFf k 0x2040 1 0 pins
  if s.down then s else (restoreFdie k s).setCf 0 0x0200 (16 + k) (16 + k) 1
/-- Slice k's sequence ends, the sleds parked and the gates off: its outputs take their reset states, an F-die that waits
enters and leaves reset, and a stop that waits ends (R509, R588, R607). -/
def execSafetySequenceEnd (k : Nat) (s : State) : Res :=
  .next (let q := s.seq k
    if !q.run || !q.parked || !q.gatesOff then s
    else
      let s := s.setSeq k { q with run := false, ended := true }
      let s := { s with outs := s.outs.filter (fun e => e.1 / 256 != k || decide (0xC0 ≤ e.1 % 256)) }
      let s := if s.rst.fdie.contains k then fdieReset k s else s
      if s.rst.endWaits then stopEnd s else s)

/-! Watchdogs and the restart of a deck core (R600 to R605). -/

/-- A write of rst.ckick by core c (R600, R614). -/
def coreKick (c : Nat) (s : State) : State := s.modCore c (fun k => { k with kickAt := s.time })
def execCoreWatchdogKick (c : Nat) (own : Bool) (s : State) : Res :=
  .next (regAccess c .store own false (c / 8) 0x02C0 false (coreKick c) s)
/-- The watchdog of core c expires: it runs while its period is not 0 and the core is released and executing (R600). -/
def execCoreWatchdogExpiry (c : Nat) (s : State) : Res :=
  .next (let k := s.core c
    let per := s.cf (c / 8) (0x0280 + 8 * (c % 8)) 15 0
    if s.hasCore c && !s.down && !s.stopped && (k.run == .running || k.run == .wfe) && per != 0 &&
        decide (k.kickAt + per * 10000 ≤ s.time) then deckCoreFault c 2 s
    else s)
/-- A faulted core restarts at Supervisor level at rst.cent (R601). -/
def execDeckCoreRestart (c : Nat) (s : State) : Res :=
  .next (if s.hasCore c && !s.down && !s.stopped && s.sealed && (s.core c).run == .stopped then
      (s.dropIcache c).modCore c (fun k => { k with
        run := .running, level := .supervisor, g := Vector.replicate 32 0, p := 1, status := 0, evmask := 0
        epc := k.pc, eaddr := 0, cause := 0x25, einfo := BitVec.ofNat 64 k.stopSeq
        estatus := BitVec.ofNat 64 (k.level.code + k.status.toNat % 4 * 4)
        pc := BitVec.ofNat 64 (s.cf (c / 8) (0x0240 + 8 * (c % 8)) 39 2 * 4)
        restartAt := some s.time, kickAt := s.time, broken := false })
    else s)
/-- A write of rst.wdk by any core (R605). -/
def packageKick (s : State) : State := { s with rst := { s.rst with wdKick := s.time } }
def execPackageWatchdogKick (s : State) : Res := .next (whileUp s packageKick)
/-- The package watchdog expires: a controlled stop with code 8 (R604, R605). -/
def execPackageWatchdogExpiry (s : State) : Res :=
  .next (whileUp s (fun s =>
    let per := s.cf 0 0x0210 31 16
    if per ≠ 0 ∧ s.rst.wdKick + per * 1000000 ≤ s.time then controlledStop 8 s else s))
/-- REFCLK has stopped or left its range: tamper source 3, the safety sequences, a controlled stop with code 7 (R36). -/
def execRefclkLoss (s : State) : Res :=
  .next (whileUp s (fun s => controlledStop 7 (upTo s.nslices triggerSafety (tamperEvent 3 s))))

end Sys2Proof.Machine
end

