-- ==== Sys2Proof/Machine/SelfTest.lean ====
section
/-! DEFINITION. The memory self-tests, the GDDR6 controller's training and its transfers, and the scrubbers (R411 to R422). -/

namespace Sys2Proof.Machine

/-! Way test (R421). -/

/-- Whether the cache accepts a test of a way: unlocked, in no cc.part mask, no test running, another normal way eligible. -/
def wayTestOk (s : State) (d w : Nat) : Bool :=
  decide ((s.way d w).lock = .none) &&
  (decide (4 ≤ w) || !bitSet (Nat.lor (Nat.lor (s.cf d 0x9000 15 12) (s.cf d 0x9000 11 8))
    (Nat.lor (s.cf d 0x9000 7 4) (s.cf d 0x9000 3 0))) w) &&
  (Tbl.at s.cache.wayTest d).isNone && (eligibleWays d s).any (fun x => x != w)
/-- A write of cc.bist with go: an accepted way is withdrawn, cleaned and invalidated; cc.bstat takes the scheduled start,
which lies a free time ahead, or all ones for a refusal (log entry 37). -/
def wayTestGo (d w : Nat) (s : State) : State :=
  if wayTestOk s d w then
    let n := s.freshNat
    let s := n.2.setReg (cAddr d 0x9018) (BitVec.ofNat 64 (s.time + n.1))
    let s := s.setWay d w { s.way d w with withdrawn := true }
    let s := (s.cache.lines.filter (fun l => l.die == d && l.way == w)).foldl (fun s l => evictLine l s) s
    { s with cache := { s.cache with wayTest := Tbl.upd d (some w) s.cache.wayTest } }
  else s.setReg (cAddr d 0x9018) (BitVec.allOnes 64)
def execCcBistGo (d : Nat) (way : BitVec 4) (s : State) : Res :=
  .next (if d < s.nslices ∧ ¬ s.down then wayTestGo d way.toNat s else s)
/-- The way test ends: the way returns empty, or stays withdrawn until reset and a record is written, whose code, unit and
detail the spec does not give (log entry 37). -/
def execCcBistEnd (d : Nat) (passed : Bool) (s : State) : Res :=
  .next (match Tbl.at s.cache.wayTest d with
    | none => s
    | some w =>
      if s.down then s
      else
        let s := { s with cache := { s.cache with wayTest := Tbl.upd d none s.cache.wayTest } }
        if passed then s.setWay d w { s.way d w with withdrawn := false }
        else
          let c := s.freshNat
          let u := c.2.freshNat
          let x := u.2.freshNat
          logFault (c.1 % 65536) d (u.1 % 256) d 0xFF x.1 x.2)

/-! Buffer test (R422). -/

/-- mem.bstat.result and nfail. -/
def testResult (d result : Nat) (s : State) : State := s.setCf d 0x9828 3 0 result
/-- Core c writes mem.bist of C-die d with go: refused, or the buffer's lines are invalidated, their dirty data discarded,
and the test runs. -/
def bufTestGo (c d h : Nat) (s : State) : State :=
  if (Tbl.at s.cache.bufTest d).isSome then s
  else
    let b := s.buf (handleDie h) (handleIndex h)
    if !handleOk s h || handleDie h != d || b.gen.toNat != handleGen h || !b.owners.contains c then testResult d 4 s
    else if bufBusy s h then testResult d 5 s
    else
      let a := handleAddr h
      let s := (s.cache.lines.filter (fun l => decide (a ≤ l.addr) && decide (l.addr < a + 0x2_0000))).foldl
        (fun s l => discardLine l s) s
      testResult d 1 { s with cache := { s.cache with bufTest := Tbl.upd d (some { handle := h, core := c }) s.cache.bufTest } }
def execMemBistGo (c : Nat) (own : Bool) (d : Nat) (handle : BitVec 32) (s : State) : Res :=
  .next (regAccess c .store own false d 0x9820 false (bufTestGo c d handle.toNat) s)
/-- The buffer test ends: every word holds 0 with fresh check bits, or the poison syndrome where it failed; the record names
the first failing address (R422, R423, R652). -/
def execMemBistEnd (d : Nat) (failed : List (BitVec 14)) (s : State) : Res :=
  .next (match Tbl.at s.cache.bufTest d with
    | none => s
    | some t =>
      if s.down then s
      else
        let a := handleAddr t.handle
        let s := { s with cache := { s.cache with bufTest := Tbl.upd d none s.cache.bufTest } }
        let s := zeroFill a 0x2_0000 s
        let bad := (List.range 16384).filter (fun i => failed.contains (BitVec.ofNat 14 i))
        let s := (bad.foldl (fun s i => s.setEcc (a + 8 * i) .bad) s).count d 359 bad.length
        let s := s.setCf d 0x9828 47 32 (min 65535 bad.length)
        match bad with
        | [] => testResult d 2 s
        | i :: _ => logUncorrectable 0x35 (a + 8 * i) (testResult d 3 s))

/-! The GDDR6 controller (R411, R412). -/

/-- Channels of C-die d are lost: mem.stat.lost, and the controlled stop of code 4 (R412, R604). -/
def channelsLost (d chans : Nat) (s : State) : State :=
  if chans = 0 then s
  else
    let s := s.setCf d 0x9808 11 8 (Nat.lor (s.cf d 0x9808 11 8) chans)
    controlledStop 4 (s.setCf d 0x9808 3 0 (Nat.land (s.cf d 0x9808 3 0) (15 - chans)))
/-- A write of mem.cfg.rate: every channel is retrained, and is not trained until that ends; contents are kept (R411). -/
def rateWrite (d rate : Nat) (s : State) : State := (s.setCf d 0x9800 1 0 rate).setCf d 0x9808 3 0 0
def execMemRateWrite (c : Nat) (own : Bool) (d : Nat) (rate : BitVec 2) (s : State) : Res :=
  .next (regAccess c .store own false d 0x9800 true (rateWrite d rate.toNat) s)
/-- Training ends after a reset or a rate write; channels whose training failed are lost. -/
def execGddr6TrainingEnd (d : Nat) (failed : BitVec 4) (s : State) : Res :=
  .next (if s.nslices ≤ d ∨ s.down ∨ s.cf d 0x9808 3 0 ≠ 0 then s
    else
      let s := s.setCf d 0x9808 3 0 (Nat.land (15 - failed.toNat) (15 - s.cf d 0x9808 11 8))
      channelsLost d failed.toNat s)
/-- A retrack of every trained channel: it changes nothing unless it fails. -/
def execGddr6Retrack (d : Nat) (failed : BitVec 4) (s : State) : Res :=
  .next (if s.nslices ≤ d ∨ s.down then s else channelsLost d (Nat.land failed.toNat (s.cf d 0x9808 3 0)) s)
/-- A transfer on a channel fails its EDC check, and `failed` replays of it fail too: the next one succeeds, unless four
have failed, and then the channel is lost (R412, R423). -/
def execEdcFail (d : Nat) (chan : BitVec 2) (failed : Nat) (s : State) : Res :=
  .next (if s.nslices ≤ d ∨ s.down then s
    else
      let s := s.count d 360 (min 4 (failed + 1))
      if 4 ≤ failed then channelsLost d (2 ^ chan.toNat) s else s)

/-! Scrub (R419, R423). -/

/-- One code word the scrubber reads: a correctable error is corrected, an uncorrectable one is recorded. -/
def scrubWord (initiator w : Nat) (s : State) : State :=
  match s.eccAt w with
  | .clean => s
  | .corr => healRead none w 1 s
  | .bad =>
    let s := if memKind w = 3 then s.count (memDie w) 359 1 else s
    logUncorrectable initiator w (countBad w 1 s)
/-- The SRAM scrubber reads a line of the cache's data array: what it finds uncorrectable in a dirty one is recorded (R417,
R419). -/
def scrubLine (l : Line) (s : State) : State :=
  let found := if l.dirty then l.errs.filter (fun e => e.2 == .bad) else []
  found.foldl (fun s e => logUncorrectable 0x33 (eccKey e.1) s) (settleLine none l.addr 128 l s)
/-- The SRAM scrubber's pass over C-die d, while sper is not 0: the memories of the first row of R414, the cache's data arrays
among them. How many bytes it read is free (log entry 38). -/
def execSramScrubPass (d : Nat) (s : State) : Res :=
  .next (if s.nslices ≤ d ∨ s.down ∨ s.cf d 0x9810 31 16 = 0 then s
    else
      let n := s.freshNat
      let ws := (s.ecc.map Prod.fst).filter (fun a => decide (memKind a ≠ 3) && decide (memDie a = d))
      let s := ws.foldl (fun s w => scrubWord 0x33 w s) n.2
      ((s.cache.lines.filter (fun l => l.die == d)).foldl (fun s l => scrubLine l s) s).count d 361 n.1)
/-- The words of a dirty line as GDDR6 holds them: a correctable one is corrected beneath the line, an uncorrectable one is
recorded. -/
def scrubUnder (l : Line) (s : State) : State :=
  let states := (eccKeys l.addr 128).zip l.underEcc
  let corr := (states.filter (fun e => decide (e.2 = .corr))).length
  let s := (s.modLine l.addr (fun m => { m with underEcc := m.underEcc.map (fun e => if e = .corr then .clean else e) })).count
    l.die 355 corr
  (states.filter (fun e => decide (e.2 = .bad))).foldl (fun s e =>
    logUncorrectable 0x34 e.1 ((s.count l.die 356 1).count l.die 359 1)) s
/-- The GDDR6 scrubber's pass over C-die d, at the controller and past the cache, while gper is not 0: it reads every word of
the usable window and the controller reserve (R410, R419). -/
def execGddr6ScrubPass (d : Nat) (s : State) : Res :=
  .next (if s.nslices ≤ d ∨ s.down ∨ s.cf d 0x9810 15 0 = 0 then s
    else
      let dirty := s.cache.lines.filter (fun l => l.die == d && l.dirty)
      let ws := (s.ecc.map Prod.fst).filter (fun a => decide (memKind a = 3) && decide (memDie a = d) &&
        !dirty.any (fun l => l.addr == lineAddr a))
      let s := ws.foldl (fun s w => scrubWord 0x34 w s) s
      (dirty.foldl (fun s l => scrubUnder l s) s).count d 361 477102080)

end Sys2Proof.Machine
end

