-- ==== Sys2Proof/Machine/Spindle.lean ====
section
/-! DEFINITION. The spindle drive (R257 to R276): the mailbox and the states its programs must carry out, what they do in each slot of
engines 4 and 5, sp.stat and its copy at the end of a slot of engine 5, the gate driver's trips, and the speed ceiling. -/

namespace Sys2Proof.Machine

/-- A slice's spindle program. -/
def State.spin (s : State) (k : Nat) : Spin := Tbl.at s.spins k
/-- Bytes of the status block (R263). -/
def Spin.block (x : Spin) : List Byte :=
  leBytes 1 0xA5 ++ leBytes 1 x.state ++ leBytes 1 x.result ++ leBytes 1 x.reason ++ leBytes 4 x.seq ++
    leBytes 2 x.speed ++ leBytes 2 x.target ++ leBytes 1 (b2n x.back) ++ leBytes 19 0
/-- The effective target of a command: the smaller of it, sp.vin.ceil and the program's own ceiling (R262, R266). -/
def effective (s : State) (k cmd : Nat) : Nat := min cmd (min (s.cf k 0x4208 13 0) (s.spin k).own)
/-- Replaces it: a state entered is dated, the effective target is 0 in STOPPED and after op 2 or op 3, and the status block in
engine 5's telemetry window follows (R262, R263). -/
def State.setSpin (s : State) (k : Nat) (x : Spin) : State :=
  let x : Spin := { x with
    valid := true, since := if x.state = (s.spin k).state then x.since else s.time
    target := if x.state = 0 then 0 else min x.cmd (min (s.cf k 0x4208 13 0) x.own) }
  let s := { s with spins := Tbl.upd k x s.spins }
  s.modEngine k (physicalOf s k 5) (fun e => { e with r := { e.r with dmem := dmemPoke e.r.dmem 0x7FC0 x.block } })
/-- Whether the programs of the spindle and the steppers run on slice k. -/
def program5 (s : State) (k : Nat) : Bool :=
  decide (k < s.nslices) && !s.down && !s.stopped && decide ((s.engine k (physicalOf s k 5)).code ≠ []) &&
  !(s.engine k (physicalOf s k 5)).fault
/-- Bytes of engine 5's parameter window (R262, R281, R284). -/
def param5 (s : State) (k off n : Nat) : Nat := dmemNum (s.engine k (physicalOf s k 5)).r.dmem (0x7000 + off) n
/-- A stepper axis's parameter: bytes of its block (R281). -/
def axisParam (s : State) (k a off n : Nat) : Nat := param5 s k (0x400 + 48 * a + off) n
/-- The mailbox: seq, op, target (R262). -/
def mailSeq (s : State) (k : Nat) : Nat := param5 s k 0x780 4
def mailOp (s : State) (k : Nat) : Nat := param5 s k 0x784 1
def mailTarget (s : State) (k : Nat) : Nat := param5 s k 0x788 4
/-- Whether a posted command waits to be served. -/
def mailNew (s : State) (k op : Nat) : Bool :=
  program5 s k && decide (mailOp s k = op) && (!(s.spin k).valid || decide (mailSeq s k ≠ (s.spin k).seq))
/-- A speed as the status reports it: 0 below 60 rpm (R263). -/
def shownSpeed (v : Nat) : Nat := if v < 60 then 0 else v

/-! The parameters of the reference programs (R268; log entry 132). -/

/-- Magnitude of a rational. -/
def ratAbs (x : Rat) : Rat := max x (-x)
/-- Pole pairs. -/
def polePairs : Nat := 6
/-- Current full scale, current limit and a quarter of it, alignment and open-loop current, mA. -/
def currentFull : Nat := 6000
def currentLimit : Nat := 3000
def openCurrent : Nat := 1500
/-- A current in mA as a share of the full scale, Q1.31. -/
def currentWord (mA : Int) : Int := mA * 2147483648 / currentFull
/-- Back-EMF, phase peak in mV, that a speed in rpm gives at 0.70 V per 1,000 rpm. -/
def backEmf (rpm : Rat) : Rat := rpm * 7 / 10
/-- Torque less drag, nN·m, of a q current in mA at a speed in rpm: 10.03 mN·m/A, less 0.5 mN·m and 2.0 µN·m·s/rad. -/
def torque (mA rpm : Rat) : Rat := mA * 10030 - 500000 - rpm * 2000 * 10472 / 100000
/-- What that adds to the speed in one slot of engine 4, rpm: over an inertia of 4.0 × 10^-5 kg·m² for 20 µs. -/
def speedStep (nNm : Rat) : Rat := nNm * 477465 / 100000000000000
/-- The forced speed of OPEN, 2^-16 rpm: on the upward profile for so many ns from a speed in rpm (R269, R271). -/
def forcedSpeed (start ns : Nat) : Nat :=
  let us := ns / 1000
  if us ≤ 500000 then start * 65536 + 3000 * 65536 * us * us / 1000000000000
  else (start + 750) * 65536 + 3000 * 65536 * (us - 500000) / 1000000
/-- The forced speed of a slice's spindle now. -/
def forcedNow (s : State) (k : Nat) : Nat := forcedSpeed (s.spin k).openFrom (s.time - (s.spin k).openAt)
/-- The forced-angle step of a speed in 2^-16 rpm: 2^-28 turns in a slot of engine 4 (R257; log entry 132). -/
def angleStep (v : Nat) : Nat := v * polePairs * 20 * 2 ^ 28 / (60 * 1000000 * 65536)
/-- Whether a current-loop slot is plausible: the observer's speed against the model's, rpm, and the back-EMF in mV against what the
speed gives (R268, R273). -/
def plausible (speed model emf : Rat) : Bool :=
  decide (ratAbs (speed - model) ≤ ratAbs model / 10 + 30) &&
  decide (ratAbs (emf - backEmf (ratAbs speed)) ≤ backEmf (ratAbs speed) * 15 / 100)
/-- The q-axis current reference that a speed loop's demand gives in a state, Q1.31: within the current limit, in DECEL with at most
12 W of shaft power returned, 1.5 A in OPEN, none where the bridge does not drive the rotor (R257, R268, R271, R272; log entry
132). -/
def currentReference (x : Spin) (demand : Int) : Int :=
  if x.state = 3 then currentWord openCurrent
  else if x.state = 4 ∨ x.state = 5 ∨ x.state = 6 ∨ (x.state = 1 ∧ x.resumed.isSome) then
    let returned : Int := if x.state = 6 then min currentLimit (8000000 / max 1 (x.speed * 7 / 10) : Nat) else currentLimit
    max (-(currentWord returned)) (min (currentWord currentLimit) demand)
  else 0
/-- The bridge state of each state of R262; PWM has resumed before a re-catch's CATCH ends (R273). -/
def bridgeOf (x : Spin) : Nat :=
  if (2 ≤ x.state ∧ x.state ≤ 6) ∨ (x.state = 1 ∧ x.recatching ∧ x.resumed.isSome) then 1
  else if x.state = 7 then 2 else 0

/-! Commands (R262, R264). -/

/-- The bridge goes off for good: the program is in FAULT (R271, R274, R275). -/
def faulted (reason : Nat) (x : Spin) : Spin :=
  { x with state := 9, result := 4, reason := reason, leads := none, recatching := false, recatch := 0, starts := 0, resumed := none }
/-- op 1 with a target that is served now (R264, R270). -/
def runAt (s : State) (k cmd : Nat) (x : Spin) : Spin :=
  let x : Spin := { x with cmd := cmd, result := 1, reason := 0 }
  if x.state = 0 ∨ x.state = 8 then { x with
    state := 1, leads := none, starts := 0, recatching := false, recatch := 0, resumed := none, noVin := false }
  else if x.state = 6 ∨ (x.state = 7 ∧ x.leads ≠ some 1) then { x with state := 4, leads := none, near := none }
  else if x.state = 5 then
    (if effective s k cmd = (s.spin k).target then { x with result := 2 } else { x with state := 4, near := none })
  else x
/-- STOPPED is reached: an op 1 that was held is served (R264). -/
def atStop (s : State) (k : Nat) (x : Spin) : Spin :=
  match x.waiting with
  | some w => runAt s k w.2 { x with waiting := none }
  | none => x
/-- SPINDLE_RUN: op 1. -/
def execSpindleRun (k : Nat) (s : State) : Res :=
  .next (if !mailNew s k 1 then s
    else
      let t := mailTarget s k
      let x : Spin := { s.spin k with seq := mailSeq s k }
      if t < 1200 ∨ 7200 < t ∨ x.state = 9 then s.setSpin k { x with result := 3 }
      else if (x.state = 7 ∨ x.state = 8) ∧ (x.leads = some 2 ∨ x.leads = some 3) then
        s.setSpin k { x with waiting := some (x.seq, t), result := 1 }
      else s.setSpin k (runAt s k t x))
/-- SPINDLE_STOP: op 2 (R264, R272). In ALIGN and OPEN, which no rotor above 300 rpm enters, the windings are shorted at once; from
CATCH and COAST, whose speed is not known, only once a coast is at 1,200 rpm (R274; log entry 69). -/
def execSpindleStop (k : Nat) (s : State) : Res :=
  .next (if !mailNew s k 2 then s
    else
      let x : Spin := { s.spin k with
        seq := mailSeq s k, cmd := 0, recatching := false, recatch := 0, resumed := none, noVin := false, reason := 0 }
      if x.state = 0 ∨ x.state = 9 then s.setSpin k (atStop s k { x with state := 0, result := 2, leads := none })
      else
        let x : Spin := { x with result := 1, leads := some 0 }
        s.setSpin k (if x.state = 4 ∨ x.state = 5 then { x with state := 6 }
          else if x.state = 6 ∨ x.state = 7 then x
          else if x.state = 2 ∨ x.state = 3 then { x with state := 7 } else { x with state := 8 }))
/-- SPINDLE_COAST: op 3 (R264, R272). -/
def execSpindleCoast (k : Nat) (s : State) : Res :=
  .next (if !mailNew s k 3 then s
    else
      let x : Spin := { s.spin k with seq := mailSeq s k }
      if x.state = 9 then s.setSpin k { x with result := 3 }
      else s.setSpin k { x with
        cmd := 0, recatching := false, recatch := 0, resumed := none, noVin := false, leads := none, result := 2, reason := 0
        state := if x.state = 0 then 0 else 8 })

/-! Starting, running, stopping (R262, R270 to R272). -/

/-- A step of the program that its state allows. -/
def spinStep (k : Nat) (ok : Spin → Bool) (f : Spin → Spin) (s : State) : State :=
  if program5 s k && ok (s.spin k) then s.setSpin k (f (s.spin k)) else s
/-- Since when something has held, when it holds now; none when it does not. -/
def heldSince (holds : Bool) (now : Nat) (since : Option Nat) : Option Nat :=
  if holds then some (since.getD now) else none
/-- Whether something has held for so long. -/
def heldFor (since : Option Nat) (now long : Nat) : Bool :=
  match since with
  | some t => decide (t + long ≤ now)
  | none => false
/-- The state in which an OPEN from a speed begins (R270, R271). -/
def openFrom (s : State) (v : Nat) (angle : Word32) (x : Spin) : Spin :=
  { x with state := 3, openAt := s.time, openFrom := v, angle := angle, matched := none, turned := s.time }
/-- CATCH_MEASUREMENT_END: what the measurement finds decides (R270). -/
def execCatchMeasurementEnd (k speed : Nat) (back : Bool) (s : State) : Res :=
  .next (spinStep k (fun x => decide (x.state = 1) && !x.recatching) (fun x =>
    let x : Spin := { x with speed := shownSpeed speed, back := back && decide (60 ≤ speed) }
    let angle := (s.out k 0xC8).getD 0
    if speed < 60 then { x with state := 2 }
    else if back then { x with state := if speed < 1200 then 7 else 8, leads := some 1 }
    else if speed ≤ 300 then openFrom s speed angle x
    else { x with
      state := 4, near := none, angle := angle, speedInt := speed, currentInt := ((s.out k 0xCA).getD 0).toNat % 65536
      model := speed * 65536, bad := 0, turned := s.time }) s)
/-- ALIGN_END: its 40 ms have passed (R271). -/
def execAlignEnd (k : Nat) (s : State) : Res :=
  .next (spinStep k (fun x => decide (x.state = 2) && decide (x.since + 40000000 ≤ s.time)) (fun x => openFrom s 0 0 x) s)
/-- OPEN_LOOP_HANDOVER: at a forced speed of 300 rpm or more, the observer has matched it within 5 % for 10 ms and the back-EMF is
plausible (R271). -/
def execOpenLoopHandover (k speed : Nat) (s : State) : Res :=
  .next (spinStep k (fun x => decide (x.state = 3) && decide (300 * 65536 ≤ forcedNow s k) && heldFor x.matched s.time 10000000)
    (fun x => { x with
      state := 4, near := none, speed := shownSpeed speed, starts := 0, speedInt := ((s.out k 0xC4).getD 0).toInt
      angle := (s.out k 0xC8).getD x.angle, model := speed * 65536, bad := 0 }) s)
/-- FAILED_START: the forced speed has reached 600 rpm: the bridge goes off. A first failure goes on to CATCH, a second coasts to
FAULT (R271). -/
def execFailedStart (k speed : Nat) (s : State) : Res :=
  .next (spinStep k (fun x => decide (x.state = 3) && decide (600 * 65536 ≤ forcedNow s k)) (fun x =>
    let x : Spin := { x with state := 8, speed := shownSpeed speed }
    if x.starts = 0 then { x with leads := some 4, starts := 1 }
    else { x with leads := some 2, result := 4 }) s)
/-- SPEED_SETTLED: within 0.1 % of the effective target for 20 ms (R262). -/
def execSpeedSettled (k speed : Nat) (s : State) : Res :=
  .next (spinStep k (fun x => decide (x.state = 4) && heldFor x.near s.time 20000000 &&
      decide (((speed : Int) - x.target).natAbs * 1000 ≤ x.target) && decide (0 < x.target))
    (fun x => { x with state := 5, speed := shownSpeed speed, result := 2, recatch := 0 }) s)
/-- BRAKE_SAFE_SPEED_REACHED: DECEL, or a coast that is to brake, has come down to 1,200 rpm, and there is VIN (R266, R272, R274). -/
def execBrakeSafeSpeedReached (k speed : Nat) (s : State) : Res :=
  .next (spinStep k (fun x => decide (speed ≤ 1200) && !x.noVin && (decide (x.state = 6) ||
      (decide (x.state = 8) && decide (x.leads ≠ none ∧ x.leads ≠ some 2 ∧ x.leads ≠ some 4))))
    (fun x => { x with state := 7, speed := shownSpeed speed }) s)
/-- SPINDLE_AT_REST: below 60 rpm, the path decides (R270 to R272, R274); STOPPED serves an op 1 that was held (R264). -/
def execSpindleAtRest (k speed : Nat) (s : State) : Res :=
  .next (spinStep k (fun x => decide (speed < 60) &&
      (decide (x.state = 7) || (decide (x.state = 8) && x.leads.isSome && decide (x.leads ≠ some 4))))
    (fun x =>
      let x : Spin := { x with speed := 0, back := false, noVin := false }
      if x.leads = some 1 then { x with state := 2, leads := none }
      else if x.leads = some 2 then faulted 2 x
      else if x.leads = some 3 then faulted 3 x
      else atStop s k { x with state := 0, leads := none, result := 2 }) s)

/-! Loss of synchronism and locked rotor (R273 to R275). -/

/-- A program has set bit i of logical engine l's supervision word for so many slots in a row: the check acts when it is enabled and
they are its limit (R217). -/
def superviseBit (k l i slots : Nat) (s : State) : State :=
  let b := supByte s k l i
  if bitSet b 7 ∧ max 1 (b % 16) ≤ slots then supAction k (physicalOf s k l) l i (b / 32 % 4) s else s
/-- The program is in the CATCH of a re-catch, the bridge off (R273). -/
def recatchAt (s : State) (failed : Nat) (x : Spin) : Spin :=
  { x with state := 1, since := s.time, recatching := true, recatch := failed, resumed := none, bad := 0 }
/-- A re-catch has failed; the second in a row coasts, brakes and ends in FAULT (R274). -/
def recatchFailed (k : Nat) (s : State) : State :=
  let x := s.spin k
  if x.recatch = 0 then s.setSpin k (recatchAt s 1 x)
  else
    superviseBit k 4 1 1 (s.setSpin k { x with
      state := 8, leads := some 3, recatching := false, recatch := 0, result := 4, resumed := none })
/-- Whether engine 4 closes its loops on the rotor: RAMP, RUN, DECEL, or a re-catch whose PWM has resumed (R262, R273). -/
def Spin.locked (x : Spin) : Bool := (decide (4 ≤ x.state) && decide (x.state ≤ 6)) || (decide (x.state = 1) && x.resumed.isSome)
/-- LOSS_OF_SYNCHRONISM: three implausible slots in a row: check 0 of engine 4 acts, and the program starts a re-catch; within 5 ms of
resumption they fail the one before (R273, R274). -/
def execLossOfSynchronism (k : Nat) (s : State) : Res :=
  .next (let x := s.spin k
    if !program5 s k || !x.locked || decide (x.bad < 3) then s
    else
      let s := superviseBit k 4 0 x.bad s
      let soon := match x.resumed with
        | some t => decide (s.time ≤ t + 5000000)
        | none => false
      if soon then recatchFailed k s else s.setSpin k (recatchAt s 0 x))
/-- RECATCH_END: after 0.5 ms for the currents to decay the measurement finds the speed, and PWM resumes with the integrators preset; or
it finds no three-phase sequence (R273, R274). -/
def execRecatchEnd (k speed : Nat) (found : Bool) (s : State) : Res :=
  .next (let x := s.spin k
    if !program5 s k || x.state != 1 || !x.recatching || x.resumed.isSome || decide (s.time < x.since + 500000) then s
    else if found then
      s.setSpin k { x with
        speed := shownSpeed speed, resumed := some s.time, model := speed * 65536, bad := 0, badAt := s.time
        angle := (s.out k 0xC8).getD x.angle, speedInt := speed, currentInt := ((s.out k 0xCA).getD 0).toNat % 65536 }
    else recatchFailed k s)
/-- LOCKED_ROTOR: for 250 ms at least a quarter of the current limit, and no sector crossed (R275). -/
def execLockedRotor (k : Nat) (s : State) : Res :=
  .next (let x := s.spin k
    if program5 s k && decide (3 ≤ x.state) && decide (x.state ≤ 5) && decide (x.turned + 250000000 ≤ s.time) then
      superviseBit k 5 2 1 (s.setSpin k (faulted 1 x))
    else s)

/-! The gate driver (R260, R261, R276, R639). -/

/-- A trip turns every gate off, a safety sequence's brake too, whose stop then is a coast (R179, R261, R276). -/
def gatesTrip (k : Nat) (s : State) : State :=
  let s := s.setFf k 0x2018 0 0 0
  if (s.seq k).run then s.setSeq k { s.seq k with braking := false, coast := true } else s
/-- VDS_TRIP: a drain-source over-current in phase 0 to 2 while the gates are enabled or a safety sequence brakes. The record and the
count are the C-die's. -/
def execVdsTrip (k phase : Nat) (s : State) : Res :=
  .next (if decide (s.nslices ≤ k) || decide (2 < phase) || !((!s.down && decide (s.ff k 0x2018 0 0 = 1)) || (s.seq k).braking) then s
    else
      let s := ((gatesTrip k s).setFf k 0x2018 1 1 1).setFf k 0x2018 7 6 phase
      whileUp s (fun s => logFault 0x0013 (4 + k) 0xFF k 0xFF (2 * 2 ^ 8) (s.count (4 + k) 1 1)))
/-- OVER_VOLTAGE_TRIP: VIN reaches 19.5 V, while the dies run or a safety sequence does. -/
def execOverVoltageTrip (k : Nat) (s : State) : Res :=
  .next (if decide (s.nslices ≤ k) || (s.down && !(s.seq k).run) then s
    else
      let s := (gatesTrip k s).setFf k 0x2018 2 2 1
      whileUp s (fun s =>
        let s := s.setCf k 0x4208 33 33 1
        let s := { s with spins := Tbl.upd k { s.spin k with high := true } s.spins }
        logFault 0x0013 (4 + k) 0xFF k 0xFF (3 * 2 ^ 8) (s.count (4 + k) 2 1)))
/-- A write of fe.sp.ctl.en: a 1 is ignored above 19.0 V and while the clamp is open. -/
def gateEnable (k : Nat) (on : Bool) (s : State) : State :=
  if !on then s.setFf k 0x2018 0 0 0
  else if (s.spin k).high ∨ s.ff k 0x2040 1 1 = 0 then s
  else dropSafe k (s.setFf k 0x2018 0 0 1)
def execGateEnable (k : Nat) (on : Bool) (s : State) : Res := .next (if aHead s k 0 then gateEnable k on s else s)

/-! The speed ceiling (R265, R266). -/

/-- The ceiling a mean VIN allows. -/
def ceilingOf (v : Nat) : Nat := if v < 4500 then 0 else min 7200 (v * 2 / 3)
/-- A WRITE that has started on the slice raises write inhibit on its head (R267, R349). -/
def inhibitWrite (k : Nat) (s : State) : State :=
  match s.front k with
  | some o => if o.op = 2 ∧ o.started then raiseWi k o.head 8 s else s
  | none => s
/-- SPEED_CEILING_UPDATE: the mean VIN of the last 1 ms, mV; the ceiling and wok look over 100 ms, 1,000 updates (R265). A
fall of wok raises write inhibit on the head of a WRITE that has started (R349). -/
def execSpeedCeilingUpdate (k mv : Nat) (s : State) : Res :=
  .next (if !aHead s k 0 then s
    else
      let x := s.spin k
      let vs := (mv :: x.vins).take 1000
      let whole := decide (vs.length = 1000)
      let c := if whole then (vs.map ceilingOf).foldl min 7200 else 0
      let wok := whole && vs.all (fun v => decide (6000 ≤ v))
      let was := s.cf k 0x4208 32 32
      let s := { s with spins := Tbl.upd k { x with vins := vs, high := decide (19000 < mv) } s.spins }
      let s := ((s.setCf k 0x4208 13 0 c).setCf k 0x4208 31 16 (min 18000 mv)).setCf k 0x4208 32 32 (b2n wok)
      if was = 1 ∧ !wok then inhibitWrite k s else s)
/-- The program follows the ceiling: while it is 0 the bridge is off, and a stop or a failure waits so; when it returns, a run catches
the rotor again; otherwise a changed effective target is ramped to (R266). -/
def followCeiling (e : Nat) (vin : Bool) (was : Nat) (x : Spin) : Spin :=
  if x.state = 8 ∧ x.noVin then
    if !vin then x
    else if 0 < x.cmd ∧ (x.leads = none ∨ x.leads = some 1) then { x with state := 1, leads := none, noVin := false }
    else { x with noVin := false }
  else if ¬ vin ∧ 1 ≤ x.state ∧ x.state ≤ 7 then { x with
    state := 8, noVin := true, recatching := false, recatch := 0, resumed := none }
  else if x.state = 5 ∧ e ≠ was then { x with state := 4, near := none }
  else x

/-! The slots (R257, R263, R266, R270 to R275). -/

/-- What a slot of a program is given on a channel. -/
def givenWord (given : List (Nat × List Int)) (ch : Nat) : Option Word32 :=
  (given.find? (fun g => g.1 == ch)).map (fun g => BitVec.ofInt 32 (g.2.getLastD 0))
/-- A program emits a value in its slot, ahead of what its instructions emit (R203, R205). -/
def emitAs (k e ch : Nat) (v : Int) (s : State) : State :=
  s.modEngine k e (fun x => { x with emitted := x.emitted ++ [(ch, BitVec.ofInt 32 v)] })
/-- A slot of engine 4: the checks of R273 on the speed and back-EMF that its observer is given, the model, the forced angle, and what
it commands and publishes. -/
def spinSlot4 (k e : Nat) (given : List (Nat × List Int)) (s : State) : State :=
  let x := s.spin k
  if !x.valid then s
  else
    let q : Rat := (((s.out k 0xC4).getD 0).toInt : Rat) * currentFull / 2147483648
    let step := ((s.out k 0xC5).getD 0).toNat / 16
    let x : Spin := if x.state = 3 then { x with angle := x.angle + BitVec.ofNat 32 (16 * step) } else x
    let s := emitAs k e 0x13 (bridgeOf x) s
    let angle := match givenWord given 0xC8 with
      | some w => some w.toInt
      | none => if x.state = 2 ∨ x.state = 3 then some x.angle.toInt else none
    let s := angle.elim s (fun a => emitAs k e 0xC8 a s)
    match givenWord given 0xC9, givenWord given 0xCA with
    | some v, some r =>
      let speed : Rat := (v.toInt : Rat) / 65536
      let model : Rat := (x.model : Rat) / 65536 + speedStep (torque q ((x.model : Rat) / 65536))
      let ok := plausible speed (if x.locked then model else speed) (r.toNat % 65536 : Nat)
      let x : Spin := { x with
        model := if ok ∨ ¬ x.locked then v.toInt else (model * 65536).floor
        bad := if ok ∨ ¬ x.locked then 0 else x.bad + 1
        badAt := if ok ∨ ¬ x.locked then x.badAt else s.time }
      let s := { s with spins := Tbl.upd k x s.spins }
      emitAs k e 0xCA ((r.toNat % 2 ^ 25 + b2n ok * 2 ^ 25 : Nat) : Int) (emitAs k e 0xC9 v.toInt s)
    | _, _ => { s with spins := Tbl.upd k x s.spins }
/-- When the rotor was last seen to turn, or asked of less than a quarter of the current limit, in OPEN, RAMP or RUN (R275). -/
def turnedAt (s : State) (k : Nat) (x : Spin) : Nat :=
  if x.state < 3 ∨ 5 < x.state ∨ ((s.out k 0xC4).getD 0).toInt < currentWord (currentLimit / 4 : Nat) ∨
      bitsOf ((s.out k 0xCA).getD 0).toNat 23 16 ≠ 0 then s.time
  else x.turned
/-- What a slot of engine 5 makes of the speed and the report of word 0xCA: the measured speed, and since when the observer matches, the
speed is settled (R262, R263, R271). -/
def spinObserve (s : State) (k : Nat) (v r : Word32) (x : Spin) : Spin :=
  let speed := v.toInt.natAbs
  let forced := forcedNow s k
  let far := ((speed : Int) - forced).natAbs * 20
  let off := (v.toInt - x.target * 65536).natAbs * 1000
  { x with
    speed := shownSpeed (speed / 65536), back := v.msb && decide (60 ≤ speed / 65536)
    matched := heldSince (decide (x.state = 3) && !v.msb && decide (far ≤ forced) && bitSet r.toNat 25) s.time x.matched
    near := heldSince (decide (x.state = 4) && decide (0 < x.target) && decide (off ≤ x.target * 65536)) s.time x.near }
/-- What passes in a slot without a command: a first failed start enters CATCH, and a re-catch whose checks have held for 2 ms RAMP, or
DECEL of a stop (R271, R273). -/
def spinPass (now : Nat) (x : Spin) : Spin :=
  if x.state = 8 ∧ x.leads = some 4 then { x with state := 1, leads := none, recatching := false }
  else if x.state = 1 ∧ x.recatching ∧ heldFor x.resumed now 2000000 ∧ x.badAt + 2000000 ≤ now then
    { x with state := if x.leads = some 0 then 6 else 4, near := none, recatching := false }
  else x
/-- A slot of engine 5 for the spindle. Its own ceiling, from channel 0x38, and the ceiling's effect are the speed loop's, once in ten
slots (R195, R266). -/
def spinSlot5 (k e : Nat) (given : List (Nat × List Int)) (s : State) : State :=
  let x := s.spin k
  if !x.valid then s
  else
    let was := x.target
    let x := match s.out k 0xC9 with
      | some v => spinObserve s k v ((s.out k 0xCA).getD 0) x
      | none => x
    let x := spinPass s.time { x with turned := turnedAt s k x }
    let x := if slotFirst s 5 / 16 % 10 ≠ 0 then x
      else
        let mv := ((Tbl.at (s.engine k e).inputs 0x38).toNat / 2 ^ 19 * 18000) / 4096
        let x : Spin := if given.any (fun g => g.1 == 0x38) then { x with own := ceilingOf mv } else x
        let c := min (s.cf k 0x4208 13 0) x.own
        followCeiling (min x.cmd c) (decide (0 < c)) was x
    let s := s.setSpin k x
    let step := if x.state = 3 then angleStep (forcedNow s k) else 0
    let demand := ((givenWord given 0xC4).getD 0).toInt
    emitAs k e 0xC5 ((x.state + 16 * (step % 2 ^ 28) : Nat) : Int) (emitAs k e 0xC4 (currentReference x demand) s)

/-! The end of a slot: telemetry and sp.stat (R98, R205, R214, R263). -/

/-- The state in sp.stat has changed: a READ or VERIFY holds outside RUN and may go on within it, a WRITE that has started raises write
inhibit (R254, R267, R349). The head's angle is not the model's: the time ahead is a free value. -/
def runChanged (k was : Nat) (s : State) : State :=
  let now := s.cf k 0x4200 3 0
  match s.front k with
  | some o =>
    if was = 5 ∧ now ≠ 5 then (if o.op = 2 then inhibitWrite k s else holdRead k o.head s)
    else if was ≠ 5 ∧ now = 5 ∧ o.heldAt.isSome then
      let n := s.freshNat
      resumeRead k n.1 n.2
    else s
  | none => s
/-- The status block of engine 5 is copied into sp.stat when it is valid (R263). -/
def copySpin (k e : Nat) (s : State) : State :=
  let b := fun off n => dmemNum (s.engine k e).r.dmem (0x7FC0 + off) n
  if b 0 1 ≠ 0xA5 then s
  else
    let was := s.cf k 0x4200 3 0
    let a := cAddr k 0x4200
    let w := b 1 1 % 16 + b 12 1 % 2 * 2 ^ 4 + b 8 2 % 2 ^ 14 * 2 ^ 8 + b 10 2 % 2 ^ 14 * 2 ^ 22 + b 4 2 * 2 ^ 36 +
      b 2 1 % 16 * 2 ^ 52 + b 3 1 % 16 * 2 ^ 56
    runChanged k was (s.setReg a (BitVec.ofNat 64 w))
/-- The telemetry copy at the end of a slot whose last frame is 7 modulo 8, and tseq after it (R214); with engine 5's,
sp.stat. -/
def copyTelemetry (k e l : Nat) (s : State) : State :=
  let x := s.engine k e
  match x.slotFrame with
  | none => s
  | some f =>
    if (f + slotLen l - 1) % 8 = 7 then
      let s := (s.poke (cAddr k (0x1_0800 + 0x1000 * l))
        ((List.range 0x800).map (fun i => Tbl.at x.r.dmem (0x7800 + i)))).setCf k (0x5300 + 8 * l) 31 0 f
      if l = 5 then copySpin k e s else s
    else s
/-- The end of a slot: supervision, telemetry, and the engine idles (R98, R205, R214, R624). -/
def endSlot (k e l : Nat) (s : State) : State :=
  let s := copyTelemetry k e l (takeSupervision k e l s)
  (s.modEngine k e (fun x => { x with inSlot := false, rep := none, sup := none })).count k (648 + l) 1
/-- SLOTEND ends the engine's work for the slot; one not completed by its limit is an engine fault (R98, R199,
R218). -/
def execSlotend (k e : Nat) (s : State) : Res :=
  .next (match logicalOf s k e with
    | none => s
    | some l =>
      if !loopAwake s k e then s
      else if slotLimit l < (s.engine k e).cyc + 1 then engineFault k e s
      else endSlot k e l (loopRun k e 1 true (fun x => x) s))

end Sys2Proof.Machine
end

