-- ==== Sys2Proof/Machine/RegWrite.lean ====
section
/-! DEFINITION. Stores to register pages (R7, R9, R10, R15, R85, R618): the fields by their access codes, the registers
whose store does something of its own, and the windows. -/

namespace Sys2Proof.Machine

/-! Access codes (R7). -/

/-- One field of a store: RW, RWR and RWB fields take the value, W1C fields clear where it is 1, RO and WO fields keep
theirs. -/
def storeField (v : Word) (w : Word) (f : Fld) : Word :=
  match f.acc with
  | .rw => putFld w f.hi f.lo (fld v f.hi f.lo)
  | .rwr => putFld w f.hi f.lo (fld v f.hi f.lo)
  | .rwb => putFld w f.hi f.lo (fld v f.hi f.lo)
  | .w1c => putFld w f.hi f.lo (fld (w &&& ~~~v) f.hi f.lo)
  | .ro => w
  | .wo => w
/-- A store by the access codes of the register's fields; an offset without a register ignores it (R7, R9, R618). The shadow
cost tables are RW but for what R467 reserves, bytes 316 to 1,023 of each (R9, R486). -/
def storeFields (fdie : Bool) (d off : Nat) (v : Word) (s : State) : State :=
  let a := pageAddr fdie d off
  if !fdie && decide (d = 0) && decide (0xB000 ≤ off) && decide (off < 0xC000) then
    let i := off % 0x400
    if i < 312 then s.setReg a v else if i = 312 then s.setReg a (v &&& 0xFFFF_FFFF) else s
  else
    match regRow fdie d off with
    | some r => s.setReg a (r.flds.foldl (storeField v) (s.reg a))
    | none => s
/-- Whether a register has protected fields (R85). -/
def guarded (fdie : Bool) (d off : Nat) : Bool :=
  match regRow fdie d off with
  | some r => r.flds.any (fun f => f.acc = .rwb)
  | none => !fdie && d == 0 && off == 0xE060

/-! Stores with an effect of their own. -/

/-- A store to sec.kcmd (R540, R549). -/
def kcmdStore (c : Nat) (v : Word) (s : State) : State := kcmd c (fld v 3 0) (fld v 17 16) (fld v 41 32) s
/-- A store to hr.lend: ops 1 to 4 (R578). -/
def lendStore (v : Word) (s : State) : State :=
  let op := fld v 2 0
  if op = 1 then lend (fld v 24 16) (fld v 47 32) s
  else if op = 2 then recallLoan (fld v 63 48) s
  else if op = 3 then returnLoan (fld v 24 16) (fld v 63 48) s
  else if op = 4 then writeOff (fld v 63 48) s
  else s
/-- A store to mc.map.dcmd of die d by core c (R377). -/
def dcmdStore (c d : Nat) (v : Word) (s : State) : State :=
  let cmd := fld v 2 0
  if cmd = 1 then fillDeltas c d s
  else if cmd = 2 then fillCheckpoint c d s
  else if cmd = 3 then beginLoad d s
  else if cmd = 4 then ingest c d s
  else if cmd = 5 then endLoad d s
  else s
/-- A store to fe.cal.cmd: codes 1 to 8 (R192). -/
def calStore (d : Nat) (v : Word) (s : State) : State :=
  let proc := fld v 3 0
  if 1 ≤ proc ∧ proc ≤ 8 then
    calStart d proc (if proc ≤ 6 then fld v 7 7 else 0) (if proc ≤ 2 then fld v 15 8 else 0) s
  else s
/-- A store to sec.fprog: whether the burn verifies is free (log entry 39). -/
def fprogStore (v : Word) (s : State) : State :=
  let n := s.freshNat
  fuseProgram (fld v 3 0) (decide (n.1 % 2 = 1)) n.2
/-- A store to a register of FIFO n (R396). -/
def fifoStore (c d n rel : Nat) (v : Word) (s : State) : State :=
  if rel = 0 then (if n < 8 ∧ c = 8 * d + n then tracePut c v s else s)
  else if rel = 8 then
    let s := storeFields false d (fifoBase n + 8) v s
    if flag v 0 then flushFifo d n s else s
  else if rel = 0x10 then fifoClear d n v s
  else if n = 8 then storeFields false d (fifoBase n + rel) v s
  else s
/-- A store to lp.eng[l].post: release, then post (R226). -/
def postStore (d l : Nat) (v : Word) (s : State) : State :=
  let s := if flag v 1 then holdRelease d l s else s
  if flag v 0 then paramPost d l s else s
/-- A store to rc.train[h] (R337, R338). -/
def trainStore (d h : Nat) (v : Word) (s : State) : State :=
  if flag v 0 then trainingStart d h (fld v 31 16) (fld v 15 12) (fld v 9 5) s
  else
    let en := s.cf d (0x6060 + 8 * h) 0 0
    trainingCancel d h ((storeFields false d (0x6060 + 8 * h) v s).setCf d (0x6060 + 8 * h) 0 0 en)
/-- A store to rc.wpll[h]: the loop, while it runs, takes its new bandwidth (R300). -/
def wpllStore (d h : Nat) (v : Word) (s : State) : State :=
  let s := storeFields false d (0x6020 + 8 * h) v s
  if (s.head d h).acquiring ∨ srvRdy s d h 3 3 = 1 then retune d h s else s
/-- A store to adm.job[i] by core c: only its own; go submits the request (R477, R486). -/
def jobStore (c off : Nat) (v : Word) (s : State) : State :=
  if (off - 0xA100) / 0x40 ≠ c then s
  else if (off - 0xA100) % 0x40 = 0x20 then (if flag v 0 then jobRequest c s else s)
  else storeFields false 0 off v s

/-- A store to rst.cwd[c]: a watchdog that was off runs from here (R600, R614). -/
def cwdStore (d i : Nat) (v : Word) (s : State) : State :=
  let off := 0x0280 + 8 * i
  let t := storeFields false d off v s
  if s.cf d off 15 0 = 0 then t.modCore (8 * d + i) (fun k => { k with kickAt := s.time }) else t
/-- A store to rst.cfg: a package watchdog that was off runs from here (R605, R614). -/
def rstCfgStore (v : Word) (s : State) : State :=
  let t := storeFields false 0 0x0210 v s
  if s.cf 0 0x0210 31 16 = 0 then packageKick t else t

/-- A store to a register of the lead C-die's page whose store has an effect of its own. -/
def leadStore (c off : Nat) (v : Word) (s : State) : Option State :=
  if off = 0x0208 then some (resetCtl c (fld v 63 48) (flag v 0) s)
  else if off = 0x0210 then some (rstCfgStore v s)
  else if off = 0x0218 then some (packageKick s)
  else if off = 0xA050 then some (costCommit (fld v 3 0) s)
  else if 0xA100 ≤ off ∧ off < 0xA900 then some (jobStore c off v s)
  else if off = 0xC018 then some (reconsider (storeFields false 0 off v s))
  else if off = 0xE008 then some (coreRelease (fld v 31 0) s)
  else if off = 0xE018 then some (svnBurn (fld v 13 8) s)
  else if off = 0xE030 then some (if flag v 0 then ensignClose s else s)
  else if off = 0xE048 then some (kcmdStore c v s)
  else if off = 0xE060 then some (fprogStore v s)
  else if off = 0xF038 then some (lendStore v s)
  else
    match inRun off 0xA030 4 with
    | some k => some (drainSubtract k (fld v 47 32) (fld v 31 0) s)
    | none => none
/-- A store to a register of a C-die's page whose store has an effect of its own. -/
def cdieStore (c d off : Nat) (v : Word) (s : State) : Option State :=
  if off = 0x0140 then some (if c / 8 = d then ringCore c (fld v 4 0) s else s)
  else if off = 0x02C0 then some (coreKick c s)
  else if off = 0x4000 then some (calStore d v s)
  else if off = 0x7218 then some (dcmdStore c d v s)
  else if off = 0x7228 then some (brecWrite d (fld v 24 0) s)
  else if 0x8000 ≤ off ∧ off < 0x8200 then some (fifoStore c d ((off - 0x8000) / 0x40) ((off - 0x8000) % 0x40) v s)
  else if 0x8400 ≤ off ∧ off < 0x8448 then some (fifoStore c d 8 (off - 0x8400) v s)
  else if off = 0x9010 then some (if flag v 4 then wayTestGo d (fld v 3 0) s else s)
  else if off = 0x9800 then some (rateWrite d (fld v 1 0) s)
  else if off = 0x9820 then some (if flag v 32 then bufTestGo c d (fld v 31 0) s else s)
  else
    match inRun off 0x0180 8, inRun off 0x01C0 8, inRun off 0x0308 8 with
    | some i, _, _ => some (if c = 8 * d + i then clearRings c (v.truncate 32) s else s)
    | _, some i, _ => some (if c = 8 * d + i ∧ flag v 32 then clearCer c s else s)
    | _, _, some i => some (if c = 8 * d + i then faultAck c (fld v 31 0) s else s)
    | none, none, none =>
      match inRun off 0x3100 60, inRun off 0x5280 8, inRun off 0x6060 2 with
      | some i, _, _ => some (minWrite d i (fld v 14 0) s)
      | _, some l, _ => some (postStore d l v s)
      | _, _, some h => some (trainStore d h v s)
      | none, none, none =>
        match inRun off 0x6020 2, inRun off 0x0280 8 with
        | some h, _ => some (wpllStore d h v s)
        | _, some i => some (cwdStore d i v s)
        | none, none => if d = 0 then leadStore c off v s else none
/-- A store to fe.srv.wi[h]: arm written 0 raises the head's write inhibit, and a running WRITE of the head ends with cstat
0x02 (R230, R349, R351). -/
def wiStore (d h : Nat) (v : Word) (s : State) : State :=
  let t := storeFields true d (0x2100 + 8 * h) v s
  if wiRaised s d h = false ∧ wiRaised t d h then inhibitWrites d h (t.count (4 + d) (4 + h) 1) else t
/-- A store to a register of an F-die's page whose store has an effect of its own. -/
def fdieStore (d off : Nat) (v : Word) (s : State) : Option State :=
  if 0x1000 ≤ off ∧ off < 0x2000 then
    let a := fAddr d off
    let t := calWritten d off (storeFields true d off v s)
    some ({ t with regs := s.regs }.setLater 500 a (t.reg a))
  else if off = 0x2030 then
    let a := fAddr d off
    some (s.setLater 4000 a ((storeFields true d off v s).reg a))
  else if off = 0x2018 then
    let t := s.setFf d 0x2018 2 1 (Nat.land (s.ff d 0x2018 2 1) (3 - fld v 2 1))
    some (gateEnable d (flag v 0) t)
  else if off = 0x2020 then some (bridgeEnable d (v.truncate 6) ((v >>> 8).truncate 8) s)
  else if off = 0x2040 then
    let t := s.setFf d 0x2040 3 2 (Nat.land (s.ff d 0x2040 3 2) (3 - fld v 3 2))
    some (safeWrite d (flag v 7) t)
  else
    match inRun off 0x2100 2, inRun off 0x2140 2, inRun off 0x2160 2 with
    | some h, _, _ => some (wiStore d h v s)
    | _, some _, _ => some (dropSafe d (storeFields true d off v s))
    | _, _, some h => let n := s.freshNat; some (clearWi d h (v.truncate 10) (BitVec.ofNat 10 n.1) n.2)
    | none, none, none => none

/-- What a doubleword store of core c does to a register, the protection apart. -/
def regStore (c : Nat) (fdie : Bool) (d off : Nat) (v : Word) (s : State) : State :=
  match (if fdie then fdieStore d off v s else cdieStore c d off v s) with
  | some t => t
  | none => storeFields fdie d off v s

/-! The windows (R213, R310, R337, R618, R619). -/

/-- Whether an operation that runs on die d has bank n selected, on rung 3 the alternative one too, and its head (R310, R330). -/
def bankUser (s : State) (d n : Nat) : Option Nat :=
  ((s.channel d).queue.find? (fun o => o.started && (decide (o.bank = some n) ||
    (decide (o.attempt.map Prod.fst = some 3) && decide (altBank s d o = n))))).map Chop.head
/-- Bytes of a window where every byte is stored but those that a block's layout reserves, which read as 0 (R9). -/
def pokeUnreserved (a : Nat) (reserved : Nat → Bool) (bs : List Byte) (s : State) : State :=
  ((List.range bs.length).zip bs).foldl (fun s e => if reserved (a + e.1) then s else memWrite (a + e.1) [e.2] s) s
/-- Bytes 1,632 to 2,039 and 2,043 of a bank are Reserved (R304). -/
def bankReserved (a : Nat) : Bool :=
  let i := a % 0x800
  (decide (1632 ≤ i) && decide (i < 2040)) || i == 2043
/-- A store to bank n: ignored while the bank is in use, which sets bwr; a training run on it is superseded (R310, R337). -/
def bankStore (d n off : Nat) (bs : List Byte) (s : State) : State :=
  match bankUser s d n with
  | some h => s.setCf d (0x6080 + 8 * h) 29 29 1
  | none =>
    let s := upTo 2 (fun h s => match (s.head d h).train with
      | some (b, _) => if b = n then trainingEnd d h 4 s else s
      | none => s) s
    pokeUnreserved (cAddr d off) bankReserved bs s
/-- A store of bytes to a window: telemetry is read only (R225). -/
def windowStore (d off : Nat) (bs : List Byte) (s : State) : State :=
  if off < 0x1_8000 then (if off % 0x1000 < 0x800 then memWrite (cAddr d off) bs s else s)
  else bankStore d ((off - 0x2_0000) / 0x800) off bs s

/-- REGISTER_WRITE: a doubleword store of core c to an offset of a page, a misaligned one raising cause 0x03, a register with
protected fields raising 0x0D below Boot level and after seal (R7, R10, R85, R653). -/
def execRegisterWrite (c : Nat) (own fdie : Bool) (d : Nat) (off : BitVec 20) (v : BitVec 64) (s : State) : Res :=
  .next (regAccess c .store own fdie d off.toNat (!inWindow fdie off.toNat && guarded fdie d off.toNat) (fun s =>
    if inWindow fdie off.toNat then windowStore d off.toNat (leBytes 8 v.toNat) s
    else regStore c fdie d off.toNat v s) s)

end Sys2Proof.Machine
end

