-- ==== Sys2Proof/Machine/LoadStore.lean ====
section
/-! DEFINITION. Loads, stores and atomics of the deck cores (R48, R57 to R59, R78, R88, R402, R415 to R420, R618, R653). -/

namespace Sys2Proof.Machine

/-- What an uncorrectable error tells its core: the memory it lies in, as cause 0x07 numbers them; of another memory the spec
gives no source, so that one is free (R71; log entry 36). -/
def errorSource (s : State) (key : Nat) : Nat × State :=
  if memKind key = 4 then s.freshNat else (memKind key, s)
/-- The event of an uncorrectable error at an access. -/
def errorEvent (cause : Nat) (a : Word) (key : Nat) (s : State) : Eff :=
  let r := errorSource s key
  .trap ⟨cause, a, BitVec.ofNat 64 r.1⟩ r.2

/-- What core c reads in a memory: its bytes, what is correctable corrected and reported, or the event of an uncorrectable
error (R416, R420). -/
def readMem (c : Nat) (load : Bool) (a : Word) (key n : Nat) (s : State) (done : List Byte → State → Eff) : Eff :=
  let s := reachMem c false load key n s
  if s.hasBad key n then errorEvent 8 a key s
  else done (s.bytes key n) (healRead (some c) key n s)

/-- LD: n bytes from ra + off, sign- or zero-extended into rd (R48, R57). -/
def load (c : Nat) (rd : BitVec 5) (a : Word) (n : Nat) (uns : Bool) (s : State) : Eff :=
  match accessFault s c .load a.toNat n with
  | some e => .trap e s
  | none =>
    let put := fun (bs : List Byte) (s : State) => Eff.done (s.modCore c (fun k => k.setR rd (extendLoad n uns (ofLe bs))))
    match locate s c a.toNat with
    | .rom off => put ((List.range n).map (fun i => Config.romByte (off + i))) s
    | .mem key => readMem c true a key n s put
    | .page fdie d off => put (pageBytes s fdie d off n) (pagePop c fdie d off s)
    | .absent => .trap ⟨0x0E, a, 1⟩ s
/-- LD of a deck core; a doubleword load with uns = 1 is illegal (R48). -/
def execLd (c : Nat) (rd ra : BitVec 5) (size : BitVec 2) (uns : Bool) (off : BitVec 13) (s : State) : Res :=
  .next (deckRun c true false (fun s =>
    let k := s.core c
    if size = 3 ∧ uns then .trap (illegal k (encM 0x18 rd ra size uns off)) s
    else load c rd (k.r ra + off64 off) (sizeBytes size) uns s) s)

/-- A store of bytes to a memory: into GDDR6 through the line, an aligned doubleword healing its word, a smaller one merged
unless the word is uncorrectable, which raises cause 0x09; into an SRAM byte by byte (R78, R415, R418). -/
def storeMem (c : Nat) (a : Word) (key : Nat) (bs : List Byte) (s : State) : Eff :=
  let s := reachMem c true false key bs.length s
  if memKind key = 3 then
    if bs.length = 8 then .done (memWrite key bs s)
    else if s.hasBad key bs.length then errorEvent 9 a key s
    else .done (memWrite key bs (healRead (some c) key bs.length s))
  else .done (memWrite key bs s)
/-- A store to a page: any size in the windows; to a register an aligned doubleword only, which raises cause 0x0D where the
register is protected (R10, R85, R618). A smaller store to a protected register below Boot level meets both: cause 0x0E comes
first, as R653 does not place 0x0D (log entry 119). -/
def storePage (c : Nat) (a : Word) (fdie : Bool) (d off : Nat) (bs : List Byte) (v : Word) (s : State) : Eff :=
  if inWindow fdie off then .done (windowStore d off bs s)
  else if !fdie && decide (0x1_0000 ≤ off) && decide (off < 0x3_0000) then .done s
  else if bs.length ≠ 8 then .trap ⟨0x0E, a, 2⟩ s
  else if guarded fdie d off && !(decide ((s.core c).level = .boot) && !s.sealed) then
    .trap ⟨0x0D, a, BitVec.ofNat 64 (b2n s.sealed)⟩ s
  else .done (regStore c fdie d off v s)
/-- ST: the low n bytes of v to an address (R48, R57). -/
def store (c : Nat) (a : Word) (n : Nat) (v : Word) (s : State) : Eff :=
  match accessFault s c .store a.toNat n with
  | some e => .trap e s
  | none =>
    let bs := leBytes n v.toNat
    match locate s c a.toNat with
    | .mem key => storeMem c a key bs s
    | .page fdie d off => storePage c a fdie d off bs v s
    | _ => .trap ⟨0x0E, a, 2⟩ s
/-- ST of a deck core. -/
def execSt (c : Nat) (rs ra : BitVec 5) (size : BitVec 2) (off : BitVec 13) (s : State) : Res :=
  .next (deckRun c true false (fun s =>
    let k := s.core c
    store c (k.r ra + off64 off) (sizeBytes size) (k.r rs) s) s)

/-- An atomic's arithmetic at its width (R58): the old value, as the low 32 bits or all 64. -/
def atomicNarrow (dbl : Bool) (x : Word) : Word := if dbl then x else x &&& 0xFFFF_FFFF
/-- An atomic read-modify-write at [ra] (R58, R59): `f` gives the value to store, or none, from the old value, at the
atomic's width; rd takes the old value, sign-extended. Its read meets errors as a load does, and then writes nothing. -/
def atomic (c : Nat) (rd ra : BitVec 5) (pred : BitVec 3) (pneg dbl : Bool) (f : Core → Word → Option Word) (s : State) :
    State :=
  deckRun c true false (fun s =>
    let k := s.core c
    if !k.execs pred pneg then .done s
    else
      let a := k.r ra
      let n := if dbl then 8 else 4
      match accessFault s c .atomic a.toNat n with
      | some e => .trap e s
      | none =>
        match locate s c a.toNat with
        | .mem key =>
          readMem c false a key n s (fun bs s =>
            let old := BitVec.ofNat 64 (ofLe bs)
            let s := s.modCore c (fun k => k.setR rd (extendLoad n false old.toNat))
            match f k old with
            | some v =>
              let s := if memKind key = 3 then markDirty key s else s
              .done (memWrite key (leBytes n v.toNat) s)
            | none => .done s)
        | _ => .trap ⟨0x0E, a, 3⟩ s) s
/-- AMOADD: mem := old + rb. The ordering that aq and rl give holds of a model that performs every access in order (R58,
R62; log entry 12). -/
def execAmoadd (c : Nat) (rd ra rb : BitVec 5) (pred : BitVec 3) (pneg : Bool) (dbl _aq _rl : Bool) (s : State) : Res :=
  .next (atomic c rd ra pred pneg dbl (fun k old => some (old + k.r rb)) s)
/-- AMOSWAP: mem := rb. -/
def execAmoswap (c : Nat) (rd ra rb : BitVec 5) (pred : BitVec 3) (pneg : Bool) (dbl _aq _rl : Bool) (s : State) : Res :=
  .next (atomic c rd ra pred pneg dbl (fun k _ => some (k.r rb)) s)
/-- AMOCAS: mem := rb where the old value equals rd's at the atomic's width. -/
def execAmocas (c : Nat) (rd ra rb : BitVec 5) (pred : BitVec 3) (pneg : Bool) (dbl _aq _rl : Bool) (s : State) : Res :=
  .next (atomic c rd ra pred pneg dbl (fun k old =>
    if old = atomicNarrow dbl (k.r rd) then some (k.r rb) else none) s)

end Sys2Proof.Machine
end

