-- ==== Sys2Proof/Machine/Thermal.lean ====
section
/-! DEFINITION. Power measurement, the thermal models, the throttle, STRUCK and the supplies (R491 to R516). Temperatures are
exact rationals in °C; a register shows one rounded down to 1/64 °C. -/

namespace Sys2Proof.Machine

/-- A die's thermal state. -/
def State.die (s : State) (d : Nat) : Therm := Tbl.at s.therm d
/-- Replaces it. -/
def State.setDie (s : State) (d : Nat) (t : Therm) : State := { s with therm := Tbl.upd d t s.therm }
/-- Address of an offset of the page of die d, numbered as for SNAPRD. -/
def dieAddr (d off : Nat) : Nat := if d < 4 then cAddr d off else fAddr (d - 4) off
/-- A field of a register of die d, and its write. -/
def State.df (s : State) (d off hi lo : Nat) : Nat := fld (s.reg (dieAddr d off)) hi lo
def State.setDf (s : State) (d off hi lo x : Nat) : State :=
  s.setReg (dieAddr d off) (putFld (s.reg (dieAddr d off)) hi lo x)
/-- A temperature in a field of 16 bits, 1/64 °C. -/
def tempField (x : Rat) : Nat := toField 16 (x * 64).floor
/-- The temperature a field holds. -/
def tempOf (v : Nat) : Rat := (fromField 16 v : Rat) / 64
/-- r[i] in K/W and c[i] in J/K of die d (R499, R516). -/
def thermR (s : State) (d i : Nat) : Rat := (s.df d (0xD040 + 8 * i) 31 16 : Rat) / 1000
def thermC (s : State) (d i : Nat) : Rat := (s.df d (0xD040 + 8 * i) 15 0 : Rat) / 1000
/-- The boundary temperature of die d. -/
def ambient (s : State) (d : Nat) : Rat := tempOf (s.df d 0xD008 15 0)
/-- A quotient by a coefficient; by 0, which R498 forbids firmware to choose, it is free. -/
def byCoeff (x y : Rat) : Rat := if y = 0 then Config.overZero x else x / y
/-- One step of the four nodes with heat power p over dt seconds (R498). -/
def thermStep (s : State) (d : Nat) (dt p : Rat) (t : List Rat) : List Rat :=
  let at_ := fun (i : Nat) => if i = 4 then ambient s d else t.getD i 0
  let q := fun (i : Nat) => if i = 0 then p else byCoeff (at_ (i - 1) - at_ i) (thermR s d (i - 1))
  (List.range 4).map (fun i => at_ i + byCoeff (dt * (q i - q (i + 1))) (thermC s d i))
/-- Heat power of a die over the last 100 µs, in W: every domain but F-die domain 6 (R497). -/
def heatPower (d : Nat) (e : List Nat) : Rat :=
  (((List.range 8).map (fun i => if 4 ≤ d ∧ i = 6 then 0 else e.getD i 0)).sum : Rat) / 100

/-- Every 100 µs a die's eight domain energies, in µJ, are counted, its power registers follow, and its model steps
(R494, R497, R498, R515, R516). -/
def execThermalModelStep (d : Nat) (energy : List Nat) (s : State) : Res :=
  .next (whileUp s (fun s =>
    if !dieExists s d then s
    else
      let e := (List.range 8).map (fun i => energy.getD i 0)
      let x := s.die d
      let hist := x.energy ++ [e]
      let hist := hist.drop (hist.length - 1000)
      let s := upTo 8 (fun i s =>
        let avg := (hist.map (fun r => r.getD i 0)).sum / hist.length
        ((s.count d (384 + i) (e.getD i 0)).setDf d (0xD100 + 8 * i) 15 0 (min 65535 (e.getD i 0))).setDf d
          (0xD100 + 8 * i) 31 16 (min 65535 avg)) s
      let t := thermStep s d (1 / 10000) (heatPower d e) x.t
      let s := s.setDie d { x with t := t, energy := hist }
      let s := upTo 4 (fun i s => s.setDf d (0xD020 + 8 * i) 15 0 (tempField (t.getD i 0 + x.off))) s
      s.setDf d 0xD000 39 24 (tempField (t.getD 0 0 + x.off))))

/-! Thresholds (R502 to R506). -/

/-- Advisory, throttle, shutdown and restart thresholds of a die (R502). -/
def thresholds (d : Nat) : Rat × Rat × Rat × Rat := if d < 4 then (90, 98, 108, 80) else (110, 118, 130, 100)
/-- tm.cfg's start fraction, step and floor as they act (R516). -/
def throttleStart (s : State) : Nat := min 64 (s.cf 0 0xD080 23 16)
def throttleStep (s : State) : Nat := max 1 (s.cf 0 0xD080 15 8)
def throttleFloor (s : State) : Nat := min (throttleStart s) (s.cf 0 0xD080 7 0)
/-- A throttle fraction takes effect: the pools are capped, requests reconsidered, and every core told the new Rh (R484,
R505, R506). -/
def setThrottle (f : Option Nat) (s : State) : State :=
  let s := { s with adm := { s.adm with throttle := f } }
  let s := s.setCf 0 0xC000 8 8 (b2n f.isSome)
  let s := { s with adm := { s.adm with heat := min s.adm.heat s.capHeat } }
  reconsider (noticeAll (if f.isSome then 4 else 5) s.rateHeat 0 s)
/-- The runs of a die after an evaluation that found temperature T (R504): its state and its counts; `thrHi` counts the
evaluations above throttle since the state was entered or the run was broken. -/
def runs (d : Nat) (T : Rat) (state : Nat) (x : Therm) : Nat × Therm :=
  let th := thresholds d
  let up := fun (n : Nat) (b : Bool) => if b then n + 1 else 0
  let advHi := up x.advHi (decide (th.1 < T))
  let advLo := up x.advLo (decide (T < th.1 - 3))
  let thrHi := up x.thrHi (decide (th.2.1 < T))
  let thrLo := up x.thrLo (decide (T < th.2.1 - 3))
  let entered := state ≠ 2 ∧ 4 ≤ thrHi
  let thr := decide (entered ∨ (state = 2 ∧ thrLo < 16))
  let adv := thr || decide ((state = 0 ∧ 4 ≤ advHi) ∨ (state ≠ 0 ∧ advLo < 16))
  (if thr then 2 else if adv then 1 else 0,
   { x with advHi := advHi, advLo := advLo, thrHi := if entered then 0 else thrHi, thrLo := thrLo
            inSet := x.inSet || decide entered
            cold := if T < -20 then x.cold + 1 else 0 })
/-- The present dies, numbered as for SNAPRD. -/
def State.dies (s : State) : List Nat := (List.range 8).filter (dieExists s)
/-- The throttle after an evaluation of die d (R506): lowered after 64 further evaluations above threshold, raised or left
when every throttled die has been below for 16. -/
def throttleMove (d : Nat) (s : State) : State :=
  match s.adm.throttle with
  | none => s
  | some f =>
    let x := s.die d
    if s.df d 0xD000 1 0 = 2 ∧ 64 ≤ x.thrHi then
      let s := s.setDie d { x with thrHi := 0 }
      let g := max (throttleFloor s) (f - throttleStep s)
      if g = f then s else setThrottle (some g) s
    else
      let set := s.dies.filter (fun e => (s.die e).inSet)
      if set.all (fun e => decide (16 ≤ (s.die e).thrLo)) then
        let s := set.foldl (fun s e => s.setDie e { s.die e with thrLo := 0 }) s
        if throttleStart s ≤ f then
          setThrottle none (set.foldl (fun s e => s.setDie e { s.die e with inSet := false }) s)
        else setThrottle (some (min (throttleStart s) (f + throttleStep s))) s
      else s
/-- A die's model is evaluated (R503 to R506). -/
def execThermalEvaluation (d : Nat) (s : State) : Res :=
  .next (whileUp s (fun s =>
    let x := s.die d
    if !dieExists s d || decide (s.time < x.evalAt) then s
    else
      let T := x.t.getD 0 0 + x.off
      let th := thresholds d
      let was := s.df d 0xD000 1 0
      let r := runs d T was x
      let intv := if T < th.2.1 - 6 then 0 else if T < th.2.2.1 - 4 then 1 else 2
      let next := if intv = 0 then 10000000 else if intv = 1 then 1000000 else 100000
      let s := s.setDie d { r.2 with evalAt := s.time + next }
      let s := (s.setDf d 0xD000 1 0 r.1).setDf d 0xD000 5 4 intv
      let s := if was = 0 ∧ r.1 ≠ 0 then noticeAll 6 d 0 s else s
      if was ≠ 2 ∧ r.1 = 2 ∧ s.adm.throttle.isNone then setThrottle (some (throttleStart s)) s
      else throttleMove d s))

/-! The hardware copy and STRUCK (R501, R507, R510). -/

/-- The package enters STRUCK on a trip of die d at temperature T (R507, R516). -/
def enterStruck (d : Nat) (T : Rat) (s : State) : State :=
  let s := enterReset 5 [] s
  let s := { s with rst := { s.rst with held := none, struck := some s.time } }
  let s := (s.setCf 0 0xD088 40 40 1).setCf 0 0xD088 39 32 (min 255 (s.cf 0 0xD088 39 32 + 1))
  ((s.setCf 0 0xD088 31 16 (tempField T)).setCf 0 0xD088 10 8 d).setCf 0 0xD088 7 0 1
/-- Every 100 µs a die's hardware copy steps and is evaluated: 16 evaluations more than 2 °C from the model are logged, 4
above the shutdown threshold trip (R501, R504). -/
def execHwModelEvaluation (d : Nat) (s : State) : Res :=
  .next (whileUp s (fun s =>
    if !dieExists s d then s
    else
      let x := s.die d
      let hw := thermStep s d (1 / 10000) (heatPower d (x.energy.getLastD [])) x.hw
      let T := hw.getD 0 0 + x.hwOff
      let gap := x.t.getD 0 0 + x.off - T
      let differ := if 2 < gap ∨ gap < -2 then x.differ + 1 else 0
      let hi := if (thresholds d).2.2.1 < T then x.hwHi + 1 else 0
      let s := s.setDie d { x with hw := hw, differ := differ, hwHi := hi }
      let s := s.setDf d 0xD000 55 40 (tempField T)
      let s := if differ = 16 then logFault 0x0030 d 0xFF (d % 4) 0xFF 1 s else s
      if 4 ≤ hi then enterStruck d T s else s))
/-- Every 100 ms in STRUCK the AON steps the copies with no heat, nodes 0 and 1 held equal to node 2, and tests the restart
conditions; a restart waits for the rails (R510). -/
def execStruckModelStep (s : State) : Res :=
  .next (match s.rst.struck with
    | none => s
    | some t0 =>
      let s := s.dies.foldl (fun s d =>
        let x := s.die d
        let n2 := x.hw.getD 2 0
        let t := thermStep s d (1 / 10) 0 [n2, n2, n2, x.hw.getD 3 0]
        s.setDie d { x with hw := [t.getD 2 0, t.getD 2 0, t.getD 2 0, t.getD 3 0] }) s
      if s.dies.all (fun d => decide ((s.die d).hw.getD 0 0 + (s.die d).hwOff < (thresholds d).2.2.2)) &&
          decide (t0 + 5000000000 ≤ s.time) && (List.range s.nslices).all (fun k => !(s.seq k).run) then
        { s with rst := { s.rst with struck := none, held := some 5 } }
      else s)
/-- One offset after a reading: a quarter of the difference, at most 0.5 °C, and ±16 °C in all (R500). -/
def moveOffset (off node1 diode : Rat) : Rat :=
  let step := max (-1 / 2) (min (1 / 2) ((diode - (node1 + off)) / 4))
  max (-16) (min 16 (off + step))
/-- Whether an offset reaches its limit by a move (R500). -/
def reachesLimit (was now : Rat) : Bool := (now == 16 && decide (was < 16)) || (now == -16 && decide (-16 < was))
/-- A die reads its diode, `value` in 1/64 °C, for its model and for the hardware copy, each with its own offset (R500, R501). At a STRUCK restart, before any deck core leaves reset, a diode at or
above the restart temperature returns the package to STRUCK (R510). -/
def execDiodeReading (d : Nat) (value : Int) (s : State) : Res :=
  .next (let v : Rat := value / 64
    if !dieExists s d then s
    else if s.rst.held = some 5 then
      (if (thresholds d).2.2.2 ≤ v then { s with rst := { s.rst with held := none, struck := some s.time } } else s)
    else whileUp s (fun s =>
      let x := s.die d
      let off := moveOffset x.off (x.t.getD 1 0) v
      let hwOff := moveOffset x.hwOff (x.hw.getD 1 0) v
      let s := s.setDie d { x with off := off, hwOff := hwOff, diode := v }
      let s := s.setDf d 0xD000 23 8 (tempField v)
      if reachesLimit x.off off || reachesLimit x.hwOff hwOff then logFault 0x0030 d 0xFF (d % 4) 0xFF 0 s else s))

/-- A correction c1 ΔT + c2 ΔT² ppm, c1 in 0.01 and c2 in 0.001 units (R185, R187, R516). -/
def correction (c1 c2 : Nat) (dT : Rat) : Rat :=
  (fromField 16 c1 : Rat) / 100 * dT + (fromField 16 c2 : Rat) / 1000 * dT * dT
/-- Every 100 µs each reference of a die moves one step of 10 ppm at most toward its correction (R187, R513). -/
def execReferenceCompensation (d : Nat) (s : State) : Res :=
  .next (whileUp s (fun s =>
    if !dieExists s d then s
    else
      let x := s.die d
      let dT := x.t.getD 0 0 + x.off - 25
      let base := if d < 4 then 0xD060 else 0x1B00
      let refs := (List.range (if d < 4 then 2 else 6)).foldl (fun (r : Tbl Int) i =>
        let want := correction (s.df d (base + 8 * i) 15 0) (s.df d (base + 8 * i) 31 16) dT
        let have_ := Tbl.at r i
        if 10 ≤ want - have_ then Tbl.upd i (have_ + 10) r
        else if want - have_ ≤ -10 then Tbl.upd i (have_ - 10) r
        else r) x.refs
      s.setDie d { x with refs := refs }))
/-- Each second the AON oscillator's correction follows the lead's modelled temperature, or its copy in STRUCK; while REFCLK
is present, which it is not in the controlled stop of its loss, the error measured against it, `err` in 0.001 ppm, is added (R36,
R512). -/
def execAonOscCorrection (err : Int) (s : State) : Res :=
  .next (let x := s.die 0
    let T := if s.rst.struck.isSome then x.hw.getD 0 0 + x.hwOff else x.t.getD 0 0 + x.off
    let ppm := correction (s.cf 0 0xD090 15 0) (s.cf 0 0xD090 31 16) (T - 25) +
      (if s.stopped && s.cf 0 0x0200 31 24 == 7 then 0 else (err : Rat) / 1000)
    { s with aon := { s.aon with oscPpm := ppm } })

/-! Supplies (R491, R493). -/

/-- VIN below 3.0 V for 100 µs: pm.sup.uv, and the slice's safety sequence (R491). -/
def execVinUndervoltage (k : Nat) (s : State) : Res :=
  .next (whileUp s (fun s => if k < s.nslices then triggerSafety k (s.setCf 0 0xD0A0 4 4 1) else s))
def execVinGlitch (s : State) : Res := .next (tamperEvent 1 s)
def execVbatGlitch (s : State) : Res := .next (tamperEvent 2 s)
/-- VBAT below 2.3 V for 1 s, at `mv` mV (R493, R609). -/
def execVbatLow (mv : BitVec 16) (s : State) : Res :=
  .next (whileUp s (fun s =>
    logFault 0x0031 0 0xFF 0 0 mv.toNat ((s.setCf 0 0xD0A0 1 1 1).setCf 0 0xD0A0 47 32 mv.toNat)))
/-- VBAT below 1.8 V while the AON domain runs from it: the next power-up trusts nothing retained (R493). -/
def execVbatLost (s : State) : Res := .next { s with aon := { s.aon with vbatLost := true } }
/-- In STRUCK, VDDQ leaves its range: GDDR6 contents will not count as kept (R507). -/
def execVddqOutOfRange (s : State) : Res :=
  .next (if s.rst.struck.isSome then s.setCf 0 0xD088 40 40 0 else s)

/-! Die links (R17 to R21). Links 0 to 3 are the slice links; link 4 + k joins C-dies k and k + 1, of four dies the last one C-die
3 and C-die 0. Direction 0 is toward the C-die, or up the chain. The spec numbers neither the directions nor the lanes (log
entry 96): toward the C-die lane b of 0 to 23 is the sample lane of beam b and 24 and 25 are the servo lanes; toward the F-die
lane g of 0 to 3 carries write symbols of the g-th group of six beams and 4 and 5 are the control lanes. -/

/-- Whether the part has a die link (R17). -/
def linkExists (s : State) (link : Nat) : Bool :=
  if link < 4 then decide (link < s.nslices)
  else decide (link - 3 < s.nslices) || (decide (s.nslices = 4) && decide (link = 7))
/-- Lanes of a direction of a link that carry traffic; the spare has the next number (R17). -/
def laneCount (link dir : Nat) : Nat := if 4 ≤ link then 16 else if dir = 0 then 26 else 6
/-- Lane `lane` of a direction of a link fails: its traffic moves to the spare, which is logged; a second lane of the
direction is a controlled stop with code 1. A failed sample lane loses its beam's samples while it moves; a failed write-symbol
lane raises its head's write inhibit; servo and control lanes are doubled, and a chain link replays (R18, R20, R21). -/
def execLaneFailure (link dir lane : Nat) (s : State) : Res :=
  .next (whileUp s (fun s =>
    let way := 2 * link + dir
    if 2 ≤ dir ∨ 8 ≤ link ∨ !linkExists s link ∨ laneCount link dir < lane ∨ s.rst.lanes.contains (way, lane) then s
    else if s.rst.lanes.any (fun e => e.1 == way) then controlledStop 1 s
    else
      let s := { s with rst := { s.rst with lanes := (way, lane) :: s.rst.lanes } }
      let s := if link < 4 ∧ dir = 0 ∧ lane < 24 then
          { s with rst := { s.rst with switching := (link, lane, s.time) :: s.rst.switching } }
        else if link < 4 ∧ dir = 1 ∧ lane < 4 then
          raiseWi link (lane / 2) 7 { s with rst := { s.rst with switching := (link, 64 + lane, s.time) :: s.rst.switching } }
        else s
      logFault 0x0010 (link % 4) 0xFF (link % 4) 0xFF (link + dir * 8 + lane * 16) s))
/-- A transfer that fails its CRC is replayed: delivered in order, it changes nothing (R19). -/
def execLinkCrcReplay (s : State) : Res := .next s

end Sys2Proof.Machine
end

