-- ==== Sys2Proof/Machine/Features.lean ====
section
/-! DEFINITION. The admin queue and the features (R427 to R429, R434, R435, R441 to R446, R484, R511). -/

namespace Sys2Proof.Machine

/-! The admin queue (R428, R435). -/

/-- Completes an admin command; an error joins the Error Information log (R447). -/
def adminDone (sqe : List Byte) (sct sc dw0 : Nat) (s : State) : State :=
  let q := (Tbl.at s.host.sqs 0).getD { size := 1, cqid := 0 }
  let c : Cqe := { cqid := 0, sqid := 0, cid := sqeCid sqe, sqhd := q.head, sct := sct, sc := sc, dw0 := dw0, dw1 := 0,
                   phase := false }
  postCqe c (if sct = 0 ∧ sc = 0 then s else logError c s)
/-- Sends data of an admin command to the host. -/
def adminData (sqe bs : List Byte) (s : State) : State :=
  { s with host := { s.host with sent := s.host.sent ++ [{ sqid := 0, cid := sqeCid sqe, data := bs }] } }
/-- Data and a successful completion. -/
def adminReply (sqe bs : List Byte) (s : State) : State := adminDone sqe 0 0 0 (adminData sqe bs s)

/-! Modes (R444, R484, R511). -/

/-- The power mode is set: a change that raises the budget is in force at once, one that lowers it waits for the commands and
jobs accepted before it; STRUCK recovery ends (R444, R484, R511). -/
def setMode (m : Nat) (s : State) : State :=
  let s := (s.setCf 0 0xC000 2 0 m).setCf 0 0xC000 10 10 0
  if s.modeRow < m then
    releaseMode ({ s with adm := { s.adm with modeWait := some s.adm.nextOrder } }.setCf 0 0xC000 9 9 1)
  else
    let was := s.modeRow
    let s := ({ s with adm := { s.adm with modeWait := none } }.setCf 0 0xC000 9 9 0).setCf 0 0xC000 6 4 m
    if was = m then s else reconsider (upTo s.nslices (fun k s => noticeAll 3 m k s) s)
/-- Dword 0 of a Get of feature 0xC1 (R444). -/
def modeDword (s : State) : Nat := s.modeSet + 2 ^ 8 * s.cf 0 0xC000 8 8 + 2 ^ 9 * s.cf 0 0xC000 10 10

/-! Features in the retained settings (R442, R590). -/

/-- A section as the retained SRAM holds it, when it is good there. -/
def savedSection (i : Nat) (s : State) : Option (List Byte) :=
  let own := s.bytes aonBase 0x6500
  if headerGood s.nslices own && sectionGood s.nslices i own then some ((own.drop (secOff i)).take (secLen s.nslices i))
  else none
/-- The bytes of section 3 that a value of a feature takes: its offset and length (R590). -/
def classPlace (fid i : Nat) : Nat × Nat :=
  if fid = 0xC0 then
    (if i < 8 then (16 * i, 4) else if i < 16 then (16 * (i - 8) + 4, 1) else (128 + (i - 17), 1))
  else if fid = 0xC2 then (256 + i, 1) else if fid = 0xC3 then (264 + i, 1) else if fid = 0xC4 then (272 + i, 1)
  else (276, 1)
/-- A saved feature value; the default when none is held. -/
def savedFeat (s : State) (fid i : Nat) : Nat :=
  match savedSection 3 s with
  | some bs => leAt bs (classPlace fid i).1 (classPlace fid i).2
  | none => featDefault (fid * 0x10000 + i)
/-- Writes the present values of a feature into the retained section 3 (R442). -/
def saveClass (fid : Nat) (is : List Nat) (s : State) : State :=
  let bs := (savedSection 3 s).getD (classSection { s with host := { s.host with feat := [] } })
  putSection 3 (is.foldl (fun b i =>
    let p := classPlace fid i
    b.take p.1 ++ leBytes p.2 (s.feat fid i) ++ b.drop (p.1 + p.2)) bs) s
/-- The bytes of section 1 from the registers (R590). -/
def modeSection (s : State) : List Byte :=
  padTo 128 (leBytes 8 s.modeSet ++
    (List.range 12).flatMap (fun i => leBytes 8 (s.reg (cAddr 0 (0xC100 + 8 * i))).toNat))
/-- Writes the mode set into the retained section 1 (R442). -/
def saveMode (s : State) : State :=
  let bs := (savedSection 1 s).getD (modeSection s)
  putSection 1 (leBytes 8 s.modeSet ++ bs.drop 8) s

/-! Set Features (R441 to R446). -/

/-- What a Set Features answers. -/
inductive SetAns where
  | fail (sct sc : Nat)
  | ok (dw0 : Nat) (s : State)

/-- The structure of feature 0xC0 keeps its rules (R443). -/
def classesOk (d : List Byte) : Bool :=
  d.length == 256 &&
  (List.range 8).all (fun c =>
    decide (100 ≤ leAt d (16 * c) 4) && decide (leAt d (16 * c) 4 ≤ 144000000) && decide (leAt d (16 * c + 4) 1 < 2) &&
    decide (leAt d (16 * c + 5) 11 = 0)) &&
  (List.range 128).all (fun q => decide (leAt d (128 + q) 1 < 8))
/-- Keys of feature 0xC0. -/
def classKeys : List Nat := List.range 16 ++ (List.range 128).map (· + 17)
/-- Feature 0xC0 takes its structure (R443). -/
def setClasses (d : List Byte) (s : State) : State :=
  classKeys.foldl (fun s i => s.setFeat 0xC0 i (leAt d (classPlace 0xC0 i).1 (classPlace 0xC0 i).2)) s
/-- The structure of feature 0xC0 from its values (R443). -/
def classesBytes (f : Nat → Nat) : List Byte :=
  (List.range 8).flatMap (fun c => leBytes 4 (f c) ++ leBytes 1 (f (8 + c)) ++ leBytes 11 0) ++
  (List.range 128).flatMap (fun q => leBytes 1 (f (17 + q)))

/-- Whether any I/O queue exists (R434). -/
def ioQueues (s : State) : Bool :=
  s.host.sqs.any (fun e => e.1 != 0 && e.2.isSome) || s.host.cqs.any (fun e => e.1 != 0 && e.2.isSome)

/-- Set Features of a vendor feature, with SV as `save` (R442 to R446). -/
def setVendor (fid v : Nat) (save : Bool) (d : List Byte) (s : State) : SetAns :=
  let keep := fun (is : List Nat) (s : State) => if save then saveClass fid is s else s
  if fid = 0xC0 then
    (if classesOk d then .ok 0 (keep classKeys (setClasses d s)) else .fail 0 0x02)
  else if fid = 0xC1 then
    (if 3 < v then .fail 0 0x02 else let s := setMode v s; .ok 0 (if save then saveMode s else s))
  else if fid = 0xC2 then
    (if v / 2 ^ 10 ≠ 0 ∨ bitsOf v 7 3 ≠ 0 ∨ 2 < bitsOf v 9 8 then .fail 0 0x02
     else .ok 0 (keep [v % 8] (s.setFeat 0xC2 (v % 8) (bitsOf v 9 8))))
  else if fid = 0xC3 then
    (if v / 2 ^ 11 ≠ 0 ∨ bitsOf v 7 3 ≠ 0 ∨ 6 < bitsOf v 10 8 then .fail 0 0x02
     else .ok 0 (keep [v % 8] (s.setFeat 0xC3 (v % 8) (bitsOf v 10 8))))
  else
    (if v / 2 ^ 10 ≠ 0 ∨ bitsOf v 7 2 ≠ 0 ∨ 2 < bitsOf v 9 8 ∨ s.nslices ≤ v % 4 then .fail 0 0x02
     else .ok 0 (keep [v % 4] (s.setFeat 0xC4 (v % 4) (bitsOf v 9 8))))

/-- Set Features of a standard feature (R434, R437, R441); the places of its fields are those of NVMe. -/
def setStandard (fid v : Nat) (d : List Byte) (s : State) : SetAns :=
  if fid = 0x01 then .ok 0 (s.setFeat 1 0 (v % 8))
  else if fid = 0x02 then (if 3 < v % 32 then .fail 0 0x02 else .ok 0 (setMode (v % 32) s))
  else if fid = 0x04 then
    (if 1 < bitsOf v 21 20 ∨ (bitsOf v 19 16 ≠ 0 ∧ bitsOf v 19 16 ≠ 15) then .fail 0 0x02
     else .ok 0 (s.setFeat 4 (bitsOf v 21 20) (v % 65536)))
  else if fid = 0x06 then .ok 0 (s.setFeat 6 0 (v % 2))
  else if fid = 0x07 then
    (if v % 65536 = 65535 ∨ v / 65536 = 65535 then .fail 0 0x02
     else if ioQueues s then .fail 0 0x0C
     else .ok (127 + 127 * 65536) s)
  else if fid = 0x08 then .ok 0 (s.setFeat 8 0 (v % 65536))
  else if fid = 0x09 then
    (if 128 < v % 65536 then .fail 0 0x02 else .ok 0 (s.setFeat 9 (v % 65536) (bitsOf v 16 16)))
  else if fid = 0x0A then .ok 0 (s.setFeat 0x0A 0 (v % 2))
  else if fid = 0x0B then .ok 0 (s.setFeat 0x0B 0 v)
  else if fid = 0x0E then
    let t := (leAt d 0 6 + 2 ^ 48 - s.time / 1000000 % 2 ^ 48) % 2 ^ 48
    .ok 0 { s with aon := { s.aon with rtc := some t }, host := { s.host with stamped := true } }
  else if fid = 0x19 then
    (if ioQueues s then .fail 0 0x0C
     else if 1 < v % 512 then .fail 0 0x02
     else .ok 0 (saveClass 0x19 [0] (s.setFeat 0x19 0 (v % 512))))
  else .fail 0 0x02

/-- Whether a feature is one of the vendor's, and whether it is supported at all (R441). -/
def vendorFeature (fid : Nat) : Bool := decide (0xC0 ≤ fid) && decide (fid ≤ 0xC4)
def knownFeature (fid : Nat) : Bool := [1, 2, 4, 6, 7, 8, 9, 0x0A, 0x0B, 0x0E, 0x19].contains fid || vendorFeature fid

/-- The admin command Set Features (R435, R441, R442): the identifier in CDW10 [7:0], SV in [31]; data is what the host
supplies. -/
def setFeatures (sqe data : List Byte) (s : State) : State :=
  let fid := cdw sqe 10 % 256
  let sv := bitSet (cdw sqe 10) 31
  if !knownFeature fid then adminDone sqe 0 0x02 0 s
  else if sv && !vendorFeature fid then adminDone sqe 1 0x0D 0 s
  else if (fid = 0xC0 ∨ fid = 0x0E) ∧ !pointerOk sqe then adminDone sqe 0 0x11 0 s
  else
    match (if vendorFeature fid then setVendor fid (cdw sqe 11) sv data s else setStandard fid (cdw sqe 11) data s) with
    | .fail sct sc => adminDone sqe sct sc 0 s
    | .ok dw0 t => adminDone sqe 0 0 dw0 t

/-! Get Features (R441 to R446). -/

/-- What a Get Features answers: a status, or Dword 0 and its data. -/
inductive GetAns where
  | fail (sct sc : Nat)
  | ok (dw0 : Nat) (data : List Byte)
  deriving DecidableEq, Repr

/-- A value of a feature as SEL asks: 0 current, 1 default, 2 saved (R442). -/
def selFeat (s : State) (sel fid i : Nat) : Nat :=
  if sel = 0 then s.feat fid i
  else if sel = 2 ∧ (vendorFeature fid ∨ fid = 0x19) then savedFeat s fid i
  else featDefault (fid * 0x10000 + i)

/-- Get Features, from the identifier, SEL and CDW11. -/
def getFeature (s : State) (fid sel v : Nat) : GetAns :=
  let f := selFeat s sel fid
  if !knownFeature fid ∨ 3 < sel then .fail 0 0x02
  else if sel = 3 then .ok (if vendorFeature fid then 5 else 4) []
  else if fid = 0xC0 then .ok 0 (classesBytes f)
  else if fid = 0x02 ∨ fid = 0xC1 then
    if sel = 0 then .ok (if fid = 0xC1 then modeDword s else s.modeSet) []
    else .ok (if sel = 2 then (match savedSection 1 s with
      | some bs => leAt bs 0 1 % 8
      | none => 0) else 0) []
  else if fid = 0xC2 ∨ fid = 0xC3 then (if 7 < v then .fail 0 0x02 else .ok (f v) [])
  else if fid = 0xC4 then
    (if s.nslices ≤ v then .fail 0 0x02
     else .ok (f v * 2 ^ 8 + (if sel = 0 then s.beamMode v * 2 ^ 12 else 0)) [])
  else if fid = 0x04 then (if 1 < bitsOf v 21 20 then .fail 0 0x02 else .ok (f (bitsOf v 21 20)) [])
  else if fid = 0x07 then .ok (127 + 127 * 65536) []
  else if fid = 0x09 then
    (if 128 < v % 65536 then .fail 0 0x02 else .ok (v % 65536 + 65536 * f (v % 65536)) [])
  else if fid = 0x0E then
    .ok 0 (leBytes 6 (if sel = 0 then s.rtcMs.getD 0 else 0) ++ leBytes 1 (if s.host.stamped ∧ sel = 0 then 2 else 0) ++
      leBytes 1 0)
  else .ok (f 0) []

/-- The admin command Get Features: SEL in CDW10 [10:8]. -/
def getFeatures (sqe : List Byte) (s : State) : State :=
  match getFeature s (cdw sqe 10 % 256) (bitsOf (cdw sqe 10) 10 8) (cdw sqe 11) with
  | .fail sct sc => adminDone sqe sct sc 0 s
  | .ok dw0 [] => adminDone sqe 0 0 dw0 s
  | .ok dw0 d => if pointerOk sqe then adminDone sqe 0 0 dw0 (adminData sqe d s) else adminDone sqe 0 0x11 0 s

end Sys2Proof.Machine
end

