-- ==== Sys2Proof/Machine/Logs.lean ====
section
/-! DEFINITION. Identify data and log pages (R424, R427 to R435, R438, R441, R447, R448, R457, R458, R487, R536, R611,
R626). Where the spec gives a value it stands at the place NVMe gives the field; every other byte is a free one of
`Config.nvmeByte` (log entry 32). -/

namespace Sys2Proof.Machine

/-- n bytes of a structure: the fields given, as offset and bytes, over free bytes. -/
def overlay (id sel n : Nat) (fields : List (Nat × List Byte)) : List Byte :=
  fields.foldl (fun b f => b.take f.1 ++ f.2 ++ b.drop (f.1 + f.2.length))
    ((List.range n).map (Config.nvmeByte id sel))

/-! Health (R447). -/

/-- Composite Temperature in K: the highest modelled die temperature, rounded to the nearest. -/
def compositeK (s : State) : Nat :=
  let ts := s.dies.map (fun d => (s.die d).t.getD 0 0 + (s.die d).off)
  ((ts.foldl max (-273)) + 273 + 1 / 2).floor.toNat
/-- Drives whose disc is loaded. -/
def loadedDrives (s : State) : List Nat := (List.range s.nslices).filter (fun k => decide (2 ≤ (s.map k).mstate))
/-- Available Spare: the least percentage of free map entries across loaded discs. -/
def availableSpare (s : State) : Nat :=
  ((loadedDrives s).map (fun k => 100 * (524288 - (s.map k).entries.length) / 524288)).foldl min 100
/-- Critical Warning: [0] spare below 10 %, [1] temperature at or past a threshold of feature 0x04, [3] a disc in
mstate 3. -/
def criticalWarning (s : State) : Nat :=
  b2n (decide (availableSpare s < 10)) +
  2 * b2n (decide (s.feat 4 0 ≤ compositeK s) || decide (compositeK s ≤ s.feat 4 1)) +
  8 * b2n ((loadedDrives s).any (fun k => decide ((s.map k).mstate = 3)))
/-- SMART events: one when the temperature or spare warning comes up (R459). -/
def healthEvents (s : State) : State :=
  let w := criticalWarning s
  let new := fun (i : Nat) => bitSet w i && !bitSet s.host.warned i
  let t := { s with host := { s.host with warned := w } }
  let t := if new 1 then raiseAsync 1 1 2 t else t
  if new 0 then raiseAsync 1 2 2 t else t

/-! Identify (R435). -/

/-- Blocks written of a drive: every block of a committed or lost user hoist, and the rest that hold a later version
(R432). -/
def blocksWritten (s : State) (k : Nat) : Nat :=
  let m := s.map k
  ((m.home.filter (fun e => decide (2 ≤ e.2))).map (fun e => min 30 (lbnCount - 30 * e.1))).sum +
  (((m.entries.map MapEntry.lbn).filter (fun l => decide (m.homeState (l / 30) < 2))).dedup).length

/-- Identify Controller, CNS 01h (R424, R427, R429, R431, R435, R436, R441, R447, R454, R456 to R458). -/
def identifyController (s : State) : List Byte :=
  overlay 0x01 0 4096 [
    (77, leBytes 1 9), (80, leBytes 4 0x0002_0000), (88, leBytes 4 20000000),
    (256, leBytes 2 4), (258, leBytes 1 3), (259, leBytes 1 7), (260, leBytes 1 0x16), (262, leBytes 1 63),
    (263, leBytes 1 3), (265, leBytes 1 0), (266, leBytes 2 363), (268, leBytes 2 371), (270, leBytes 2 20),
    (319, leBytes 1 1),
    (512, leBytes 1 0x66), (513, leBytes 1 0x44), (516, leBytes 4 s.nslices), (520, leBytes 2 0xD0), (525, leBytes 1 7),
    (526, leBytes 2 0), (528, leBytes 2 0),
    (2048, leBytes 2 7500), (2080, leBytes 2 4500), (2112, leBytes 2 2500), (2144, leBytes 2 400),
    (2152, leBytes 4 3000000)]
/-- Identify Namespace, CNS 00h (R431 to R433). -/
def identifyNamespace (s : State) (k : Nat) : List Byte :=
  let n := if (s.map k).mstate < 2 then 0 else lbnCount
  let used := if (s.map k).mstate < 2 then 0 else blocksWritten s k
  overlay 0x00 k 4096 [
    (0, leBytes 8 n), (8, leBytes 8 n), (16, leBytes 8 used), (25, leBytes 1 0), (26, leBytes 1 0), (27, leBytes 1 0),
    (28, leBytes 1 0), (29, leBytes 1 0), (99, leBytes 1 (b2n (decide ((s.map k).mstate = 3)))), (128, leBytes 4 0xC_0000)]
/-- The zoned namespace's structure, CNS 05h with CSI 2 (R438). -/
def identifyZoned (k : Nat) : List Byte :=
  overlay 0x05 k 4096 [(4, leBytes 4 63), (8, leBytes 4 63), (2816, leBytes 8 30720), (2824, leBytes 1 0)]
/-- A list of active namespaces above an identifier. -/
def namespaceList (s : State) (nsid : Nat) : List Byte :=
  padTo 4096 (((List.range s.nslices).filter (fun k => decide (nsid < k + 1))).flatMap (fun k => leBytes 4 (k + 1)))

/-- The data of an Identify: CNS, NSID and CSI; none with a status where it has none (R435). -/
def identifyData (s : State) (cns nsid csi : Nat) : Except Nat (List Byte) :=
  let k := nsid - 1
  let ns := fun (d : List Byte) => if nsid = 0 ∨ s.nslices ≤ k then Except.error 0x0B else Except.ok d
  if cns = 0x00 then ns (identifyNamespace s k)
  else if cns = 0x01 then .ok (identifyController s)
  else if cns = 0x02 then .ok (namespaceList s nsid)
  else if cns = 0x03 then ns (overlay 0x03 k 4096 [])
  else if cns = 0x05 then
    (if csi = 2 ∧ s.zoned then ns (identifyZoned k) else if csi = 0 then ns (List.replicate 4096 0) else .error 0x02)
  else if cns = 0x06 then
    (if csi = 2 then .ok (overlay 0x06 2 4096 [(0, leBytes 1 9)])
     else if csi = 0 then .ok (overlay 0x06 0 4096 []) else .error 0x02)
  else if cns = 0x07 then
    (if csi = 0 then .ok (if s.zoned then List.replicate 4096 0 else namespaceList s nsid)
     else if csi = 2 then .ok (if s.zoned then namespaceList s nsid else List.replicate 4096 0) else .error 0x02)
  else if cns = 0x08 then ns (overlay 0x08 k 4096 [(3, leBytes 1 (b2n (decide ((s.map k).mstate = 3))))])
  else if cns = 0x1C then .ok (padTo 4096 (leBytes 8 1 ++ leBytes 8 5))
  else .error 0x02

/-! Log pages (R447, R448). -/

/-- The Error Information log: 64 entries, newest first. -/
def errorPage (s : State) : List Byte :=
  let n := s.host.errorCount
  padTo 4096 (((List.range s.host.errors.length).zip s.host.errors.reverse).flatMap (fun e =>
    overlay 0x101 e.1 64 [(0, leBytes 8 (n - e.1)), (8, leBytes 2 e.2.sqid), (10, leBytes 2 e.2.cid),
      (12, leBytes 2 (2 * (e.2.sc + 2 ^ 8 * e.2.sct + 2 ^ 11 * e.2.more)))]))
/-- SMART / Health Information: what the device counts, in units of 1,000 512-byte blocks for the data units. -/
def smartPage (s : State) : List Byte :=
  let c := fun (i : Nat) => Tbl.at s.host.smart i
  overlay 0x102 0 512 [
    (0, leBytes 1 (criticalWarning s)), (1, leBytes 2 (compositeK s)), (3, leBytes 1 (availableSpare s)),
    (4, leBytes 1 10), (32, leBytes 16 (ceilDiv (8 * c 0) 1000)), (48, leBytes 16 (ceilDiv (8 * c 1) 1000)),
    (64, leBytes 16 (c 2)), (80, leBytes 16 (c 3)), (112, leBytes 16 (c 10)), (144, leBytes 16 (c 11)),
    (176, leBytes 16 s.host.errorCount)]
/-- Firmware Slot Information: the slot in force and the slot of the next reset; each slot's version (R457, R519). -/
def slotPage (s : State) : List Byte :=
  let next := match s.sec.trial with
    | some n => n + 1
    | none => 0
  padTo 512 (leBytes 1 (s.sec.runSlot + 1 + 16 * next) ++ leBytes 7 0 ++
    ((List.range 3).flatMap (fun n => padTo 8 ((slotImage s n).drop 20))))
/-- The Changed Namespace List. -/
def changedPage (s : State) : List Byte :=
  padTo 4096 ((sortBy (fun (a b : Nat) => decide (a < b)) s.host.changedNs).flatMap (fun n => leBytes 4 n))
/-- Commands Supported and Effects: which opcodes are supported (R435, R436). -/
def effectsPage (s : State) : List Byte :=
  let admin := [0, 1, 2, 4, 5, 6, 8, 9, 0x0A, 0x0C, 0x10, 0x11]
  let io := [0, 1, 2, 0x0C, 0x80] ++ (if s.zoned then [0x79, 0x7A, 0x7D] else [])
  let put := fun (base : Nat) (ops : List Nat) => (List.range 256).flatMap (fun o =>
    if ops.contains o then leBytes 1 (1 + 2 * ((Config.nvmeByte 0x105 base o).toNat / 2)) ++
      leBytes 3 (Config.nvmeByte 0x106 base o).toNat else leBytes 4 0)
  put 0 admin ++ put 1 io ++ List.replicate 2048 0
/-- The lowest and highest seq of a list of records. -/
def recordSeq (b : Option (List Byte)) : Nat :=
  match b with
  | some b => leAt b 8 8
  | none => 0
/-- Page 0xC0 (R536). -/
def ensignPage (s : State) : List Byte :=
  padTo 64 (leBytes 8 (recordSeq s.sec.history.head?) ++ leBytes 8 (recordSeq (lastRecord s)) ++
    leBytes 4 s.sec.ring.length ++ leBytes 1 (s.cf 0 0xE000 25 25 + 2 * s.cf 0 0xE000 24 24)) ++
  padTo 65536 s.sec.ring.flatten ++ s.sec.history.flatten
/-- The bytes of an overrun record (R487). -/
def Overrun.bytes (r : Overrun) : List Byte :=
  leBytes 8 r.time ++ leBytes 4 r.tag ++ leBytes 1 r.kind ++ leBytes 1 r.cls ++ leBytes 1 r.drive ++ leBytes 1 0 ++
  leBytes 4 r.cost ++ leBytes 4 r.service ++ leBytes 2 (min 65535 r.energy) ++ leBytes 2 (min 65535 (r.spent / 10000)) ++
  leBytes 4 0
/-- Page 0xC1 (R487): record number n lies at n mod 256. -/
def admissionPage (s : State) : List Byte :=
  let n := s.adm.overrunCount
  let m := s.adm.overruns.length
  padTo 64 (leBytes 8 s.time ++ leBytes 4 n ++
    leBytes 2 (s.liveSlots.filter (fun e => e.2.hasRange)).length ++ leBytes 2 s.adm.trackHigh ++
    leBytes 8 s.adm.jobsAccepted ++ leBytes 8 s.adm.jobsRefused) ++
  (List.range 8).flatMap (fun c =>
    let x := s.stat c
    [x.accepted, x.refused13, x.refused4, x.refused5, x.refused6, x.byFirmware, x.byGuard, x.overruns].flatMap
      (fun v => leBytes 8 v)) ++
  (List.range 256).flatMap (fun i =>
    match (List.range m).find? (fun j => (n - m + j) % 256 == i) with
    | some j => (s.adm.overruns.getD j ⟨0, 0, 0, 0, 0, 0, 0, 0, 0⟩).bytes
    | none => leBytes 32 0)
/-- Page 0xC2: the shadows of the last snapshot (R625, R626). -/
def snapPage (s : State) : List Byte :=
  let units := s.dies.flatMap (fun d => ((List.range 1024).filter (unitExists d)).map (fun u => (d, u)))
  padTo 64 (leBytes 4 s.snap.epoch ++ leBytes 4 units.length ++ leBytes 8 s.time) ++
  units.flatMap (fun e => shadowBytes s e.1 e.2)
/-- Page 0xC3 (R611). -/
def faultPage (s : State) : List Byte :=
  padTo 64 (leBytes 8 s.time ++ leBytes 4 s.flt.head ++ leBytes 4 s.flt.recs.length) ++ s.flt.bytes
/-- n registers from an offset of a page, 8 bytes each. -/
def regImage (s : State) (base n : Nat) : List Byte :=
  (List.range n).flatMap (fun i => leBytes 8 (s.reg (base + 8 * i)).toNat)
/-- Page 0xC4 of drive k (R448). -/
def calPage (s : State) (k : Nat) : List Byte :=
  regImage s (fAddr k 0x1000) 512 ++ s.bytes (cAddr k 0x2_0000) 65536 ++ regImage s (cAddr k 0x6100) 24 ++
  regImage s (cAddr k 0x7000) 32

/-- A log page; none with a status where there is none: Invalid Log Page, Invalid Namespace (R447, R448). -/
def logPage (s : State) (lid nsid : Nat) : Except (Nat × Nat) (List Byte) :=
  let ids := [0, 1, 2, 3, 4, 5, 0xC0, 0xC1, 0xC2, 0xC3, 0xC4]
  if lid = 0 then .ok ((List.range 256).flatMap (fun i => if ids.contains i then
    overlay 0x100 i 4 [(0, leBytes 1 (1 + 2 * ((Config.nvmeByte 0x100 i 0).toNat / 2)))] else leBytes 4 0))
  else if lid = 1 then .ok (errorPage s)
  else if lid = 2 then (if nsid = 0 ∨ nsid = 0xFFFF_FFFF then .ok (smartPage s) else .error (0, 0x02))
  else if lid = 3 then .ok (slotPage s)
  else if lid = 4 then .ok (changedPage s)
  else if lid = 5 then .ok (effectsPage s)
  else if lid = 0xC0 then .ok (ensignPage s)
  else if lid = 0xC1 then .ok (admissionPage s)
  else if lid = 0xC2 then .ok (snapPage s)
  else if lid = 0xC3 then .ok (faultPage s)
  else if lid = 0xC4 then
    (if nsid = 0 ∨ s.nslices < nsid then .error (0, 0x0B) else .ok (calPage s (nsid - 1)))
  else .error (1, 0x09)

/-- Length and offset that a Get Log Page asks for, in bytes. -/
def logLength (sqe : List Byte) : Nat := 4 * (cdw sqe 10 / 65536 + 65536 * (cdw sqe 11 % 65536) + 1)
def logOffset (sqe : List Byte) : Nat := cdw sqe 12 + 2 ^ 32 * cdw sqe 13
/-- The bytes a Get Log Page returns, or its status; an offset past the page's end or not a multiple of 4 is an invalid
field. -/
def logData (s : State) (sqe : List Byte) : Except (Nat × Nat) (List Byte) :=
  match logPage s (cdw sqe 10 % 256) (sqeNsid sqe) with
  | .error e => .error e
  | .ok p =>
    if logOffset sqe % 4 ≠ 0 ∨ p.length < logOffset sqe then .error (0, 0x02)
    else .ok ((p.drop (logOffset sqe)).take (logLength sqe))
/-- The host has read a log without Retain Asynchronous Event: its events are cleared, and their types report again
(R459); the Changed Namespace List is emptied. -/
def logRead (sqe : List Byte) (s : State) : State :=
  let lid := cdw sqe 10 % 256
  if bitSet (cdw sqe 10) 15 then s
  else pumpEvents { s with host := { s.host with
    masked := s.host.masked.filter (fun m => m % 256 != lid)
    events := s.host.events.filter (fun e => e.log != lid)
    changedNs := if lid = 4 then [] else s.host.changedNs } }

end Sys2Proof.Machine
end

