-- ==== Sys2Proof/Machine/Admin.lean ====
section
/-! DEFINITION. The admin commands and firmware activation (R435, R454, R457 to R459, R532). -/

namespace Sys2Proof.Machine

/-! Ending commands for the host (R454, R455). -/

/-- Ends the command of slot i as aborted with a generic status; whole blocks a Write has staged stay accepted (R430,
R440, R455, R475). -/
def abortSlot (sc i : Nat) (s : State) : State :=
  let x := s.slot i
  let s := if takesData x.opcode && decide (0 < x.staged) then stageWrite x.drive x.staged s else s
  endCommand i .aborted 0 sc 0 (versionDw s x.sqe) 0 s
/-- Ends every command of the host that p picks with Command Aborted due to SQ Deletion. -/
def abortAll (p : Slot → Bool) (s : State) : State :=
  releaseMode ((s.liveSlots.filter (fun e => !e.2.job && p e.2)).foldl (fun s e => abortSlot 0x08 e.1 s) s)

/-! Queues (R428, R435). -/

/-- Replaces the submission queues, or the completion queues. -/
def State.setSqs (s : State) (q : Tbl (Option SubQ)) : State := { s with host := { s.host with sqs := q } }
def State.setCqs (s : State) (q : Tbl (Option CompQ)) : State := { s with host := { s.host with cqs := q } }
/-- Queue identifier and size, one less than the entries, of a Create. -/
def createQid (sqe : List Byte) : Nat := cdw sqe 10 % 65536
def createSize (sqe : List Byte) : Nat := cdw sqe 10 / 65536

/-- Delete I/O Submission Queue: its commands end as at a controller reset (R435, R455). -/
def deleteSq (sqe : List Byte) (s : State) : State :=
  let y := createQid sqe
  if y = 0 ∨ (Tbl.at s.host.sqs y).isNone then adminDone sqe 1 0x01 0 s
  else
    let s := abortAll (fun x => x.sqid == y) s
    adminDone sqe 0 0 0 (s.setSqs (Tbl.upd y none s.host.sqs))
/-- Delete I/O Completion Queue. -/
def deleteCq (sqe : List Byte) (s : State) : State :=
  let y := createQid sqe
  if y = 0 ∨ (Tbl.at s.host.cqs y).isNone then adminDone sqe 1 0x01 0 s
  else if s.host.sqs.any (fun e => match e.2 with
      | some q => q.cqid == y
      | none => false) then adminDone sqe 1 0x0C 0 s
  else adminDone sqe 0 0 0 (s.setCqs (Tbl.upd y none s.host.cqs))
/-- Create I/O Submission Queue; QPRIO is ignored (R435). -/
def createSq (sqe : List Byte) (s : State) : State :=
  let y := createQid sqe
  let cq := cdw sqe 11 / 65536
  if y = 0 ∨ 128 < y ∨ (Tbl.at s.host.sqs y).isSome then adminDone sqe 1 0x01 0 s
  else if createSize sqe = 0 ∨ 4095 < createSize sqe then adminDone sqe 1 0x02 0 s
  else if cdw sqe 11 % 2 = 0 then adminDone sqe 0 0x02 0 s
  else if cq = 0 ∨ 128 < cq then adminDone sqe 1 0x01 0 s
  else if (Tbl.at s.host.cqs cq).isNone then adminDone sqe 1 0x00 0 s
  else adminDone sqe 0 0 0 (s.setSqs (Tbl.upd y (some { size := createSize sqe + 1, cqid := cq }) s.host.sqs))
/-- Create I/O Completion Queue. -/
def createCq (sqe : List Byte) (s : State) : State :=
  let y := createQid sqe
  let iv := cdw sqe 11 / 65536
  if y = 0 ∨ 128 < y ∨ (Tbl.at s.host.cqs y).isSome then adminDone sqe 1 0x01 0 s
  else if createSize sqe = 0 ∨ 4095 < createSize sqe then adminDone sqe 1 0x02 0 s
  else if cdw sqe 11 % 2 = 0 then adminDone sqe 0 0x02 0 s
  else if 128 < iv then adminDone sqe 1 0x08 0 s
  else adminDone sqe 0 0 0 (s.setCqs (Tbl.upd y
    (some { size := createSize sqe + 1, ien := bitSet (cdw sqe 11) 1, iv := iv }) s.host.cqs))

/-! Identify, log pages, Abort, events. -/

/-- Identify (R435). -/
def identify (sqe : List Byte) (s : State) : State :=
  if !pointerOk sqe then adminDone sqe 0 0x11 0 s
  else
    match identifyData s (cdw sqe 10 % 256) (sqeNsid sqe) (cdw sqe 11 / 2 ^ 24) with
    | .ok d => adminReply sqe d s
    | .error sc => adminDone sqe 0 sc 0 s
/-- Get Log Page (R447, R448). -/
def getLog (sqe : List Byte) (s : State) : State :=
  if !pointerOk sqe then adminDone sqe 0 0x11 0 s
  else
    match logData s sqe with
    | .ok d => logRead sqe (adminReply sqe d s)
    | .error e => adminDone sqe e.1 e.2 0 s
/-- Abort: a command accepted and not yet taken by a deck core ends with Command Abort Requested before the Abort completes
(R440, R454). -/
def abort (sqe : List Byte) (s : State) : State :=
  match s.liveSlots.find? (fun e => !e.2.job && e.2.sqid == cdw sqe 10 % 65536 && e.2.cid == cdw sqe 10 / 65536) with
  | some e =>
    if e.2.phase = .queued ∧ e.2.takenBy = none then
      adminDone sqe 0 0 0 (releaseMode (endCommand e.1 .aborted 0 0x07 0 (versionDw s e.2.sqe) 0 s))
    else adminDone sqe 0 0 1 s
  | none => adminDone sqe 0 0 1 s
/-- Asynchronous Event Request: held until an event is raised; the limit is that of AERL 7, which NVMe counts from 0
(R435, R459). -/
def asyncRequest (sqe : List Byte) (s : State) : State :=
  if 8 ≤ s.host.aers.length then adminDone sqe 1 0x05 0 s
  else pumpEvents { s with host := { s.host with aers := s.host.aers ++ [sqeCid sqe] } }

/-! Firmware (R457, R458, R520). -/

/-- Firmware Image Download: a part of 4 KiB units; one that overlaps another returns Overlapping Range (R457). -/
def download (sqe data : List Byte) (s : State) : State :=
  let n := 4 * (cdw sqe 10 + 1)
  let off := 4 * cdw sqe 11
  if !pointerOk sqe then adminDone sqe 0 0x11 0 s
  else if n % 4096 ≠ 0 ∨ off % 4096 ≠ 0 then adminDone sqe 0 0x02 0 s
  else if s.host.download.any (fun p => decide (p.off < off + n) && decide (off < p.off + p.data.length)) then
    adminDone sqe 1 0x14 0 s
  else adminDone sqe 0 0 0 { s with host := { s.host with
    download := s.host.download ++ [{ off := off, data := padTo n data }] } }
/-- The image that the downloaded parts make, from offset 0 up to the first gap. -/
def downloaded (s : State) : List Byte :=
  (sortBy (fun (a b : Download) => decide (a.off < b.off)) s.host.download).foldl (fun b p =>
    if b.length = p.off then b ++ p.data else b) []
/-- Whether an image may be activated without reset: it says so, and every component but the deck-core firmware has the
digest it has in the running image (R520). -/
def deckOnly (s : State) (img : List Byte) : Bool :=
  let rest := fun (i : List Byte) => ((imageComps i).filter (fun c => c.type != 2)).map (fun c => (c.type, c.digest))
  bitSet (leAt img 19 1) 0 && decide (rest img = rest s.sec.running)
/-- A slot takes an image. -/
def storeImage (n : Nat) (img : List Byte) (s : State) : State :=
  { s with sec := { s.sec with slots := Tbl.upd n img s.sec.slots }, host := { s.host with download := [] } }
/-- The slot a Commit names; 0 leaves the choice to the device, which takes the lowest slot neither active nor on trial
(log entry 33). -/
def commitSlot (s : State) (fs : Nat) : Option Nat :=
  if fs = 0 then [0, 1, 2].find? (fun n => n != s.sec.active && s.sec.trial != some n)
  else if fs ≤ 3 then some (fs - 1)
  else none
/-- The activation point of a Commit accepted now (R458). -/
def activationPoint (s : State) : Nat :=
  ((s.liveSlots.filter (fun e => !e.2.job)).map (fun e => e.2.d)).foldl max (s.time + 10000000)

/-- Firmware Commit: the slot in CDW10 [2:0], the action in [5:3] (R457, R458). Action 3 completes when the activation
does. -/
def commit (sqe : List Byte) (s : State) : State :=
  let ca := bitsOf (cdw sqe 10) 5 3
  let img := downloaded s
  if 3 < ca then adminDone sqe 0 0x02 0 s
  else
    match commitSlot s (cdw sqe 10 % 8) with
    | none => adminDone sqe 1 0x06 0 s
    | some n =>
      if ca = 2 then
        if cdw sqe 10 % 8 = 0 then adminDone sqe 1 0x06 0 s
        else if !imageValid s (slotImage s n) then adminDone sqe 1 0x07 0 s
        else adminDone sqe 0 0 0 { s with sec := { Secure.setControl s.sec.active (some n) s.sec with tried := false } }
      else if !imageValid s img then adminDone sqe 1 0x07 0 s
      else if ca = 3 then
        if s.host.activation.isSome then adminDone sqe 1 0x13 0 s
        else if !deckOnly s img then adminDone sqe 1 0x0B 0 (storeImage n img s)
        else
          let s := storeImage n img s
          let v : Activation :=
            { t := activationPoint s, cid := sqeCid sqe, slot := n, waits := s.liveSlots.any (fun e => !e.2.job)
              upto := s.adm.nextOrder }
          { s with host := { s.host with activation := some v } }
      else
        let s := storeImage n img s
        adminDone sqe 0 0 0 (if ca = 1 then
          { s with sec := { Secure.setControl s.sec.active (some n) s.sec with tried := false } } else s)

/-- Every released core restarts on the new deck-core firmware: at Supervisor level at its rst.cent, as R601 restarts a
core; the commands it holds return to their queue (R458; log entry 34). -/
def restartCores (s : State) : State :=
  upTo (8 * s.nslices) (fun c s =>
    if (s.core c).run = .inReset then s
    else ((redispatch c s).dropIcache c).modCore c (fun k => { k with
      run := .running, level := .supervisor, g := Vector.replicate 32 0, p := 1, status := 0, evmask := 0
      pc := BitVec.ofNat 64 (s.cf (c / 8) (0x0240 + 8 * (c % 8)) 39 2 * 4), kickAt := s.time })) s
/-- The activation point: at t, or once the commands it waited for have completed, the event is raised, the deck cores
restart and the activation record opens with its two entries (R458, R530, R532). -/
def activationStart (s : State) : State :=
  match s.host.activation with
  | none => s
  | some v =>
    if v.started ∨ (s.time < v.t ∧ (!v.waits ∨ s.liveSlots.any (fun e => !e.2.job && decide (e.2.order < v.upto)))) then s
    else
      let img := slotImage s v.slot
      let s := { s with host := { s.host with activation := some { v with t := s.time, started := true } } }
      let s := raiseAsync 2 1 3 s
      let s := s.setSec { s.sec with
        running := img, runSlot := v.slot, act := some { kind := 2, slot := v.slot, svn := imageSvn img, openedAt := s.time } }
      let s := addAct 0x0009 3 0 (Config.sha384 (img.take 128 ++ imageTable img)) s
      let s := addAct 0x000A 3 0 (Config.sha384 (compBytes 2 img)) s
      restartCores s
def execFirmwareActivationPoint (s : State) : Res :=
  .next (whileUp s (fun s => if s.stopped then s else activationStart s))
/-- The deck cores have restarted: the window ends and the Commit completes (R458). -/
def execFirmwareActivationComplete (s : State) : Res :=
  .next (whileUp s (fun s =>
    match s.host.activation with
    | none => s
    | some v =>
      if !v.started then s
      else complete 0 v.cid 0 0 0 0 { s with host := { s.host with activation := none } }))

/-! The commands. -/

/-- One admin command of any opcode; an unsupported opcode returns Invalid Command Opcode, a fused one Invalid Field
(R435). -/
def adminCommand (sqe data : List Byte) (s : State) : State :=
  let op := sqeOpcode sqe
  if leAt sqe 1 1 % 4 ≠ 0 then adminDone sqe 0 0x02 0 s
  else if op = 0x00 then deleteSq sqe s
  else if op = 0x04 then deleteCq sqe s
  else if op = 0x01 then createSq sqe s
  else if op = 0x05 then createCq sqe s
  else if op = 0x02 then getLog sqe s
  else if op = 0x06 then identify sqe s
  else if op = 0x08 then abort sqe s
  else if op = 0x09 then setFeatures sqe data s
  else if op = 0x0A then getFeatures sqe s
  else if op = 0x0C then asyncRequest sqe s
  else if op = 0x10 then commit sqe s
  else if op = 0x11 then download sqe data s
  else adminDone sqe 0 0x01 0 s
/-- The port fetches the next admin command, if a slot is free (R428). -/
def fetchAdmin (sqe data : List Byte) (fits : Bool) (s : State) : State :=
  if !fits ∨ (freeSlot s).isNone then s
  else
    match takeEntry 0 s with
    | some t => adminCommand sqe data t
    | none => s
/-- COMMAND_FETCH: whatever command the entry holds (R428). -/
def execCommandFetch (sqid : Nat) (sqe data : List Byte) (s : State) : Res :=
  .next (if sqid = 0 then fetchAdmin sqe data true s else fetchIo sqid sqe true s)
/-- An admin command whose entry holds an opcode. -/
def adminRow (op : Nat) (p : Bool) (sqe data : List Byte) (s : State) : Res :=
  .next (fetchAdmin sqe data (sqeOpcode sqe == op && p) s)
/-- Feature identifier, and commit action, of an entry. -/
def sqeFid (sqe : List Byte) : Nat := cdw sqe 10 % 256
def sqeAction (sqe : List Byte) : Nat := bitsOf (cdw sqe 10) 5 3
def execDeleteIoSq (sqe : List Byte) (s : State) : Res := adminRow 0x00 true sqe [] s
def execDeleteIoCq (sqe : List Byte) (s : State) : Res := adminRow 0x04 true sqe [] s
def execCreateIoSq (sqe : List Byte) (s : State) : Res := adminRow 0x01 true sqe [] s
def execCreateIoCq (sqe : List Byte) (s : State) : Res := adminRow 0x05 true sqe [] s
def execGetLogPage (sqe : List Byte) (s : State) : Res := adminRow 0x02 true sqe [] s
def execIdentify (sqe : List Byte) (s : State) : Res := adminRow 0x06 true sqe [] s
def execAbort (sqe : List Byte) (s : State) : Res := adminRow 0x08 true sqe [] s
/-- Set Features of a feature that has no row of its own. -/
def execSetFeatures (sqe : List Byte) (s : State) : Res :=
  adminRow 0x09 (!([0x02, 0x06, 0x0E, 0x19].contains (sqeFid sqe) || vendorFeature (sqeFid sqe))) sqe [] s
def execGetFeatures (sqe : List Byte) (s : State) : Res := adminRow 0x0A true sqe [] s
def execSetServiceClasses (sqe data : List Byte) (s : State) : Res := adminRow 0x09 (sqeFid sqe == 0xC0) sqe data s
def execSetPowerMode (sqe : List Byte) (s : State) : Res :=
  adminRow 0x09 (sqeFid sqe == 0xC1 || sqeFid sqe == 0x02) sqe [] s
def execSetVerifyPolicy (sqe : List Byte) (s : State) : Res := adminRow 0x09 (sqeFid sqe == 0xC2) sqe [] s
def execSetRetryDepth (sqe : List Byte) (s : State) : Res := adminRow 0x09 (sqeFid sqe == 0xC3) sqe [] s
def execSetBeamCount (sqe : List Byte) (s : State) : Res := adminRow 0x09 (sqeFid sqe == 0xC4) sqe [] s
def execSetIoCommandSetProfile (sqe : List Byte) (s : State) : Res := adminRow 0x09 (sqeFid sqe == 0x19) sqe [] s
def execSetTimestamp (sqe data : List Byte) (s : State) : Res := adminRow 0x09 (sqeFid sqe == 0x0E) sqe data s
def execSetVolatileWriteCache (sqe : List Byte) (s : State) : Res := adminRow 0x09 (sqeFid sqe == 0x06) sqe [] s
def execAsynchronousEventRequest (sqe : List Byte) (s : State) : Res := adminRow 0x0C true sqe [] s
def execFirmwareImageDownload (sqe data : List Byte) (s : State) : Res := adminRow 0x11 true sqe data s
def execFwCommitStore (sqe : List Byte) (s : State) : Res := adminRow 0x10 (sqeAction sqe == 0) sqe [] s
def execFwCommitStoreActivate (sqe : List Byte) (s : State) : Res := adminRow 0x10 (sqeAction sqe == 1) sqe [] s
def execFwCommitActivateSlot (sqe : List Byte) (s : State) : Res := adminRow 0x10 (sqeAction sqe == 2) sqe [] s
def execFwCommitActivateNow (sqe : List Byte) (s : State) : Res := adminRow 0x10 (sqeAction sqe == 3) sqe [] s

end Sys2Proof.Machine
end

