-- ==== Sys2Proof/Machine/Controller.lean ====
section
/-! DEFINITION. The controller: what BAR0 shows, enable, the resets the host causes, and shutdown (R424 to R427, R455, R456,
R586). -/

namespace Sys2Proof.Machine

/-! BAR0 (R425, R427): the table has no row for a read of it, so what it shows stands as a view. -/

/-- What lies at an offset of BAR0: a controller register, a doorbell, an entry of the MSI-X table, the pending bits, or
nothing (R425). -/
inductive BarPlace where
  | register (off : Nat)
  | sqTail (y : Nat)
  | cqHead (y : Nat)
  | msix (entry : Nat)
  | pending
  | nothing
  deriving DecidableEq, Repr
/-- The layout of the 64 KiB of BAR0 (R425). -/
def barPlace (off : Nat) : BarPlace :=
  if off < 0x1000 then .register off
  else if off < 0x1000 + 8 * 129 then
    (if (off - 0x1000) % 8 < 4 then .sqTail ((off - 0x1000) / 8) else .cqHead ((off - 0x1000) / 8))
  else if 0x8000 ≤ off ∧ off < 0x8000 + 16 * 129 then .msix ((off - 0x8000) / 16)
  else if 0xA000 ≤ off ∧ off < 0xA000 + 24 then .pending
  else .nothing
/-- CAP: MQES 4,095, CQR 1, AMS 0, TO 4, DSTRD 0, NSSRS 0, CSS with the NVM command set and the I/O command sets, MPSMIN 0,
MPSMAX 4, and 0 for BPS, PMRS and CMBS (R427). -/
def capWord : Nat := 4095 + 2 ^ 16 + 4 * 2 ^ 24 + (2 ^ 37 + 2 ^ 43) + 4 * 2 ^ 52
/-- VER (R427). -/
def verWord : Nat := 0x0002_0000
/-- The controller registers whose value the spec gives, at the offsets NVMe gives them; 0 elsewhere (R425, R427). -/
def controllerRegister (s : State) (off : Nat) : Nat :=
  if off = 0x00 then capWord % 2 ^ 32
  else if off = 0x04 then capWord / 2 ^ 32
  else if off = 0x08 then verWord
  else if off = 0x14 then s.host.cc.toNat
  else if off = 0x1C then s.host.csts.toNat
  else 0

/-- The NVMe registers at their reset values and every queue gone; requests outstanding in them end without completion
(R455). -/
def clearController (s : State) : State :=
  { s with host := { s.host with
    cc := 0, csts := 0, sqs := [], cqs := [], waiting := [], ordered := [], aers := [], masked := [], download := []
    fetching := true } }
/-- Whether the controller's registers can be reached: the link is up and the package runs. -/
def reachable (s : State) : Bool := s.host.linkUp && !s.down

/-- CC is written with EN = 1: with entry sizes other than 6 and 4 CSTS.CFS sets, which a controller reset clears; RDY sets once firmware has started the
host port, until when the write is held (R427, R586). `started` says that firmware has started it; the admin queues'
sizes are those of AQA. -/
def enable (cc : Nat) (asqs acqs : Nat) (started : Bool) (s : State) : State :=
  let s := { s with host := { s.host with started := s.host.started || started } }
  if bitsOf s.host.csts.toNat 1 0 ≠ 0 then s
  else
    let s := { s with host := { s.host with cc := BitVec.ofNat 32 cc } }
    if !bitSet cc 0 then s
    else if bitsOf cc 19 16 ≠ 6 ∨ bitsOf cc 23 20 ≠ 4 then { s with host := { s.host with csts := s.host.csts ||| 2 } }
    else if !s.host.started then s
    else { s with host := { s.host with
      csts := s.host.csts ||| 1, fetching := true
      sqs := Tbl.upd 0 (some { size := asqs + 1, cqid := 0 }) s.host.sqs
      cqs := Tbl.upd 0 (some { size := acqs + 1, ien := true }) s.host.cqs } }
def execControllerEnable (cc : BitVec 32) (asqs acqs : BitVec 12) (started : Bool) (s : State) : Res :=
  .next (if reachable s && !s.stopped then enable cc.toNat asqs.toNat acqs.toNat started s else s)

/-- CC.EN goes from 1 to 0: commands end with SQ Deletion before RDY clears; during a controlled stop it ends the stop
(R455, R607). -/
def execControllerReset (s : State) : Res :=
  .next (if reachable s && s.host.cc.getLsbD 0 then
      (if s.stopped then stopEnd s else clearController (abortAll (fun _ => true) s))
    else s)
/-- A reset of the function: its commands end, and no completion can be posted (R455). -/
def functionReset (s : State) : State :=
  if s.stopped then stopEnd s else abortAll (fun _ => true) (clearController s)
def execFunctionLevelReset (s : State) : Res := .next (if reachable s then functionReset s else s)
/-- A hot reset or a link that went down and came back, or with `perst` an assertion of PERST#, which keeps the link down
(R426, R455). -/
def execHotReset (perst : Bool) (s : State) : Res :=
  .next (let s := if perst then { s with host := { s.host with perst := true, linkUp := false } } else s
    whileUp s functionReset)
/-- PERST# is deasserted: the link becomes ready unless the boot found no valid slot, the package is in reset, or a loss of
REFCLK keeps it down (R426, R522, R606). -/
def execPerstDeassert (s : State) : Res :=
  .next (let s := { s with host := { s.host with perst := false } }
    whileUp s (fun s =>
      if s.sec.noSlot || (s.stopped && s.cf 0 0x0200 31 24 == 7) then s
      else { s with host := { s.host with linkUp := true } }))

/-- CSTS.SHST. -/
def setShst (v : Nat) (s : State) : State :=
  { s with host := { s.host with csts := BitVec.ofNat 32 (putBits s.host.csts.toNat 3 2 v) } }
/-- CC.SHN. -/
def setShn (v : Nat) (s : State) : State :=
  { s with host := { s.host with cc := BitVec.ofNat 32 (putBits s.host.cc.toNat 15 14 v) } }
/-- A normal shutdown is complete once every accepted command has completed and nothing staged is left (R456). -/
def shutdownTest (s : State) : State :=
  if bitsOf s.host.cc.toNat 15 14 = 1 ∧ bitsOf s.host.csts.toNat 3 2 = 1 ∧ s.liveSlots.all (fun e => e.2.job) ∧
      (List.range s.nslices).all (fun k => Tbl.at s.adm.stagedW k == 0) then setShst 2 s
  else s
/-- CC.SHN = 01b: fetching stops, and SHST reads 10b when the rest is done (R456). -/
def execNormalShutdown (s : State) : Res :=
  .next (if reachable s && s.host.csts.getLsbD 0 then
      shutdownTest (setShst 1 (setShn 1 { s with host := { s.host with fetching := false } }))
    else s)
/-- CC.SHN = 10b: SHST reads 10b at once, and what is staged and not durable is lost (R456). -/
def execAbruptShutdown (s : State) : Res :=
  .next (if reachable s && s.host.csts.getLsbD 0 then
      setShst 2 (setShn 2 { s with host := { s.host with fetching := false }
                                   adm := { s.adm with stagedW := [], stagedH := [] } })
    else s)

end Sys2Proof.Machine
end

