-- ==== Sys2Proof/Machine/Management.lean ====
section
/-! DEFINITION. The management transports: NVMe-MI, the Basic Management Command, MCTP and SPDM (R460, R461, R537). A
response joins `host.replies`: its code and its content; the framing that NVMe-MI, MCTP and SPDM give it is theirs
(log entry 35). -/

namespace Sys2Proof.Machine

/-- Sends a response over a transport, 0 PCIe, 1 SMBus. -/
def reply (tr code : Nat) (data : List Byte) (s : State) : State :=
  { s with host := { s.host with replies := s.host.replies ++ [⟨tr, code, data⟩] } }

/-! NVMe-MI over SMBus (R460): status 0 success, 3 Invalid Command Opcode, 4 Invalid Parameter. -/

/-- An NVMe-MI response, while the package runs; the link may be down. -/
def miReply (status : Nat) (data : List Byte) (s : State) : State := whileUp s (reply 1 status data)
def execReadNvmeMiDataStructure (dtyp port : BitVec 8) (s : State) : Res :=
  .next (miReply 0 (overlay (0x200 + dtyp.toNat) port.toNat 32 []) s)
/-- SMART warnings as management reports them, a 0 bit for each warning. -/
def smartWarnings (s : State) : Nat := 255 - criticalWarning s
def execSubsystemHealthStatusPoll (s : State) : Res :=
  .next (miReply 0 (overlay 0x210 0 8 [
    (0, leBytes 1 (0x30 + 8 * b2n s.host.linkUp)), (1, leBytes 1 (smartWarnings s)),
    (2, leBytes 1 (min 126 (compositeK s - 273)))]) s)
def execControllerHealthStatusPoll (s : State) : Res :=
  .next (miReply 0 (overlay 0x211 0 16 [
    (2, leBytes 2 (s.host.csts.toNat % 32)), (4, leBytes 2 (compositeK s)), (7, leBytes 1 (availableSpare s)),
    (8, leBytes 1 (criticalWarning s))]) s)
/-- Configuration Get: 1 SMBus frequency (1 for 100 kHz, 2 for 400 kHz), 3 the MCTP transmission unit. -/
def execConfigurationGet (id : BitVec 8) (s : State) : Res :=
  .next (if id = 1 then miReply 0 (leBytes 3 s.host.smbusFreq) s
    else if id = 3 then miReply 0 (leBytes 3 s.host.mctpUnit) s
    else miReply 4 [] s)
def execConfigurationSet (id : BitVec 8) (value : BitVec 16) (s : State) : Res :=
  .next (whileUp s (fun s =>
    if id = 1 ∧ (value = 1 ∨ value = 2) then
      miReply 0 [] { s with host := { s.host with smbusFreq := value.toNat } }
    else if id = 3 ∧ 64 ≤ value.toNat ∧ value.toNat ≤ 256 then
      miReply 0 [] { s with host := { s.host with mctpUnit := value.toNat } }
    else miReply 4 [] s))
def execVpdRead (off len : BitVec 16) (s : State) : Res :=
  .next (miReply 0 ((List.range len.toNat).map (fun i => Config.nvmeByte 0x220 0 (off.toNat + i))) s)
/-- A tunnelled Identify, Get Log Page or Get Features; any other opcode is refused. -/
def execTunnelledAdminCommand (sqe : List Byte) (s : State) : Res :=
  .next (if sqeOpcode sqe = 0x06 then
      (match identifyData s (cdw sqe 10 % 256) (sqeNsid sqe) (cdw sqe 11 / 2 ^ 24) with
       | .ok d => miReply 0 d s
       | .error _ => miReply 4 [] s)
    else if sqeOpcode sqe = 0x02 then
      (match logData s sqe with
       | .ok d => miReply 0 d s
       | .error _ => miReply 4 [] s)
    else if sqeOpcode sqe = 0x0A then
      (match getFeature s (sqeFid sqe) (bitsOf (cdw sqe 10) 10 8) (cdw sqe 11) with
       | .ok dw0 d => miReply 0 (leBytes 4 dw0 ++ d) s
       | .fail _ _ => miReply 4 [] s)
    else miReply 3 [] s)
/-- The Basic Management Command: SMART warnings and the composite temperature among its bytes. -/
def execBasicManagementCommand (s : State) : Res :=
  .next (miReply 0 (overlay 0x230 0 8 [
    (0, leBytes 1 6), (2, leBytes 1 (smartWarnings s)), (3, leBytes 1 (min 126 (compositeK s - 273)))]) s)
/-- MCTP Set Endpoint ID (R461). -/
def execSetEndpointId (eid : BitVec 8) (s : State) : Res :=
  .next (whileUp s (fun s => { s with host := { s.host with eid := eid.toNat } }))

/-! SPDM (R461, R537). -/

/-- A transport's connection. -/
def State.conn (s : State) (tr : Nat) : Spdm := Tbl.at s.host.spdm tr
/-- Replaces it. -/
def State.setConn (s : State) (tr : Nat) (x : Spdm) : State :=
  { s with host := { s.host with spdm := Tbl.upd tr x s.host.spdm } }
/-- An error response: a request out of turn or with a field out of range. -/
def spdmError (tr : Nat) (s : State) : State := reply tr 0x7F [] s
/-- One request at its turn: the connection's phase is at least `least`, and what answers it. -/
def spdm (tr least : Nat) (body : Spdm → State → State) (s : State) : State :=
  whileUp s (fun s =>
    if 2 ≤ tr then s
    else if (s.conn tr).phase < least then spdmError tr s
    else body (s.conn tr) s)

/-- The Alias private key of the running image, and the certificate chain of slot 0: Nimholt's certificates and
DeviceID's, then Alias's with its TcbInfo (R525, R537). -/
def aliasPrivate (s : State) : List Byte :=
  aliasKey (Config.sha384 (compBytes 1 s.sec.running)) (imageSvn s.sec.running) s.sec.fuse
/-- The serial number of the Alias certificate: the first 20 bytes of the SHA-384 of its key, bit 7 of the first clear (R525). -/
def aliasSerial (s : State) : List Byte :=
  match (Config.sha384 (Config.pubKey (aliasPrivate s))).take 20 with
  | b :: rest => (b &&& 0x7F) :: rest
  | [] => []
def certChain (s : State) : List Byte :=
  Config.certificates ++ Config.certificate deviceKey (Config.pubKey (aliasPrivate s)) (aliasSerial s)
    (Config.sha384 (compBytes 1 s.sec.running) ++ leBytes 4 (imageSvn s.sec.running) ++ s.sec.fuse) s.sec.issued

/-- GET_VERSION starts a connection: versions 1.1 and 1.2. -/
def execGetVersion (tr : Nat) (req : List Byte) (s : State) : Res :=
  .next (spdm tr 0 (fun _ s =>
    let d := [0x00, 0x11, 0x00, 0x12].map (fun (x : Nat) => BitVec.ofNat 8 x)
    reply tr 0x04 d (s.setConn tr { phase := 1, auth := req ++ d })) s)
/-- GET_CAPABILITIES: CERT_CAP, CHAL_CAP, MEAS_CAP with signature. -/
def execGetCapabilities (tr : Nat) (req : List Byte) (s : State) : Res :=
  .next (spdm tr 1 (fun x s =>
    if x.phase ≠ 1 then spdmError tr s
    else
      let d := leBytes 4 (2 + 4 + 0x10)
      reply tr 0x61 d (s.setConn tr { x with phase := 2, auth := x.auth ++ req ++ d })) s)
/-- NEGOTIATE_ALGORITHMS: ECDSA P-384 and SHA-384, for the measurements too. -/
def execNegotiateAlgorithms (tr : Nat) (req : List Byte) (s : State) : Res :=
  .next (spdm tr 2 (fun x s =>
    if x.phase ≠ 2 then spdmError tr s
    else
      let d := leBytes 4 0x04 ++ leBytes 4 0x80 ++ leBytes 4 0x02
      reply tr 0x63 d (s.setConn tr { x with phase := 3, auth := x.auth ++ req ++ d })) s)
/-- GET_DIGESTS: the digest of slot 0's chain. -/
def execGetDigests (tr : Nat) (req : List Byte) (s : State) : Res :=
  .next (spdm tr 3 (fun x s =>
    let d := Config.sha384 (certChain s)
    reply tr 0x01 d (s.setConn tr { x with auth := x.auth ++ req ++ d })) s)
/-- GET_CERTIFICATE: a portion of slot 0's chain; no other slot is supported. -/
def execGetCertificate (tr : Nat) (req : List Byte) (slot off len : BitVec 16) (s : State) : Res :=
  .next (spdm tr 3 (fun x s =>
    if slot ≠ 0 then spdmError tr s
    else
      let d := ((certChain s).drop off.toNat).take len.toNat
      reply tr 0x02 d (s.setConn tr { x with auth := x.auth ++ req ++ d })) s)
/-- Measurement block i (R537). -/
def measBlock (s : State) (i : Nat) : List Byte :=
  let img := s.sec.running
  if i = 1 then Config.sha384 ((List.range 0x4_0000).map Config.romByte)
  else if i = 2 then Config.sha384 (compBytes 1 img)
  else if i = 3 then Config.sha384 (compBytes 2 img)
  else if i = 4 then Config.sha384 (((imageComps img).filter (fun c => c.type == 3)).flatMap Comp.digest)
  else if i = 5 then padTo 48 s.sec.setup
  else if i = 6 then s.sec.fuse
  else (match lastRecord s with
    | some b => Config.sha384 b
    | none => leBytes 48 0)
/-- CHALLENGE for slot 0, signed by the Alias key over the exchange. -/
def execChallenge (tr : Nat) (req : List Byte) (slot : BitVec 8) (s : State) : Res :=
  .next (spdm tr 3 (fun x s =>
    if slot ≠ 0 then spdmError tr s
    else
      let d := Config.sha384 (certChain s) ++ (List.range 32).map (Config.drbg s.free)
      let sig := Config.sign (aliasPrivate s) (x.auth ++ req ++ d)
      reply tr 0x03 (d ++ sig) ({ s with free := s.free + 1 }.setConn tr { x with auth := [] })) s)
/-- GET_MEASUREMENTS: index 0 the number of blocks, 1 to 7 one block, 0xFF all; signed by the Alias key when asked
(R537). -/
def execGetMeasurements (tr : Nat) (req : List Byte) (index : BitVec 8) (signed : Bool) (s : State) : Res :=
  .next (spdm tr 3 (fun x s =>
    let n := index.toNat
    if 7 < n ∧ n ≠ 0xFF then spdmError tr s
    else
      let is := if n = 0 then [] else if n = 0xFF then [1, 2, 3, 4, 5, 6, 7] else [n]
      let d := leBytes 1 (if n = 0 then 7 else is.length) ++ is.flatMap (fun i => leBytes 1 i ++ measBlock s i) ++
        (List.range 32).map (Config.drbg s.free)
      let m := x.meas ++ req ++ d
      let s := { s with free := s.free + 1 }
      if signed then reply tr 0x60 (d ++ Config.sign (aliasPrivate s) m) (s.setConn tr { x with meas := [] })
      else reply tr 0x60 d (s.setConn tr { x with meas := m })) s)

end Sys2Proof.Machine
end

