-- ==== Sys2Proof/Machine/Stepper.lean ====
section
/-! DEFINITION. The sled and aberration steppers (R277 to R290): the profiles, commands, moves, amplitudes, stalls and homing that every
program on engine 5 must carry out, and the tracking programs' part in moving a sled (R240, R241, R244, R247). Axes 0 and 1 are the
sleds of heads 0 and 1, axes 2 and 3 their aberration correctors. -/

namespace Sys2Proof.Machine

/-! Profiles (R282, R285; log entry 133). -/

/-- Of bits up to b, those of the largest number whose power n is at most x. -/
def rootBits (n x : Nat) : Nat → Nat → Nat
  | 0, r => r
  | b + 1, r => rootBits n x b (if (r + 2 ^ b) ^ n ≤ x then r + 2 ^ b else r)
/-- The least number below 2^50 whose power n is at least x. -/
def rootCeil (n x : Nat) : Nat := let r := rootBits n x 50 0; if r ^ n < x then r + 1 else r
/-- How long speed v is reached or left with acceleration a and jerk j, ns: the part at full jerk, and that between two of them
(R282). -/
def rampTimes (v a j : Nat) : Nat × Nat :=
  if a * a ≤ v * j then (ceilDiv (1000000000 * a) j, ceilDiv (1000000000 * (v * j - a * a)) (a * j))
  else (ceilDiv (1000000000 * (v * j + a * a)) (2 * a * j), 0)
/-- Times of a move of d microsteps from rest to rest, ns: each part at full jerk, each at full acceleration, and that at full speed
(R282). -/
def moveTimes (d v a j : Nat) : Nat × Nat × Nat :=
  if v * (v * j + a * a) ≤ d * (a * j) then
    let r := rampTimes v a j
    (r.1, r.2, ceilDiv (1000000000 * d) v - (2 * r.1 + r.2))
  else if 2 * a * a * a ≤ d * (j * j) then
    let full := ceilDiv (1000000000 * a) j
    let both := rootCeil 2 (full * full + 4 * d * 1000000000000000000 / a)
    (full, (both - full) / 2 + 1 - full, 0)
  else (rootCeil 3 (d * 1000000000000000000000000000 / (2 * j) + 1), 0, 0)
/-- The pieces of a move over a distance from rest to rest; its jerk is that which its times need. -/
def moveSegs (d : Rat) (v a j : Nat) : List Seg :=
  let t := moveTimes (ratAbs d).ceil.toNat v a j
  let x : Rat := d * 1000000000000000000000000000 / (t.1 * (t.1 + t.2.1) * (2 * t.1 + t.2.1 + t.2.2) : Nat)
  if d = 0 then [] else [⟨t.1, x⟩, ⟨t.2.1, 0⟩, ⟨t.1, -x⟩, ⟨t.2.2, 0⟩, ⟨t.1, -x⟩, ⟨t.2.1, 0⟩, ⟨t.1, x⟩]
/-- Position, speed and acceleration after a time, ns, at a jerk. -/
def moveOn (m : Rat × Rat × Rat) (jerk : Rat) (ns : Nat) : Rat × Rat × Rat :=
  let t : Rat := (ns : Rat) / 1000000000
  (m.1 + m.2.1 * t + m.2.2 * t * t / 2 + jerk * t * t * t / 6, m.2.1 + m.2.2 * t + jerk * t * t / 2, m.2.2 + jerk * t)
/-- The same through the pieces of a profile; at rest after its end. -/
def moveThrough (m : Rat × Rat × Rat) : List Seg → Nat → Rat × Rat × Rat
  | [], _ => (m.1, 0, 0)
  | g :: l, ns => if ns < g.ns then moveOn m g.jerk ns else moveThrough (moveOn m g.jerk g.ns) l (ns - g.ns)
/-- How long an axis's profile lasts, ns. -/
def Axis.lasts (x : Axis) : Nat := (x.segs.map Seg.ns).sum
/-- Where an axis's profile has it now: position, speed, acceleration. -/
def Axis.motion (x : Axis) : Rat × Rat × Rat :=
  if x.segs = [] then (x.pos, 0, 0) else moveThrough (x.p0, x.v0, x.a0) x.segs (x.clock * 20000)
/-- Whether an axis's profile has reached its end (R282). -/
def Axis.arrived (x : Axis) : Bool := decide (x.lasts ≤ x.clock * 20000)
/-- The nearest microstep to a position. -/
def nearest (p : Rat) : Int := (p + 1 / 2).floor
/-- Pieces that bring an axis at a speed and acceleration to rest, within acceleration a and jerk j: its acceleration goes to 0, then
its speed. -/
def stopSegs (v acc : Rat) (a j : Nat) : List Seg :=
  let t := (ratAbs acc * 1000000000 / (j : Rat)).ceil.toNat
  let j1 : Rat := if t = 0 then 0 else -(acc * 1000000000) / (t : Rat)
  let v1 := (moveOn (0, v, acc) j1 t).2.1
  let m := (ratAbs v1).ceil.toNat
  let r : Nat × Nat := if a * a ≤ m * j then rampTimes m a j else (rootCeil 2 (m * 1000000000000000000 / j + 1), 0)
  let den := r.1 * (r.1 + r.2)
  let j2 : Rat := if den = 0 then 0 else v1 * 1000000000000000000 / (den : Nat)
  [⟨t, j1⟩, ⟨r.1, -j2⟩, ⟨r.2, 0⟩, ⟨r.1, j2⟩]

/-! Parameters (R281). -/

/-- Rated current of an axis's bridges, mA (R277). -/
def ratedCurrent (a : Nat) : Nat := if a < 2 then 1200 else 300
/-- An axis's vmax, amax and jerk, jerk in microsteps/s³; none is taken below 1 (log entry 133). -/
def axisV (s : State) (k a : Nat) : Nat := max 1 (axisParam s k a 0 4)
def axisA (s : State) (k a : Nat) : Nat := max 1 (axisParam s k a 4 4)
def axisJ (s : State) (k a : Nat) : Nat := 1000 * max 1 (axisParam s k a 8 4)
/-- Its imax, at most the rated current, its irun, ihold and ihome, mA; its homing speed and its limit. -/
def axisImax (s : State) (k a : Nat) : Nat := min (ratedCurrent a) (axisParam s k a 12 2)
def axisIrun (s : State) (k a : Nat) : Nat := axisParam s k a 14 2
def axisIhold (s : State) (k a : Nat) : Nat := axisParam s k a 16 2
def axisIhome (s : State) (k a : Nat) : Nat := axisParam s k a 18 2
def axisVhome (s : State) (k a : Nat) : Nat := max 1 (axisParam s k a 20 4)
def axisLimit (s : State) (k a : Nat) : Nat := axisParam s k a 24 4
/-- The reference parameters of a sled and of a corrector: vmax, amax, jerk, imax, irun, ihold, ihome, vhome, limit, r_home, res, ind,
ke. -/
def referenceAxis (sled : Bool) : List Nat :=
  if sled then [853333, 25600000, 2560000, 1200, 400, 300, 500, 85333, 58027, 23950, 2500, 1500, 1200]
  else [1200000, 1000000000, 2000000000, 300, 100, 75, 150, 128000, 2560, 0, 8000, 2000, 400]

/-! Commands (R284, R285). -/

/-- The command block of an axis: seq, op, signed target (R284). -/
def axisSeq (s : State) (k a : Nat) : Nat := param5 s k (0x700 + 16 * a) 4
def axisOp (s : State) (k a : Nat) : Nat := param5 s k (0x704 + 16 * a) 1
def axisTarget (s : State) (k a : Nat) : Int := fromField 32 (param5 s k (0x708 + 16 * a) 4)
/-- Whether a posted command of an axis waits to be served. -/
def axisNew (s : State) (k a op : Nat) : Bool :=
  program5 s k && decide (a < 4) && decide (axisOp s k a = op) &&
  (!(s.axis k a).valid || decide (axisSeq s k a ≠ (s.axis k a).seq))
/-- A position clipped to 0 to limit (R281, R285). -/
def clipAxis (s : State) (k a : Nat) (p : Int) : Int := max 0 (min p (axisLimit s k a))
/-- Whether a command on a sled is refused because the head is being positioned or a move form runs; any command while the
axis homes or, but for a corrector's move, moves is refused likewise (R285). -/
def axisBusy (s : State) (k a op : Nat) : Bool :=
  let x := s.axis k a
  (decide (a < 2) && decide (srvRdy s k a 7 7 = 1)) ||
  (if 2 ≤ a ∧ op = 1 then decide (x.state = 3) else decide (x.runs ≠ 0))
/-- A command refused: result 3 with a reason (R284). -/
def axisRefuse (k a reason : Nat) (s : State) : State :=
  s.setAxis k a { s.axis k a with seq := axisSeq s k a, result := 3, reason := reason }
/-- After a move ends its axis holds its amplitude for 100 ms, and lowers it over 10 ms (R287). -/
def restFall (s : State) (amp : Nat) : Option (Nat × Nat × Nat) := some (s.time + 100000000, 10000000, amp)
/-- After a stall the amplitude stands at imax for 20 ms (R289). -/
def stallFall (s : State) (imax : Nat) : Option (Nat × Nat × Nat) := some (s.time + 20000000, 0, imax)
/-- The amplitude a move starts with: at least irun (R287). -/
def startAmp (s : State) (k a : Nat) : Nat := max (s.axis k a).amp (axisIrun s k a)
/-- An axis with a new profile to a position, at most at speed v: from rest, or re-planned from where its present one has it, first to
rest and then on (R282, R285). -/
def Axis.plan (x : Axis) (s : State) (k a v : Nat) (to_ : Int) : Axis :=
  let m := x.motion
  let stop := if m.2.1 = 0 ∧ m.2.2 = 0 then [] else stopSegs m.2.1 m.2.2 (axisA s k a) (axisJ s k a)
  let from_ := (moveThrough m stop ((stop.map Seg.ns).sum)).1
  { x with
    p0 := m.1, v0 := m.2.1, a0 := m.2.2, clock := 0, seen := []
    segs := stop ++ moveSegs ((to_ : Rat) - from_) v (axisA s k a) (axisJ s k a) }
/-- An axis that homes: inward at vhome, with the amplitude at ihome (R290). -/
def Axis.goHome (x : Axis) (s : State) (k a : Nat) : Axis :=
  let x : Axis := { x with v0 := 0, a0 := 0, segs := [] }
  { x.plan s k a (axisVhome s k a) (x.pos - (axisLimit s k a + 512 : Nat)) with
    state := 3, stage := 1, amp := axisIhome s k a, fall := none, follows := false }

/-- STEPPER_MOVE: op 1; a target beyond the range is clipped, and the move runs; on a corrector that moves, its recovery move too, the
profile is re-planned (R285). -/
def execStepperMove (k a : Nat) (s : State) : Res :=
  .next (if !axisNew s k a 1 then s
    else
      let x := s.axis k a
      if axisBusy s k a 1 then axisRefuse k a 3 s
      else if x.state = 0 ∨ x.state = 5 then axisRefuse k a 5 s
      else
        let t := clipAxis s k a (axisTarget s k a)
        s.setAxis k a { x.plan s k a (axisV s k a) t with
          seq := axisSeq s k a, state := 2, result := 1, reason := if t = axisTarget s k a then 0 else 2
          target := t, runs := if x.runs = 4 then 4 else 1, amp := startAmp s k a, fall := none, follows := false })
/-- STEPPER_HOME: op 2 (R290). -/
def execStepperHome (k a : Nat) (s : State) : Res :=
  .next (if !axisNew s k a 2 then s
    else if axisBusy s k a 2 then axisRefuse k a 3 s
    else s.setAxis k a { (s.axis k a).goHome s k a with seq := axisSeq s k a, result := 1, reason := 0, runs := 3 })
/-- STEPPER_SET_POSITION: op 3 (R284, R289). -/
def execStepperSetPosition (k a : Nat) (s : State) : Res :=
  .next (if !axisNew s k a 3 then s
    else if axisBusy s k a 3 then axisRefuse k a 3 s
    else s.setAxis k a { s.axis k a with
      seq := axisSeq s k a, state := 1, result := 2, reason := 0, pos := axisTarget s k a, target := axisTarget s k a
      segs := [], uncertain := false })

/-! The sled and the tracking programs (R240, R283). -/

/-- What an engine tells engine 5 of a head's sled (R240). -/
inductive SledWord where
  | follow (nm : Int)
  | move (seq : Nat) (steps : Int)
  deriving DecidableEq, Repr
/-- A crossbar word 0xC0 or 0xC1 (R240). -/
def sledWord (w : Word32) : SledWord :=
  if w.msb then .move (bitsOf w.toNat 30 24) (fromField 24 (bitsOf w.toNat 23 0)) else .follow (fromField 31 (bitsOf w.toNat 30 0))
/-- Whether the sled follows: from an offset beyond 4 µm until it is within 2 µm (R240). -/
def sledFollows (follows : Bool) (nm : Int) : Bool := decide ((if follows then 2000 else 4000) < nm.natAbs)
/-- Engine 5's acknowledgement of a head's sled moves (R283). -/
def Axis.ack (x : Axis) : Nat := b2n x.ackFailed * 2 ^ 31 + x.ackSeq % 128 * 2 ^ 24 + b2n (x.runs != 0) * 2 ^ 23
/-- It is published on crossbar word 0xC2 or 0xC3. -/
def ackSled (k h : Nat) (s : State) : State := commitOne k (0xC2 + h) (BitVec.ofNat 32 (s.axis k h).ack) s
/-- A move form with a new number starts, waits for a firmware move or homing, or is refused on an axis that is not homed (R240, R283,
R285). -/
def sledForm (k h : Nat) (w : Word32) (s : State) : State :=
  let x := s.axis k h
  match sledWord w with
  | .follow _ => s
  | .move seq steps =>
    if x.form = some seq ∨ x.runs ≠ 0 then s
    else if x.state = 0 ∨ x.state = 5 then s.setAxis k h { x with form := some seq, ackSeq := seq, ackFailed := true }
    else
      let t := x.pos + steps
      let c := clipAxis s k h t
      s.setAxis k h { x.plan s k h (axisV s k h) c with
        state := 2, target := c, runs := 2, clipped := decide (c ≠ t), form := some seq, amp := startAmp s k h
        fall := none, follows := false }
/-- SLED_MOVE_FORM: engine 5 reads crossbar word 0xC0 or 0xC1, and acknowledges (R283). -/
def execSledMoveForm (k h : Nat) (s : State) : Res :=
  .next (let w := (s.out k (0xC0 + h)).getD 0
    if !program5 s k || decide (2 ≤ h) || !w.msb || decide ((s.axis k h).form = some (bitsOf w.toNat 30 24)) ||
        decide ((s.axis k h).runs ≠ 0) then s
    else ackSled k h (sledForm k h w s))

/-! Ends, stalls and homing (R282 to R284, R288 to R290). -/

/-- STEPPER_MOVE_END: the profile has reached its end (R282 to R284). -/
def execStepperMoveEnd (k a : Nat) (s : State) : Res :=
  .next (let x := s.axis k a
    if !program5 s k || decide (4 ≤ a) || x.state != 2 || !x.arrived then s
    else
      let y : Axis := { x with
        state := 1, pos := x.target, runs := 0, clipped := false, segs := [], load := 0xFF, seen := [], fall := restFall s x.amp
        result := if x.runs = 2 then x.result else 2 }
      if x.runs = 2 then ackSled k a (s.setAxis k a { y with ackSeq := x.form.getD 0, ackFailed := x.clipped })
      else s.setAxis k a y)
/-- Whether an axis has stalled, by its measured slots in a row, the newest first (R288). -/
def hasStalled (imax : Nat) (homing : Bool) (l : List StallSlot) : Bool :=
  (decide (3 ≤ l.length) && (l.take 3).all (fun x => decide (110 < x.load) && (homing || decide (imax ≤ x.amp)))) ||
  (decide (5 ≤ l.length) && (l.take 5).all (fun x => decide (100 * x.emf2 < 9 * x.due * x.due)))
/-- STEPPER_STALL: a stall of a move, or of the recovery of a corrector once it has left the stop: the position freezes where it is; a
sled reports it, a corrector holds, homes and moves again, and a second stall in that ends in state 5 (R289). -/
def execStepperStall (k a : Nat) (s : State) : Res :=
  .next (let x := s.axis k a
    let imax := axisImax s k a
    if !program5 s k || decide (4 ≤ a) || !(x.state == 2 || (x.state == 3 && x.runs == 4 && x.stage == 3)) ||
        !hasStalled imax (x.state == 3) x.seen then s
    else
      let s := superviseBit k 5 3 1 s
      let y : Axis := { x with segs := [], load := 0xFF, seen := [], amp := imax }
      if a < 2 then
        let y : Axis := { y with
          state := 4, target := x.pos, uncertain := true, runs := 0, clipped := false, fall := stallFall s imax
          result := if x.runs = 2 then x.result else 4, reason := if x.runs = 2 then x.reason else 1 }
        if x.runs = 2 then ackSled k a (s.setAxis k a { y with ackSeq := x.form.getD 0, ackFailed := true })
        else s.setAxis k a y
      else if x.runs = 4 then
        s.setAxis k a { y with state := 5, result := 4, reason := 1, runs := 0, stage := 0, fall := stallFall s imax }
      else s.setAxis k a { y with state := 3, stage := 4, clock := 0, runs := 4, fall := none })
/-- HOMING_END: the axis has moved from the stop to 0, or its travel has ended without one; a corrector that recovers from a stall then
moves to its target (R289, R290). -/
def execHomingEnd (k a : Nat) (s : State) : Res :=
  .next (let x := s.axis k a
    if !program5 s k || decide (4 ≤ a) || x.state != 3 || !x.arrived || !(x.stage == 1 || x.stage == 3) then s
    else
      let y : Axis := { x with segs := [], stage := 0, load := 0xFF, seen := [], fall := restFall s x.amp }
      if x.stage = 1 then s.setAxis k a { y with state := 5, result := 4, reason := 4, runs := 0 }
      else
        let y : Axis := { y with pos := 0, uncertain := false }
        if x.runs = 4 then
          s.setAxis k a { y.plan s k a (axisV s k a) x.target with state := 2, amp := startAmp s k a, fall := none }
        else s.setAxis k a { y with state := 1, result := 2, reason := 0, target := 0, runs := 0 })

/-! A slot of engine 5 for an axis (R279, R284, R286 to R290). -/

/-- Back-EMF of a phase, mV: its duty of VIN in mV, less what resistance in mΩ and inductance in µH take of its currents in mA
(R286). -/
def phaseEmf (duty vin res ind i prev : Rat) : Rat := duty * vin - res * i / 1000 - ind * (i - prev) / 20
/-- Load angle of a commanded and a rotor angle, in microsteps, as whole degrees (R286). -/
def loadAngle (cmd rotor : Int) : Nat := let d := ((cmd - rotor) % 1024).toNat; min d (1024 - d) * 360 / 1024
/-- Whether a slot of this commanded speed, microsteps/s, is measured (R286). -/
def measuredSlot (speed : Rat) : Bool := decide (64000 ≤ ratAbs speed)
/-- The latched share of a Q1.31 channel. -/
def latched (m : Tbl Word32) (ch : Nat) : Rat := ((Tbl.at m ch).toInt : Rat) / 2147483648
/-- What a measured slot of axis a finds, by the currents and duties engine e has latched, at a commanded position and speed (R286). -/
def measure (s : State) (k e a amp : Nat) (pos : Int) (speed : Rat) : StallSlot :=
  let x := s.engine k e
  let vin : Rat := ((Tbl.at x.inputs 0x38).toNat : Rat) / 2 ^ 31 * 18000
  let emf := fun p =>
    let i := fun m => latched m (0x40 + 2 * a + p) * ratedCurrent a
    phaseEmf (latched x.inputs (0x48 + 2 * a + p)) vin (axisParam s k a 32 2 : Nat) (axisParam s k a 34 2 : Nat)
      (i x.inputs) (i x.before)
  let rotor : Int := (electricalAngle (emf 0) (emf 1) : Int) - 256
  { load := loadAngle pos rotor, amp := amp, emf2 := emf 0 * emf 0 + emf 1 * emf 1
    due := (axisParam s k a 36 2 : Nat) * ratAbs speed / 256000 }
/-- The least amplitude while the profile accelerates, mA (R287). -/
def ampFloor (irun imax : Nat) (acc amax : Rat) : Nat := (irun + (((imax : Rat) - irun) * ratAbs acc / amax).floor).toNat
/-- The amplitude after a slot of a move, by its load angle when it is measured (R287). -/
def slotAmp (imax floor amp : Nat) : Option Nat → Nat
  | none => max floor amp
  | some load =>
    max floor (if 60 < load then min imax (amp + imax / 25) else if load < 30 then amp - imax / 200 else amp)
/-- The amplitude at rest falls linearly to ihold (R287, R289). -/
def fallAmp (ihold now amp : Nat) : Option (Nat × Nat × Nat) → Nat
  | none => amp
  | some (start, span, high) =>
    if now < start then amp
    else if start + span ≤ now then ihold
    else ((high : Int) - ((high : Int) - ihold) * ((now : Int) - start) / span).toNat
/-- The amplitude of an axis in this slot: fixed while it homes or holds, by R287 while it moves or is at rest. -/
def Axis.ampNow (x : Axis) (s : State) (k a : Nat) (acc : Rat) (load : Option Nat) : Nat :=
  if x.state = 3 then x.amp
  else if x.state = 2 then slotAmp (axisImax s k a) (ampFloor (axisIrun s k a) (axisImax s k a) acc (axisA s k a)) x.amp load
  else fallAmp (axisIhold s k a) s.time x.amp x.fall
/-- The stages of a homing: the stop is met and is position -256, a hold of 20 ms, 1,000 slots, and the move to 0; and before a
corrector's the freeze of 20 ms, whose amplitude then falls to ihold (R289, R290). -/
def Axis.homing (x : Axis) (s : State) (k a : Nat) : Axis :=
  if x.state ≠ 3 then x
  else if x.stage = 1 ∧ hasStalled (axisImax s k a) true x.seen then
    { x with stage := 2, pos := -256, segs := [], clock := 0, load := 0xFF, seen := [] }
  else if x.stage = 2 ∧ 1000 ≤ x.clock then { x.plan s k a (axisVhome s k a) 0 with stage := 3 }
  else if x.stage = 4 ∧ 1000 ≤ x.clock then { x with amp := axisIhold s k a }.goHome s k a
  else x
/-- A sled at rest follows the lens at 2 mm/s, 128/1875 microsteps a slot, within its range (R240, R283). -/
def Axis.follow (x : Axis) (s : State) (k h : Nat) (w : Word32) : Axis :=
  match sledWord w with
  | .move _ _ => { x with follows := false }
  | .follow nm =>
    if x.runs ≠ 0 ∨ x.state = 0 ∨ x.state = 5 then { x with follows := false }
    else if !sledFollows x.follows nm then { x with follows := false, part := 0 }
    else
      let n := x.part + (if 0 < nm then 128 else -128)
      let p := clipAxis s k h (x.pos + n.tdiv 1875)
      { x with follows := true, part := n.tmod 1875, pos := p, target := p }
/-- The phase currents of an axis as Q1.31 of the rated current: the table in force, position and amplitude (R279). -/
def phaseCurrents (s : State) (k a : Nat) : Int × Int :=
  let x := s.axis k a
  let sh := phaseShares (stepAt (Tbl.at s.steps (2 * k + a / 2))) x.pos
  let q := fun (i : Int) => max (-2147483648) (min 2147483647 (((x.amp : Int) * i * 2147483648).tdiv (65535 * ratedCurrent a)))
  (q sh.1, q sh.2)
/-- One slot of an axis on physical engine e: a move form is read, the profile goes on, load and amplitude follow, a stall is sought, and
the phase currents and the acknowledgement go out (R279, R283, R286 to R290). -/
def axisSlot (k e : Nat) (s : State) (a : Nat) : State :=
  if !(s.axis k a).valid then s
  else
    let w := Tbl.at (s.engine k e).inputs (0xC0 + a)
    let s := if a < 2 then sledForm k a w s else s
    let x := s.axis k a
    let x : Axis := if x.segs = [] ∧ x.stage = 0 then x else { x with clock := x.clock + 1 }
    let m := x.motion
    let x : Axis := { x with pos := if x.segs = [] then x.pos else nearest m.1 }
    let got := if x.segs ≠ [] ∧ measuredSlot m.2.1 then some (measure s k e a x.amp x.pos m.2.1) else none
    let x : Axis := { x with
      load := (got.map StallSlot.load).getD 0xFF
      amp := x.ampNow s k a m.2.2 (got.map StallSlot.load)
      seen := match got with
        | some g => (g :: x.seen).take 5
        | none => []
      fall := match x.fall with
        | some f => if f.1 + f.2.1 ≤ s.time then none else some f
        | none => none }
    let x := x.homing s k a
    let x := if a < 2 then x.follow s k a w else x
    let s := s.setAxis k a x
    let i := phaseCurrents s k a
    let s := emitAs k e (0x09 + 2 * a) i.2 (emitAs k e (0x08 + 2 * a) i.1 s)
    if a < 2 then emitAs k e (0xC2 + a) x.ack s else s

/-! A slot of engine 1 or 3 (R240, R241, R244, R247). -/

/-- Microsteps of a sled move over nanometres, of which a band has 2,600 (R247). -/
def sledSteps (nm : Int) : Int := if nm < 0 then -(((-nm) * 2 + 586) / 1172) else (nm * 2 + 586) / 1172
/-- Verdict of check 1 of a tracking engine (R241). -/
def lensFar (nm : Int) : Bool := decide (100000 < nm.natAbs)
/-- Lens offset from the low-passed tracking current, nm: compliance in nm/mA, 250 unless set (R240). -/
def lensOffset (compliance mA : Rat) : Rat := compliance * mA
/-- One slot frame of the low-pass of the lens offset, 2^-16 nm, at its corner of 20 Hz, from the tracking coil's output (R240; log entry
134). -/
def lensPass (lens out : Int) : Int := lens + ((out * 150000 / 32768) - lens) / 6366
/-- A slot of head h's tracking program on physical engine e: the lens offset and its check, a seek that the mailbox asks for as a move
form, and what goes to engine 5 (R240, R241, R244, R247). -/
def trackSlot (k e h : Nat) (s : State) : State :=
  let x := s.head k h
  let par := fun off n => dmemNum (s.engine k e).r.dmem (0x77C0 + off) n
  let serves := decide (par 0 4 ≠ 0)
  if !serves && !(claims (s.engine k e).code).contains (0xC0 + h) then s
  else
    let lens := lensPass x.lens ((s.out k (3 * h + 1)).getD 0).toInt
    let fresh := serves && decide (par 0 4 ≠ x.served)
    let seek := fresh && decide (par 4 1 = 2)
    let at_ : Int := if par 12 4 = 0x3FFF then -1 else par 12 4
    let steps := sledSteps (2600 * (fromField 32 (par 8 4) - at_))
    let seq := if seek then (x.sledSeq + 1) % 128 else x.sledSeq
    let ack := (Tbl.at (s.engine k e).inputs (0xC2 + h)).toNat
    let move := if seek then some (BitVec.ofNat 32 (2 ^ 31 + seq * 2 ^ 24 + toField 24 steps))
      else if bitsOf ack 30 24 = seq ∧ ¬ bitSet ack 23 then none else x.sledMove
    let lens := if move.isSome then 0 else lens
    let s := s.modHead k h (fun y => { y with
      lens := lens, served := if fresh then par 0 4 else y.served, sledSeq := seq, sledMove := move })
    let s := s.modEngine k e (fun y => { y with sup := some (BitVec.ofNat 32 (2 * b2n (lensFar (lens / 65536)))) })
    emitAs k e (0xC0 + h) ((move.map BitVec.toInt).getD (toField 31 (lens / 65536))) s

end Sys2Proof.Machine
end

