-- ==== Sys2Proof/Machine/Programs.lean ====
section
/-! DEFINITION. SLOT_START and SPARE_START: a slot begins, and the programs that the rules require of engines 1, 3, 4 and 5 do what they
do in every slot (R195, R198, R220, R240, R257, R283; log entry 135). -/

namespace Sys2Proof.Machine

/-- What the programs of logical engine l do in a slot of physical engine e, ahead of its instructions. A crossbar word that another
engine's program claims is not theirs (R207). -/
def programSlot (k e l : Nat) (given : List (Nat × List Int)) (s : State) : State :=
  if (s.engine k e).code = [] then s
  else
    let s := match l with
      | 1 => trackSlot k e 0 s
      | 3 => trackSlot k e 1 s
      | 4 => spinSlot4 k e given s
      | 5 => (List.range 4).foldl (fun s a => axisSlot k e s a) (spinSlot5 k e given s)
      | _ => s
    if (s.engine k e).emitted = [] then s
    else
      let other := claimedBy s k l
      s.modEngine k e (fun x => { x with emitted := x.emitted.filter (fun o => !other.contains o.1) })
/-- A slot of a program starts (R198). -/
def startSlot (k e l : Nat) (given : List (Nat × List Int)) (s : State) : State := programSlot k e l given (slotStart k e l given s)
/-- SLOT_START: but for a spare's first slot, which is SPARE_START's; `given` has what arrives at its inputs, and what the program's own
observer or loop makes of them on the words it publishes. -/
def execSlotStart (k e : Nat) (given : List (Nat × List Int)) (s : State) : Res :=
  .next (match logicalOf s k e with
    | some l =>
      if slotReady s k e l && !((s.engine k e).takeover && (s.engine k e).slotFrame.isNone) then startSlot k e l given s
      else s
    | none => s)
/-- SPARE_START: the spare's first slot, at the first boundary after its copy ends (R220). -/
def execSpareStart (k : Nat) (given : List (Nat × List Int)) (s : State) : Res :=
  .next (match logicalOf s k 8 with
    | some l =>
      if slotReady s k 8 l && (s.engine k 8).takeover && (s.engine k 8).slotFrame.isNone then startSlot k 8 l given s
      else s
    | none => s)

end Sys2Proof.Machine
end

