-- ==== Sys2Proof/Machine/Dispatch.lean ====
section
/-! DEFINITION. One arm per command: the meaning it calls. -/

namespace Sys2Proof.Machine

/-- The effect of one command on everything but the queue of waiting commands. -/
def exec (i : Instr) (s : State) : Host.Outcome State Fault Refusal :=
  match i with
  | .add a rd ra rb pred pneg => Sys2Proof.Machine.execAdd a rd ra rb pred pneg s
  | .sub a rd ra rb pred pneg => Sys2Proof.Machine.execSub a rd ra rb pred pneg s
  | .and a rd ra rb pred pneg => Sys2Proof.Machine.execAnd a rd ra rb pred pneg s
  | .or a rd ra rb pred pneg => Sys2Proof.Machine.execOr a rd ra rb pred pneg s
  | .xor a rd ra rb pred pneg => Sys2Proof.Machine.execXor a rd ra rb pred pneg s
  | .andn a rd ra rb pred pneg => Sys2Proof.Machine.execAndn a rd ra rb pred pneg s
  | .sll a rd ra rb pred pneg => Sys2Proof.Machine.execSll a rd ra rb pred pneg s
  | .srl a rd ra rb pred pneg => Sys2Proof.Machine.execSrl a rd ra rb pred pneg s
  | .sra a rd ra rb pred pneg => Sys2Proof.Machine.execSra a rd ra rb pred pneg s
  | .ror c rd ra rb pred pneg => Sys2Proof.Machine.execRor c rd ra rb pred pneg s
  | .min a rd ra rb pred pneg => Sys2Proof.Machine.execMin a rd ra rb pred pneg s
  | .max a rd ra rb pred pneg => Sys2Proof.Machine.execMax a rd ra rb pred pneg s
  | .minu a rd ra rb pred pneg => Sys2Proof.Machine.execMinu a rd ra rb pred pneg s
  | .maxu a rd ra rb pred pneg => Sys2Proof.Machine.execMaxu a rd ra rb pred pneg s
  | .sel a rd ra rb pred pneg => Sys2Proof.Machine.execSel a rd ra rb pred pneg s
  | .clz a rd ra pred pneg => Sys2Proof.Machine.execClz a rd ra pred pneg s
  | .ctz c rd ra pred pneg => Sys2Proof.Machine.execCtz c rd ra pred pneg s
  | .popc c rd ra pred pneg => Sys2Proof.Machine.execPopc c rd ra pred pneg s
  | .sextb c rd ra pred pneg => Sys2Proof.Machine.execSextb c rd ra pred pneg s
  | .sexth c rd ra pred pneg => Sys2Proof.Machine.execSexth c rd ra pred pneg s
  | .sextw c rd ra pred pneg => Sys2Proof.Machine.execSextw c rd ra pred pneg s
  | .zextw c rd ra pred pneg => Sys2Proof.Machine.execZextw c rd ra pred pneg s
  | .mul a rd ra rb pred pneg => Sys2Proof.Machine.execMul a rd ra rb pred pneg s
  | .mulhs c rd ra rb pred pneg => Sys2Proof.Machine.execMulhs c rd ra rb pred pneg s
  | .mulhu c rd ra rb pred pneg => Sys2Proof.Machine.execMulhu c rd ra rb pred pneg s
  | .divs c rd ra rb pred pneg => Sys2Proof.Machine.execDivs c rd ra rb pred pneg s
  | .divu c rd ra rb pred pneg => Sys2Proof.Machine.execDivu c rd ra rb pred pneg s
  | .rems c rd ra rb pred pneg => Sys2Proof.Machine.execRems c rd ra rb pred pneg s
  | .remu c rd ra rb pred pneg => Sys2Proof.Machine.execRemu c rd ra rb pred pneg s
  | .cmpeq a pd ra rb pred pneg => Sys2Proof.Machine.execCmpeq a pd ra rb pred pneg s
  | .cmpne a pd ra rb pred pneg => Sys2Proof.Machine.execCmpne a pd ra rb pred pneg s
  | .cmplt a pd ra rb pred pneg => Sys2Proof.Machine.execCmplt a pd ra rb pred pneg s
  | .cmpltu a pd ra rb pred pneg => Sys2Proof.Machine.execCmpltu a pd ra rb pred pneg s
  | .cmpge a pd ra rb pred pneg => Sys2Proof.Machine.execCmpge a pd ra rb pred pneg s
  | .cmpgeu a pd ra rb pred pneg => Sys2Proof.Machine.execCmpgeu a pd ra rb pred pneg s
  | .pand a pd pa pb pred pneg => Sys2Proof.Machine.execPand a pd pa pb pred pneg s
  | .por a pd pa pb pred pneg => Sys2Proof.Machine.execPor a pd pa pb pred pneg s
  | .pxor a pd pa pb pred pneg => Sys2Proof.Machine.execPxor a pd pa pb pred pneg s
  | .pandn a pd pa pb pred pneg => Sys2Proof.Machine.execPandn a pd pa pb pred pneg s
  | .jmpr c rd ra pred pneg => Sys2Proof.Machine.execJmpr c rd ra pred pneg s
  | .amoadd c rd ra rb pred pneg dbl aq rl => Sys2Proof.Machine.execAmoadd c rd ra rb pred pneg dbl aq rl s
  | .amoswap c rd ra rb pred pneg dbl aq rl => Sys2Proof.Machine.execAmoswap c rd ra rb pred pneg dbl aq rl s
  | .amocas c rd ra rb pred pneg dbl aq rl => Sys2Proof.Machine.execAmocas c rd ra rb pred pneg dbl aq rl s
  | .addi a rd ra imm => Sys2Proof.Machine.execAddi a rd ra imm s
  | .andi a rd ra imm => Sys2Proof.Machine.execAndi a rd ra imm s
  | .ori a rd ra imm => Sys2Proof.Machine.execOri a rd ra imm s
  | .xori a rd ra imm => Sys2Proof.Machine.execXori a rd ra imm s
  | .slli a rd ra sh => Sys2Proof.Machine.execSlli a rd ra sh s
  | .srli a rd ra sh => Sys2Proof.Machine.execSrli a rd ra sh s
  | .srai a rd ra sh => Sys2Proof.Machine.execSrai a rd ra sh s
  | .movi a rd imm => Sys2Proof.Machine.execMovi a rd imm s
  | .movk a rd h imm => Sys2Proof.Machine.execMovk a rd h imm s
  | .cmpeqi a pd ra imm => Sys2Proof.Machine.execCmpeqi a pd ra imm s
  | .cmplti a pd ra imm => Sys2Proof.Machine.execCmplti a pd ra imm s
  | .cmpltui a pd ra imm => Sys2Proof.Machine.execCmpltui a pd ra imm s
  | .ld c rd ra size uns off => Sys2Proof.Machine.execLd c rd ra size uns off s
  | .st c rs ra size off => Sys2Proof.Machine.execSt c rs ra size off s
  | .br c pred pneg link disp => Sys2Proof.Machine.execBr c pred pneg link disp s
  | .mfs a rd ra sreg => Sys2Proof.Machine.execMfs a rd ra sreg s
  | .mts a rd ra sreg => Sys2Proof.Machine.execMts a rd ra sreg s
  | .eret c rd ra sreg => Sys2Proof.Machine.execEret c rd ra sreg s
  | .ecall c n => Sys2Proof.Machine.execEcall c n s
  | .ebreak c => Sys2Proof.Machine.execEbreak c s
  | .wfe c rd ra sreg => Sys2Proof.Machine.execWfe c rd ra sreg s
  | .fence c form => Sys2Proof.Machine.execFence c form s
  | .fenceI c => Sys2Proof.Machine.execFenceI c s
  | .takeAsyncEvent c => Sys2Proof.Machine.execTakeAsyncEvent c s
  | .ldl k e rd ra size uns off => Sys2Proof.Machine.execLdl k e rd ra size uns off s
  | .stl k e rs ra size off => Sys2Proof.Machine.execStl k e rs ra size off s
  | .qadd k e rd ra rb pred pneg => Sys2Proof.Machine.execQadd k e rd ra rb pred pneg s
  | .qsub k e rd ra rb pred pneg => Sys2Proof.Machine.execQsub k e rd ra rb pred pneg s
  | .qneg k e rd ra pred pneg => Sys2Proof.Machine.execQneg k e rd ra pred pneg s
  | .qabs k e rd ra pred pneg => Sys2Proof.Machine.execQabs k e rd ra pred pneg s
  | .qmul k e rd ra rb pred pneg => Sys2Proof.Machine.execQmul k e rd ra rb pred pneg s
  | .qshl k e rd ra rb pred pneg => Sys2Proof.Machine.execQshl k e rd ra rb pred pneg s
  | .aclr k e ak pred pneg => Sys2Proof.Machine.execAclr k e ak pred pneg s
  | .ald k e ak ra pred pneg => Sys2Proof.Machine.execAld k e ak ra pred pneg s
  | .qmac k e ak ra rb pred pneg => Sys2Proof.Machine.execQmac k e ak ra rb pred pneg s
  | .qmsu k e ak ra rb pred pneg => Sys2Proof.Machine.execQmsu k e ak ra rb pred pneg s
  | .qrnd k e rd ak pred pneg => Sys2Proof.Machine.execQrnd k e rd ak pred pneg s
  | .biq k e rd ra rb pred pneg => Sys2Proof.Machine.execBiq k e rd ra rb pred pneg s
  | .repeat k e n len => Sys2Proof.Machine.execRepeat k e n len s
  | .sample k e rd ch => Sys2Proof.Machine.execSample k e rd ch s
  | .sampleStale k e rd ch => Sys2Proof.Machine.execSampleStale k e rd ch s
  | .emit k e ch ra => Sys2Proof.Machine.execEmit k e ch ra s
  | .slotend k e => Sys2Proof.Machine.execSlotend k e s
  | .balloc c rd ra rb xmod => Sys2Proof.Machine.execBalloc c rd ra rb xmod s
  | .bshare c rd ra rb xmod => Sys2Proof.Machine.execBshare c rd ra rb xmod s
  | .brelease c rd ra rb xmod => Sys2Proof.Machine.execBrelease c rd ra rb xmod s
  | .bfree c rd ra rb xmod => Sys2Proof.Machine.execBfree c rd ra rb xmod s
  | .qtake c rd ra rb xmod => Sys2Proof.Machine.execQtake c rd ra rb xmod s
  | .qdoneData c rd ra rb xhi => Sys2Proof.Machine.execQdoneData c rd ra rb xhi s
  | .qdonePost c rd ra rb xhi => Sys2Proof.Machine.execQdonePost c rd ra rb xhi s
  | .qdoneEnd n err moved data => Sys2Proof.Machine.execQdoneEnd n err moved data s
  | .qdefer c rd ra rb xmod => Sys2Proof.Machine.execQdefer c rd ra rb xmod s
  | .deferTimeReached slot => Sys2Proof.Machine.execDeferTimeReached slot s
  | .grantImmediate c rd ra rb xhi => Sys2Proof.Machine.execGrantImmediate c rd ra rb xhi s
  | .grantQueued c rd ra rb xhi => Sys2Proof.Machine.execGrantQueued c rd ra rb xhi s
  | .greturn c rd ra rb xmod => Sys2Proof.Machine.execGreturn c rd ra rb xmod s
  | .snapLocal c rd ra rb xhi => Sys2Proof.Machine.execSnapLocal c rd ra rb xhi s
  | .snapRing c rd ra rb xhi => Sys2Proof.Machine.execSnapRing c rd ra rb xhi s
  | .snapshotLatch => Sys2Proof.Machine.execSnapshotLatch s
  | .snaprd c rd ra rb xmod => Sys2Proof.Machine.execSnaprd c rd ra rb xmod s
  | .cinvR c rd ra rb xmod => Sys2Proof.Machine.execCinvR c rd ra rb xmod s
  | .ccleanR c rd ra rb xhi => Sys2Proof.Machine.execCcleanR c rd ra rb xhi s
  | .ccleanInvR c rd ra rb xhi => Sys2Proof.Machine.execCcleanInvR c rd ra rb xhi s
  | .clockwUnlock c rd ra rb xhi => Sys2Proof.Machine.execClockwUnlock c rd ra rb xhi s
  | .clockwScratchpad c rd ra rb xhi => Sys2Proof.Machine.execClockwScratchpad c rd ra rb xhi s
  | .clockwRangeLock c rd ra rb xhi => Sys2Proof.Machine.execClockwRangeLock c rd ra rb xhi s
  | .maplook c rd ra rb xmod => Sys2Proof.Machine.execMaplook c rd ra rb xmod s
  | .mapcommit c rd ra rb xmod => Sys2Proof.Machine.execMapcommit c rd ra rb xmod s
  | .chopRead c rd ra rb xmod => Sys2Proof.Machine.execChopRead c rd ra rb xmod s
  | .chopWrite c rd ra rb xmod => Sys2Proof.Machine.execChopWrite c rd ra rb xmod s
  | .chopVerify c rd ra rb xmod => Sys2Proof.Machine.execChopVerify c rd ra rb xmod s
  | .chopSeek c rd ra rb xmod => Sys2Proof.Machine.execChopSeek c rd ra rb xmod s
  | .chopStart k ahead => Sys2Proof.Machine.execChopStart k ahead s
  | .positioningEnd k ahead => Sys2Proof.Machine.execPositioningEnd k ahead s
  | .chopReadEnd k => Sys2Proof.Machine.execChopReadEnd k s
  | .chopWriteEnd k begun off => Sys2Proof.Machine.execChopWriteEnd k begun off s
  | .chopVerifyEnd k => Sys2Proof.Machine.execChopVerifyEnd k s
  | .chopSeekEnd k => Sys2Proof.Machine.execChopSeekEnd k s
  | .loadl c rd ra rb xmod => Sys2Proof.Machine.execLoadl c rd ra rb xmod s
  | .xferManual c rd ra rb xhi => Sys2Proof.Machine.execXferManual c rd ra rb xhi s
  | .xferAuto c rd ra rb xhi => Sys2Proof.Machine.execXferAuto c rd ra rb xhi s
  | .ringsend c rd ra rb xmod => Sys2Proof.Machine.execRingsend c rd ra rb xmod s
  | .ringrecv c rd ra rb xmod => Sys2Proof.Machine.execRingrecv c rd ra rb xmod s
  | .retain c rd ra rb xmod => Sys2Proof.Machine.execRetain c rd ra rb xmod s
  | .retainShadowDone => Sys2Proof.Machine.execRetainShadowDone s
  | .measure c rd ra rb xmod => Sys2Proof.Machine.execMeasure c rd ra rb xmod s
  | .seal c rd ra rb xmod => Sys2Proof.Machine.execSeal c rd ra rb xmod s
  | .identValue c rd ra rb => Sys2Proof.Machine.execIdentValue c rd ra rb s
  | .identPlace c rd ra rb => Sys2Proof.Machine.execIdentPlace c rd ra rb s
  | .doorbellSend c own target => Sys2Proof.Machine.execDoorbellSend c own target s
  | .doorbellClear c own mask => Sys2Proof.Machine.execDoorbellClear c own mask s
  | .completionQueuePop c own rd => Sys2Proof.Machine.execCompletionQueuePop c own rd s
  | .cerClear c own => Sys2Proof.Machine.execCerClear c own s
  | .faultAck c own seq => Sys2Proof.Machine.execFaultAck c own seq s
  | .noticePop c own rd => Sys2Proof.Machine.execNoticePop c own rd s
  | .registerWrite c own fdie d off v => Sys2Proof.Machine.execRegisterWrite c own fdie d off v s
  | .slotStart k e given => Sys2Proof.Machine.execSlotStart k e given s
  | .outputCommit k e => Sys2Proof.Machine.execOutputCommit k e s
  | .paramPost k l => Sys2Proof.Machine.execParamPost k l s
  | .holdRelease k l => Sys2Proof.Machine.execHoldRelease k l s
  | .engineFault k e memory => Sys2Proof.Machine.execEngineFault k e memory s
  | .slotendDeadlineMiss k e => Sys2Proof.Machine.execSlotendDeadlineMiss k e s
  | .spareStart k given => Sys2Proof.Machine.execSpareStart k given s
  | .spareSelfTestMismatch k => Sys2Proof.Machine.execSpareSelfTestMismatch k s
  | .holdLimitExpiry k l => Sys2Proof.Machine.execHoldLimitExpiry k l s
  | .spindleRun k => Sys2Proof.Machine.execSpindleRun k s
  | .spindleStop k => Sys2Proof.Machine.execSpindleStop k s
  | .spindleCoast k => Sys2Proof.Machine.execSpindleCoast k s
  | .catchMeasurementEnd k speed back => Sys2Proof.Machine.execCatchMeasurementEnd k speed back s
  | .alignEnd k => Sys2Proof.Machine.execAlignEnd k s
  | .openLoopHandover k speed => Sys2Proof.Machine.execOpenLoopHandover k speed s
  | .failedStart k speed => Sys2Proof.Machine.execFailedStart k speed s
  | .speedSettled k speed => Sys2Proof.Machine.execSpeedSettled k speed s
  | .brakeSafeSpeedReached k speed => Sys2Proof.Machine.execBrakeSafeSpeedReached k speed s
  | .spindleAtRest k speed => Sys2Proof.Machine.execSpindleAtRest k speed s
  | .lossOfSynchronism k => Sys2Proof.Machine.execLossOfSynchronism k s
  | .recatchEnd k speed found => Sys2Proof.Machine.execRecatchEnd k speed found s
  | .lockedRotor k => Sys2Proof.Machine.execLockedRotor k s
  | .vdsTrip k phase => Sys2Proof.Machine.execVdsTrip k phase s
  | .overVoltageTrip k => Sys2Proof.Machine.execOverVoltageTrip k s
  | .gateEnable k on => Sys2Proof.Machine.execGateEnable k on s
  | .speedCeilingUpdate k mv => Sys2Proof.Machine.execSpeedCeilingUpdate k mv s
  | .stepperMove k a => Sys2Proof.Machine.execStepperMove k a s
  | .stepperHome k a => Sys2Proof.Machine.execStepperHome k a s
  | .stepperSetPosition k a => Sys2Proof.Machine.execStepperSetPosition k a s
  | .sledMoveForm k h => Sys2Proof.Machine.execSledMoveForm k h s
  | .stepperMoveEnd k a => Sys2Proof.Machine.execStepperMoveEnd k a s
  | .stepperStall k a => Sys2Proof.Machine.execStepperStall k a s
  | .homingEnd k a => Sys2Proof.Machine.execHomingEnd k a s
  | .writeInhibitComparator k h tm fm sm => Sys2Proof.Machine.execWriteInhibitComparator k h tm fm sm s
  | .wiStatClear k h mask still => Sys2Proof.Machine.execWiStatClear k h mask still s
  | .focusOk k h fm sm => Sys2Proof.Machine.execFocusOk k h fm sm s
  | .trackOk k h tm ahead => Sys2Proof.Machine.execTrackOk k h tm ahead s
  | .focusLost k h fm sm => Sys2Proof.Machine.execFocusLost k h fm sm s
  | .trackLost k h tm => Sys2Proof.Machine.execTrackLost k h tm s
  | .readLossTimeout k => Sys2Proof.Machine.execReadLossTimeout k s
  | .shockComparator k radial focus => Sys2Proof.Machine.execShockComparator k radial focus s
  | .digitalShockPoll k bytes => Sys2Proof.Machine.execDigitalShockPoll k bytes s
  | .bridgeOvercurrent k b => Sys2Proof.Machine.execBridgeOvercurrent k b s
  | .bridgeEnable k ven sen => Sys2Proof.Machine.execBridgeEnable k ven sen s
  | .wobbleAcquisitionStart k h tm => Sys2Proof.Machine.execWobbleAcquisitionStart k h tm s
  | .wobbleAddressUnitRead k h unit atSync phase => Sys2Proof.Machine.execWobbleAddressUnitRead k h unit atSync phase s
  | .wobbleLockLost k h => Sys2Proof.Machine.execWobbleLockLost k h s
  | .frameRead k f adc start fine => Sys2Proof.Machine.execFrameRead k f adc start fine s
  | .firstPassDecodeEnd k f fault => Sys2Proof.Machine.execFirstPassDecodeEnd k f fault s
  | .alignmentRetry k f fault => Sys2Proof.Machine.execAlignmentRetry k f fault s
  | .rung1DecodeEnd k f fault => Sys2Proof.Machine.execRung1DecodeEnd k f fault s
  | .revolutionAttemptEnd k frames => Sys2Proof.Machine.execRevolutionAttemptEnd k frames s
  | .erasureDecode k j => Sys2Proof.Machine.execErasureDecode k j s
  | .trainingStart k h frames mu bank => Sys2Proof.Machine.execTrainingStart k h frames mu bank s
  | .trainingCancel k h => Sys2Proof.Machine.execTrainingCancel k h s
  | .trainingTimeout k h => Sys2Proof.Machine.execTrainingTimeout k h s
  | .calDataOffset k h b => Sys2Proof.Machine.execCalDataOffset k h b s
  | .calDataGain k h b => Sys2Proof.Machine.execCalDataGain k h b s
  | .calServoOffsets k h => Sys2Proof.Machine.execCalServoOffsets k h s
  | .calServoGainBalance k h => Sys2Proof.Machine.execCalServoGainBalance k h s
  | .calMonitorOffsets k h => Sys2Proof.Machine.execCalMonitorOffsets k h s
  | .calLaserLi k h => Sys2Proof.Machine.execCalLaserLi k h s
  | .calSpindleCurrentOffset k => Sys2Proof.Machine.execCalSpindleCurrentOffset k s
  | .calShockOffset k => Sys2Proof.Machine.execCalShockOffset k s
  | .calEnd k fault found => Sys2Proof.Machine.execCalEnd k fault found s
  | .mapFillDeltas c own k => Sys2Proof.Machine.execMapFillDeltas c own k s
  | .mapFillCheckpoint c own k => Sys2Proof.Machine.execMapFillCheckpoint c own k s
  | .mapBeginLoad k => Sys2Proof.Machine.execMapBeginLoad k s
  | .mapIngest c own k => Sys2Proof.Machine.execMapIngest c own k s
  | .mapEndLoad k => Sys2Proof.Machine.execMapEndLoad k s
  | .brecWrite k hoist => Sys2Proof.Machine.execBrecWrite k hoist s
  | .bpMinWrite d b min => Sys2Proof.Machine.execBpMinWrite d b min s
  | .tracePut c own v => Sys2Proof.Machine.execTracePut c own v s
  | .fifoFlush d n => Sys2Proof.Machine.execFifoFlush d n s
  | .fifoTagPop c own d n rd => Sys2Proof.Machine.execFifoTagPop c own d n rd s
  | .fifoPointerMismatch d n => Sys2Proof.Machine.execFifoPointerMismatch d n s
  | .captureItem d adc start given => Sys2Proof.Machine.execCaptureItem d adc start given s
  | .ccBistGo d way => Sys2Proof.Machine.execCcBistGo d way s
  | .ccBistEnd d passed => Sys2Proof.Machine.execCcBistEnd d passed s
  | .memBistGo c own d handle => Sys2Proof.Machine.execMemBistGo c own d handle s
  | .memBistEnd d failed => Sys2Proof.Machine.execMemBistEnd d failed s
  | .memRateWrite c own d rate => Sys2Proof.Machine.execMemRateWrite c own d rate s
  | .gddr6TrainingEnd d failed => Sys2Proof.Machine.execGddr6TrainingEnd d failed s
  | .gddr6Retrack d failed => Sys2Proof.Machine.execGddr6Retrack d failed s
  | .edcFail d chan failed => Sys2Proof.Machine.execEdcFail d chan failed s
  | .sramScrubPass d => Sys2Proof.Machine.execSramScrubPass d s
  | .gddr6ScrubPass d => Sys2Proof.Machine.execGddr6ScrubPass d s
  | .sqTailDoorbell y tail => Sys2Proof.Machine.execSqTailDoorbell y tail s
  | .cqHeadDoorbell y head => Sys2Proof.Machine.execCqHeadDoorbell y head s
  | .commandFetch sqid sqe data => Sys2Proof.Machine.execCommandFetch sqid sqe data s
  | .guardInstant slot => Sys2Proof.Machine.execGuardInstant slot s
  | .drainKeyPasses k => Sys2Proof.Machine.execDrainKeyPasses k s
  | .jobRequest c own => Sys2Proof.Machine.execJobRequest c own s
  | .costTableCommit mask => Sys2Proof.Machine.execCostTableCommit mask s
  | .drainSubtract k writes hoists => Sys2Proof.Machine.execDrainSubtract k writes hoists s
  | .poolRefill => Sys2Proof.Machine.execPoolRefill s
  | .energyCharge k => Sys2Proof.Machine.execEnergyCharge k s
  | .thermalModelStep d energy => Sys2Proof.Machine.execThermalModelStep d energy s
  | .thermalEvaluation d => Sys2Proof.Machine.execThermalEvaluation d s
  | .hwModelEvaluation d => Sys2Proof.Machine.execHwModelEvaluation d s
  | .struckModelStep => Sys2Proof.Machine.execStruckModelStep s
  | .diodeReading d value => Sys2Proof.Machine.execDiodeReading d value s
  | .referenceCompensation d => Sys2Proof.Machine.execReferenceCompensation d s
  | .aonOscCorrection err => Sys2Proof.Machine.execAonOscCorrection err s
  | .vinUndervoltage k => Sys2Proof.Machine.execVinUndervoltage k s
  | .vinGlitch => Sys2Proof.Machine.execVinGlitch s
  | .vbatLow mv => Sys2Proof.Machine.execVbatLow mv s
  | .vbatLost => Sys2Proof.Machine.execVbatLost s
  | .vbatGlitch => Sys2Proof.Machine.execVbatGlitch s
  | .tamperEvent src => Sys2Proof.Machine.execTamperEvent src s
  | .meshTamper => Sys2Proof.Machine.execMeshTamper s
  | .lidTamper high => Sys2Proof.Machine.execLidTamper high s
  | .temperatureTamper die => Sys2Proof.Machine.execTemperatureTamper die s
  | .jtagInstruction j => Sys2Proof.Machine.execJtagInstruction j s
  | .debugUnlock level key sig => Sys2Proof.Machine.execDebugUnlock level key sig s
  | .keyGenerate c own drive offset => Sys2Proof.Machine.execKeyGenerate c own drive offset s
  | .keyLoad c own drive offset => Sys2Proof.Machine.execKeyLoad c own drive offset s
  | .keyEvict c own drive => Sys2Proof.Machine.execKeyEvict c own drive s
  | .keyEvictDrive c own drive => Sys2Proof.Machine.execKeyEvictDrive c own drive s
  | .keyCreateKek c own => Sys2Proof.Machine.execKeyCreateKek c own s
  | .keyEscrow c own offset => Sys2Proof.Machine.execKeyEscrow c own offset s
  | .keyCommandEnd => Sys2Proof.Machine.execKeyCommandEnd s
  | .fuseBurnOemHash c own target verified => Sys2Proof.Machine.execFuseBurnOemHash c own target verified s
  | .fuseRevokeSlot c own target verified => Sys2Proof.Machine.execFuseRevokeSlot c own target verified s
  | .svnBurn c own value => Sys2Proof.Machine.execSvnBurn c own value s
  | .coreRelease c own mask => Sys2Proof.Machine.execCoreRelease c own mask s
  | .ensignClose => Sys2Proof.Machine.execEnsignClose s
  | .ensignFlashAppend ok => Sys2Proof.Machine.execEnsignFlashAppend ok s
  | .bootRecordTimeout => Sys2Proof.Machine.execBootRecordTimeout s
  | .activationRecordTimeout => Sys2Proof.Machine.execActivationRecordTimeout s
  | .bootRomStart => Sys2Proof.Machine.execBootRomStart s
  | .bootRetry => Sys2Proof.Machine.execBootRetry s
  | .ringBlockLock => Sys2Proof.Machine.execRingBlockLock s
  | .formReceived port blocks othersLocked => Sys2Proof.Machine.execFormReceived port blocks othersLocked s
  | .formedReceived port blocks => Sys2Proof.Machine.execFormedReceived port blocks s
  | .probeReceived port blocks residence => Sys2Proof.Machine.execProbeReceived port blocks residence s
  | .probeReplyReceived port blocks => Sys2Proof.Machine.execProbeReplyReceived port blocks s
  | .timeSend => Sys2Proof.Machine.execTimeSend s
  | .timeReceived port blocks residence => Sys2Proof.Machine.execTimeReceived port blocks residence s
  | .ringInputDown port rot => Sys2Proof.Machine.execRingInputDown port rot s
  | .wrapReceived port blocks rot => Sys2Proof.Machine.execWrapReceived port blocks rot s
  | .wrapHealTest port held => Sys2Proof.Machine.execWrapHealTest port held s
  | .ringFrameForward port blocks => Sys2Proof.Machine.execRingFrameForward port blocks s
  | .lend peer rate => Sys2Proof.Machine.execLend peer rate s
  | .recall loan => Sys2Proof.Machine.execRecall loan s
  | .returnLoan peer loan => Sys2Proof.Machine.execReturnLoan peer loan s
  | .writeOff loan => Sys2Proof.Machine.execWriteOff loan s
  | .loanOfferReceived port blocks => Sys2Proof.Machine.execLoanOfferReceived port blocks s
  | .loanAcceptReceived port blocks => Sys2Proof.Machine.execLoanAcceptReceived port blocks s
  | .loanRefuseReceived port blocks => Sys2Proof.Machine.execLoanRefuseReceived port blocks s
  | .loanRecallReceived port blocks => Sys2Proof.Machine.execLoanRecallReceived port blocks s
  | .loanReturnReceived port blocks => Sys2Proof.Machine.execLoanReturnReceived port blocks s
  | .loanConfirmReceived port blocks => Sys2Proof.Machine.execLoanConfirmReceived port blocks s
  | .loanResend entry => Sys2Proof.Machine.execLoanResend entry s
  | .loanSettlement => Sys2Proof.Machine.execLoanSettlement s
  | .snapFrameReceived port blocks => Sys2Proof.Machine.execSnapFrameReceived port blocks s
  | .msgReceived port blocks => Sys2Proof.Machine.execMsgReceived port blocks s
  | .ackReceived port blocks => Sys2Proof.Machine.execAckReceived port blocks s
  | .msgAckTimeout seq => Sys2Proof.Machine.execMsgAckTimeout seq s
  | .laneFailure link dir lane => Sys2Proof.Machine.execLaneFailure link dir lane s
  | .linkCrcReplay => Sys2Proof.Machine.execLinkCrcReplay s
  | .refclkLoss => Sys2Proof.Machine.execRefclkLoss s
  | .trayClampChange k tray clamp => Sys2Proof.Machine.execTrayClampChange k tray clamp s
  | .safeWrite k v => Sys2Proof.Machine.execSafeWrite k v s
  | .safetySequenceStage k stage => Sys2Proof.Machine.execSafetySequenceStage k stage s
  | .safetySpindleTimeout k => Sys2Proof.Machine.execSafetySpindleTimeout k s
  | .safetySequenceEnd k => Sys2Proof.Machine.execSafetySequenceEnd k s
  | .powerUp elapsed => Sys2Proof.Machine.execPowerUp elapsed s
  | .brownOut powered => Sys2Proof.Machine.execBrownOut powered s
  | .pinReset => Sys2Proof.Machine.execPinReset s
  | .firmwareReset c own key go => Sys2Proof.Machine.execFirmwareReset c own key go s
  | .stopAutoRestart => Sys2Proof.Machine.execStopAutoRestart s
  | .stopRestart => Sys2Proof.Machine.execStopRestart s
  | .coreWatchdogKick c own => Sys2Proof.Machine.execCoreWatchdogKick c own s
  | .coreWatchdogExpiry c => Sys2Proof.Machine.execCoreWatchdogExpiry c s
  | .deckCoreRestart c => Sys2Proof.Machine.execDeckCoreRestart c s
  | .packageWatchdogKick => Sys2Proof.Machine.execPackageWatchdogKick s
  | .packageWatchdogExpiry => Sys2Proof.Machine.execPackageWatchdogExpiry s
  | .deleteIoSq sqe => Sys2Proof.Machine.execDeleteIoSq sqe s
  | .deleteIoCq sqe => Sys2Proof.Machine.execDeleteIoCq sqe s
  | .createIoSq sqe => Sys2Proof.Machine.execCreateIoSq sqe s
  | .createIoCq sqe => Sys2Proof.Machine.execCreateIoCq sqe s
  | .getLogPage sqe => Sys2Proof.Machine.execGetLogPage sqe s
  | .identify sqe => Sys2Proof.Machine.execIdentify sqe s
  | .abort sqe => Sys2Proof.Machine.execAbort sqe s
  | .setFeatures sqe => Sys2Proof.Machine.execSetFeatures sqe s
  | .getFeatures sqe => Sys2Proof.Machine.execGetFeatures sqe s
  | .setServiceClasses sqe data => Sys2Proof.Machine.execSetServiceClasses sqe data s
  | .setPowerMode sqe => Sys2Proof.Machine.execSetPowerMode sqe s
  | .setVerifyPolicy sqe => Sys2Proof.Machine.execSetVerifyPolicy sqe s
  | .setRetryDepth sqe => Sys2Proof.Machine.execSetRetryDepth sqe s
  | .setBeamCount sqe => Sys2Proof.Machine.execSetBeamCount sqe s
  | .setIoCommandSetProfile sqe => Sys2Proof.Machine.execSetIoCommandSetProfile sqe s
  | .setTimestamp sqe data => Sys2Proof.Machine.execSetTimestamp sqe data s
  | .setVolatileWriteCache sqe => Sys2Proof.Machine.execSetVolatileWriteCache sqe s
  | .asynchronousEventRequest sqe => Sys2Proof.Machine.execAsynchronousEventRequest sqe s
  | .firmwareImageDownload sqe data => Sys2Proof.Machine.execFirmwareImageDownload sqe data s
  | .fwCommitStore sqe => Sys2Proof.Machine.execFwCommitStore sqe s
  | .fwCommitStoreActivate sqe => Sys2Proof.Machine.execFwCommitStoreActivate sqe s
  | .fwCommitActivateSlot sqe => Sys2Proof.Machine.execFwCommitActivateSlot sqe s
  | .fwCommitActivateNow sqe => Sys2Proof.Machine.execFwCommitActivateNow sqe s
  | .firmwareActivationPoint => Sys2Proof.Machine.execFirmwareActivationPoint s
  | .flush sqid sqe => Sys2Proof.Machine.execFlush sqid sqe s
  | .write sqid sqe => Sys2Proof.Machine.execWrite sqid sqe s
  | .read sqid sqe => Sys2Proof.Machine.execRead sqid sqe s
  | .verify sqid sqe => Sys2Proof.Machine.execVerify sqid sqe s
  | .resetZone sqid sqe => Sys2Proof.Machine.execResetZone sqid sqe s
  | .finishZone sqid sqe => Sys2Proof.Machine.execFinishZone sqid sqe s
  | .openZone sqid sqe => Sys2Proof.Machine.execOpenZone sqid sqe s
  | .closeZone sqid sqe => Sys2Proof.Machine.execCloseZone sqid sqe s
  | .zoneManagementReceive sqid sqe => Sys2Proof.Machine.execZoneManagementReceive sqid sqe s
  | .zoneAppend sqid sqe => Sys2Proof.Machine.execZoneAppend sqid sqe s
  | .versionRead sqid sqe => Sys2Proof.Machine.execVersionRead sqid sqe s
  | .controllerReset => Sys2Proof.Machine.execControllerReset s
  | .controllerEnable cc asqs acqs started => Sys2Proof.Machine.execControllerEnable cc asqs acqs started s
  | .functionLevelReset => Sys2Proof.Machine.execFunctionLevelReset s
  | .hotReset perst => Sys2Proof.Machine.execHotReset perst s
  | .perstDeassert => Sys2Proof.Machine.execPerstDeassert s
  | .normalShutdown => Sys2Proof.Machine.execNormalShutdown s
  | .abruptShutdown => Sys2Proof.Machine.execAbruptShutdown s
  | .readNvmeMiDataStructure dtyp port => Sys2Proof.Machine.execReadNvmeMiDataStructure dtyp port s
  | .subsystemHealthStatusPoll => Sys2Proof.Machine.execSubsystemHealthStatusPoll s
  | .controllerHealthStatusPoll => Sys2Proof.Machine.execControllerHealthStatusPoll s
  | .configurationGet id => Sys2Proof.Machine.execConfigurationGet id s
  | .configurationSet id value => Sys2Proof.Machine.execConfigurationSet id value s
  | .vpdRead off len => Sys2Proof.Machine.execVpdRead off len s
  | .tunnelledAdminCommand sqe => Sys2Proof.Machine.execTunnelledAdminCommand sqe s
  | .basicManagementCommand => Sys2Proof.Machine.execBasicManagementCommand s
  | .setEndpointId eid => Sys2Proof.Machine.execSetEndpointId eid s
  | .getVersion tr req => Sys2Proof.Machine.execGetVersion tr req s
  | .getCapabilities tr req => Sys2Proof.Machine.execGetCapabilities tr req s
  | .negotiateAlgorithms tr req => Sys2Proof.Machine.execNegotiateAlgorithms tr req s
  | .getDigests tr req => Sys2Proof.Machine.execGetDigests tr req s
  | .getCertificate tr req slot off len => Sys2Proof.Machine.execGetCertificate tr req slot off len s
  | .challenge tr req slot => Sys2Proof.Machine.execChallenge tr req slot s
  | .getMeasurements tr req index signed => Sys2Proof.Machine.execGetMeasurements tr req index signed s
  | .illegalInstruction c w => Sys2Proof.Machine.execIllegalInstruction c w s
  | .timerEventPending c => Sys2Proof.Machine.execTimerEventPending c s
  | .sysRstNRelease => Sys2Proof.Machine.execSysRstNRelease s
  | .timeFramesMissed => Sys2Proof.Machine.execTimeFramesMissed s
  | .formedPartTimeout => Sys2Proof.Machine.execFormedPartTimeout s
  | .firmwareActivationComplete => Sys2Proof.Machine.execFirmwareActivationComplete s
  | .vddqOutOfRange => Sys2Proof.Machine.execVddqOutOfRange s

end Sys2Proof.Machine
end

