-- ==== Sys2Proof/Machine/Step.lean ====
section
/-! DEFINITION. One step: the command at the front of the queue, or one LOOP tick when none waits. -/

namespace Sys2Proof.Machine

/-- The passage of one LOOP tick, with no command waiting (R34, R108; log entry 14): ring time slews (R562), the next
queued ring message may leave (R577), a health event may come up (R459), a shutdown may complete (R456). -/
def State.idle (s : State) : State := shutdownTest (healthEvents (pumpRing (slewTick { s with now := s.now + 1 })))

/-- One step: the first waiting command takes effect on everything but the queue; with none, one LOOP tick passes. -/
def step (s : State) : Host.Outcome State Fault Refusal :=
  match s.pending with
  | [] => .next s.idle
  | i :: rest => exec i { s with pending := rest }

/-- The device with the command a table word spells put at the front of its queue; as it is where the word spells
none. -/
def State.withFetchWord (s : State) (nbits w : Nat) : State :=
  match decodeTableWord nbits w with
  | some i => { s with pending := i :: s.pending }
  | none => s

end Sys2Proof.Machine
end

