-- ==== Sys2Proof/Safety.lean ====
section
/-! DEFINITION. The terms claims are made in: when a deck core or a loop engine executes an instruction, what completing one
or taking an event leaves of the state, and the invariants of the device. -/

namespace Sys2Proof.Machine

/-! Deck cores. -/

/-- Core c as it begins its next instruction: a stall in a WFE has ended (R67). -/
def State.started (s : State) (c : Nat) : State := s.modCore c (fun k => { k with run := .running })
/-- Core c as its next instruction does its own part: it has begun, and the fetch has left what a fetch leaves, nothing where the
instruction cache holds the word (R66). -/
def State.woken (s : State) (c : Nat) : State :=
  match fetch c (s.started c) with
  | .done t => t
  | .trap _ t => t
/-- Core c executes its next instruction: it runs, its registers and pipeline hold no uncorrectable error (R600), and the fetch
raises no event (R71). -/
abbrev Ready (s : State) (c : Nat) : Prop :=
  awake s c = true ∧ (s.core c).broken = false ∧ fetchFault (s.started c) c = none ∧
  fetch c (s.started c) = .done (s.woken c)
/-- Core c makes the register access a command of its own stands for: it runs with its registers sound, and the access raises no
event (R79, R85, R89, R653). -/
abbrev MayAccess (s : State) (c : Nat) (kind : Kind) (own fdie : Bool) (d off : Nat) (prot : Bool) : Prop :=
  awake s c = true ∧ (s.core c).broken = false ∧
  accessFault (s.started c) c kind (regAt own c fdie d off) 8 = none ∧
  (prot = true → (s.core c).level = .boot ∧ s.sealed = false)
/-- Core c makes the store of protected fields that such a command stands for, but below Boot level or after seal, while it serves no
event: the access raises 0x0D (R75, R85). -/
abbrev Barred (s : State) (c : Nat) (own fdie : Bool) (d off : Nat) : Prop :=
  MayAccess s c .store own fdie d off false ∧ ((s.core c).level ≠ .boot ∨ s.sealed = true) ∧ flag (s.core c).status 1 = false
/-- Everything outside core c and the counter units is as before: every other core, every register, every byte of memory,
every queue and engine. -/
def OnlyCore (s t : State) (c : Nat) : Prop :=
  (∀ d, d ≠ c → t.core d = s.core d) ∧ t = { s with cores := t.cores, snap := { s.snap with count := t.snap.count } }
/-- One counter unit has increased by one, modulo 2^64, and no other has changed (R624). -/
def CountsOne (s t : State) (unit : Nat) : Prop :=
  ∀ u, Tbl.at t.snap.count u = Tbl.at s.snap.count u + (if u = unit then 1 else 0)
/-- No tag of the set that a look-up of an address reads is lost in both copies, which would stop the device (R414, R604). -/
abbrev TagsStand (s : State) (a : Nat) : Prop := ∀ l ∈ s.cache.lines, sameSet a l = true → l.tags ≠ (.bad, .bad)
/-- No error stands in the data or the tag arrays of the staging caches (R414). -/
abbrev CacheSound (s : State) : Prop := ∀ l ∈ s.cache.lines, l.errs = [] ∧ l.tags = (.clean, .clean)
/-- From s, which its fetch left, core c has completed an instruction and is `k` afterwards: the instruction counts as retired,
and nothing else has changed (R624). -/
def Completes (s t : State) (c : Nat) (k : Core) : Prop :=
  t.core c = k ∧ OnlyCore s t c ∧ CountsOne s t (1024 * (c / 8) + 32 * (c % 8))
/-- A core that moves on to the next instruction with nothing else changed. -/
def Core.onward (k : Core) : Core := { k with run := .running, pc := k.pc + 4 }
/-- Core c has taken an event that the instruction begun at s, or no instruction, raised (R74): what each register then holds. -/
def TakesEvent (s t : State) (c cause : Nat) (addr info : Word) : Prop :=
  t.core c = { s.core c with
    run := .running
    epc := (s.core c).pc
    estatus := BitVec.ofNat 64 ((s.core c).level.code + (s.core c).status.toNat % 4 * 4)
    cause := BitVec.ofNat 64 cause, eaddr := addr, einfo := info
    level := if (s.core c).level = .boot then .boot else .supervisor
    status := 2
    pc := (s.core c).evbase + BitVec.ofNat 64 (0x80 * cause) } ∧
  OnlyCore s t c ∧ CountsOne s t (1024 * (c / 8) + 32 * (c % 8) + 4)
/-- Core c's store of protected fields at an address is recorded and raises 0x0D (R71, R85, R609). -/
def RaisesProtected (s t : State) (c addr : Nat) : Prop :=
  TakesEvent (logFault 0x0005 (c / 8) c 0 0 (addr % 2 ^ 40 + b2n s.sealed * 2 ^ 40) s) t c 0x0D (BitVec.ofNat 64 addr)
    (BitVec.ofNat 64 (b2n s.sealed))

/-! Loop engines. -/

/-- Engine e of slice k has completed an instruction and is `x` afterwards; nothing else has changed. -/
def EngineBecomes (s t : State) (k e : Nat) (x : Engine) : Prop :=
  t.engine k e = x ∧ (∀ j, j ≠ 16 * k + e → Tbl.at t.engines j = Tbl.at s.engines j) ∧ t = { s with engines := t.engines }
/-- The engine after an instruction of `n` cycles that leaves its registers and data memory as `r` (R94, R97). -/
def Engine.ran (x : Engine) (n : Nat) (r : LoopRegs) : Engine :=
  ({ x with cyc := x.cyc + n, r := r } : Engine).advance

/-! Device operations. -/

/-- Core c issues a device operation that passes the checks of R103 before its own: the right of s.bar, a listed modifier, and
the regions of its memory operands. -/
abbrev MayIssue (s : State) (c xop xmod : Nat) (operands : List Span) : Prop :=
  Ready s c ∧ barAllows ((s.woken c).core c) (groupOf xop) = true ∧ legalXmod xop xmod = true ∧
  ∀ sp ∈ operands, spanFault ((s.woken c).core c) sp = none
/-- The end of a device operation of core c whose own effect has left `s`: rd takes the answer, the core moves on, and the
instruction and the operation are counted (R104, R624). -/
def answered (c : Nat) (rd : BitVec 5) (v : Word) (s : State) : State :=
  ((endOp c rd v s).modCore c (fun k => { k with pc := k.pc + 4 })).count (c / 8) (32 * (c % 8)) 1
/-- The operation succeeds with a result. -/
abbrev Succeeds (s : State) (i : Instr) (c : Nat) (rd : BitVec 5) (v : Nat) (t : State) : Prop :=
  exec i s = .next (answered c rd (okWord v) t)
/-- The operation reports a status with its detail. -/
abbrev Fails (s : State) (i : Instr) (c : Nat) (rd : BitVec 5) (status detail : Nat) (t : State) : Prop :=
  exec i s = .next (answered c rd (failWord status detail) t)

/-! The host port. -/

/-- The host port takes the next entry of submission queue y, and the queue's completion queue has room for the answer. -/
abbrev HostTurn (s : State) (y : Nat) (q : SubQ) (cq : CompQ) : Prop :=
  hostReady s = true ∧ (freeSlot s).isSome = true ∧ Tbl.at s.host.sqs y = some q ∧ q.head ≠ q.tail ∧
  Tbl.at s.host.cqs q.cqid = some cq ∧ (cq.tail + 1) % cq.size ≠ cq.head
/-- The admin queue's turn: its completions go to completion queue 0. -/
abbrev AdminTurn (s : State) (q : SubQ) (cq : CompQ) : Prop := HostTurn s 0 q cq ∧ q.cqid = 0
/-- The state with the entry at the head of queue y taken. -/
def State.fetched (s : State) (y : Nat) (q : SubQ) : State :=
  { s with host := { s.host with sqs := Tbl.upd y (some { q with head := (q.head + 1) % q.size }) s.host.sqs } }
/-- The completion that answers the entry taken from queue y. -/
def answerTo (y : Nat) (q : SubQ) (cq : CompQ) (sqe : List Byte) (sct sc more dw0 : Nat) : Cqe :=
  { cqid := q.cqid, sqid := y, cid := sqeCid sqe, sqhd := (q.head + 1) % q.size, sct := sct, sc := sc, more := more
    dw0 := dw0, dw1 := 0, phase := cq.phase }
/-- The host sees the entry taken and answered, and nothing else posted. -/
def HostAnswer (s t : State) (y : Nat) (q : SubQ) (cq : CompQ) (sqe : List Byte) (sct sc more dw0 : Nat) : Prop :=
  t.host.posted = s.host.posted ++ [answerTo y q cq sqe sct sc more dw0] ∧
  Tbl.at t.host.sqs y = some { q with head := (q.head + 1) % q.size }

/-! Invariants of the device. -/

/-- Memory lists its bytes once each, in rising order, and none that reads as an unlisted one. -/
abbrev MemoryCanonical (s : State) : Prop := Memory.wf s.mem

end Sys2Proof.Machine
end

