-- ==== Sys2Proof/WellFormed.lean ====
section
/-! DEFINITION. Which commands are well formed: the places they name exist in the largest part of the family (R1, R41, R42,
R88), and the blocks of bytes they carry have the length their format gives them. A command whose place an actual part
does not have is well formed and does nothing there. -/

namespace Sys2Proof

/-- A deck core's number, s.coreid[4:0] (R69). -/
def okCore (c : Nat) : Bool := decide (c < 32)
/-- A slice, and so a C-die, an F-die or a drive (R1). -/
def okSlice (k : Nat) : Bool := decide (k < 4)
/-- A die numbered as for SNAPRD: C-dies 0 to 3, F-dies 4 to 7 (R126). -/
def okDie (d : Nat) : Bool := decide (d < 8)
/-- A physical loop engine: 0 to 7, and the spare, 8 (R42). -/
def okEngine (e : Nat) : Bool := decide (e ≤ 8)
/-- A logical loop engine (R42). -/
def okLogical (l : Nat) : Bool := decide (l < 8)
/-- A head of a slice (R1). -/
def okHead (h : Nat) : Bool := decide (h < 2)
/-- A beam of a head (R1). -/
def okBeam (b : Nat) : Bool := decide (b < 12)
/-- A stepper axis of a slice (R283). -/
def okAxis (a : Nat) : Bool := decide (a < 4)
/-- An enable bit of fe.br.ctl: six voice coils and eight stepper bridges (R178, R623). -/
def okBridge (b : Nat) : Bool := decide (b < 6) || (decide (8 ≤ b) && decide (b < 16))
/-- A FIFO of a C-die: trace 0 to 7, capture 8 (R386). -/
def okFifo (n : Nat) : Bool := decide (n ≤ 8)
/-- A ring port, A or B (R550). -/
def okPort (p : Nat) : Bool := decide (p < 2)
/-- A management transport, PCIe or SMBus (R460). -/
def okTransport (t : Nat) : Bool := decide (t < 2)
/-- A command slot (R117). -/
def okSlot (i : Nat) : Bool := decide (i < 16384)
/-- A loan-ledger entry (R569). -/
def okLoan (i : Nat) : Bool := decide (i < 32)
/-- A phase of the spindle motor (R261). -/
def okPhase (p : Nat) : Bool := decide (p < 3)
/-- A stage of the safety sequence (R509). -/
def okStage (n : Nat) : Bool := decide (1 ≤ n) && decide (n ≤ 4)
/-- A tamper source (R543). -/
def okTamper (n : Nat) : Bool := decide (n < 8)
/-- A die link: slices 0 to 3, then the chain (R18). -/
def okLink (n : Nat) : Bool := decide (n < 8)
/-- A submission-queue entry is 64 bytes (R428). -/
def okSqe (sqe : List Byte) : Bool := decide (sqe.length = 64)
/-- The agent of an instruction both profiles have. -/
def Agent.wf : Agent → Bool
  | .deck c => okCore c
  | .loop k e => okSlice k && okEngine e
/-- A JTAG instruction that names a core names one that exists. -/
def Jtag.wf : Jtag → Bool
  | .halt c => okCore c
  | .resume c => okCore c
  | .read c _ _ => okCore c
  | .write c _ _ => okCore c
  | _ => true

/-- Whether a command is well formed. -/
def Instr.wf : Instr → Bool
  | .add a _ _ _ _ _ => a.wf
  | .sub a _ _ _ _ _ => a.wf
  | .and a _ _ _ _ _ => a.wf
  | .or a _ _ _ _ _ => a.wf
  | .xor a _ _ _ _ _ => a.wf
  | .andn a _ _ _ _ _ => a.wf
  | .sll a _ _ _ _ _ => a.wf
  | .srl a _ _ _ _ _ => a.wf
  | .sra a _ _ _ _ _ => a.wf
  | .ror c _ _ _ _ _ => okCore c
  | .min a _ _ _ _ _ => a.wf
  | .max a _ _ _ _ _ => a.wf
  | .minu a _ _ _ _ _ => a.wf
  | .maxu a _ _ _ _ _ => a.wf
  | .sel a _ _ _ _ _ => a.wf
  | .clz a _ _ _ _ => a.wf
  | .ctz c _ _ _ _ => okCore c
  | .popc c _ _ _ _ => okCore c
  | .sextb c _ _ _ _ => okCore c
  | .sexth c _ _ _ _ => okCore c
  | .sextw c _ _ _ _ => okCore c
  | .zextw c _ _ _ _ => okCore c
  | .mul a _ _ _ _ _ => a.wf
  | .mulhs c _ _ _ _ _ => okCore c
  | .mulhu c _ _ _ _ _ => okCore c
  | .divs c _ _ _ _ _ => okCore c
  | .divu c _ _ _ _ _ => okCore c
  | .rems c _ _ _ _ _ => okCore c
  | .remu c _ _ _ _ _ => okCore c
  | .cmpeq a _ _ _ _ _ => a.wf
  | .cmpne a _ _ _ _ _ => a.wf
  | .cmplt a _ _ _ _ _ => a.wf
  | .cmpltu a _ _ _ _ _ => a.wf
  | .cmpge a _ _ _ _ _ => a.wf
  | .cmpgeu a _ _ _ _ _ => a.wf
  | .pand a _ _ _ _ _ => a.wf
  | .por a _ _ _ _ _ => a.wf
  | .pxor a _ _ _ _ _ => a.wf
  | .pandn a _ _ _ _ _ => a.wf
  | .jmpr c _ _ _ _ => okCore c
  | .amoadd c _ _ _ _ _ _ _ _ => okCore c
  | .amoswap c _ _ _ _ _ _ _ _ => okCore c
  | .amocas c _ _ _ _ _ _ _ _ => okCore c
  | .addi a _ _ _ => a.wf
  | .andi a _ _ _ => a.wf
  | .ori a _ _ _ => a.wf
  | .xori a _ _ _ => a.wf
  | .slli a _ _ _ => a.wf
  | .srli a _ _ _ => a.wf
  | .srai a _ _ _ => a.wf
  | .movi a _ _ => a.wf
  | .movk a _ _ _ => a.wf
  | .cmpeqi a _ _ _ => a.wf
  | .cmplti a _ _ _ => a.wf
  | .cmpltui a _ _ _ => a.wf
  | .ld c _ _ _ _ _ => okCore c
  | .st c _ _ _ _ => okCore c
  | .br c _ _ _ _ => okCore c
  | .mfs a _ _ _ => a.wf
  | .mts a _ _ _ => a.wf
  | .eret c _ _ _ => okCore c
  | .ecall c _ => okCore c
  | .ebreak c => okCore c
  | .wfe c _ _ _ => okCore c
  | .fence c _ => okCore c
  | .fenceI c => okCore c
  | .takeAsyncEvent c => okCore c
  | .ldl k e _ _ _ _ _ => okSlice k && okEngine e
  | .stl k e _ _ _ _ => okSlice k && okEngine e
  | .qadd k e _ _ _ _ _ => okSlice k && okEngine e
  | .qsub k e _ _ _ _ _ => okSlice k && okEngine e
  | .qneg k e _ _ _ _ => okSlice k && okEngine e
  | .qabs k e _ _ _ _ => okSlice k && okEngine e
  | .qmul k e _ _ _ _ _ => okSlice k && okEngine e
  | .qshl k e _ _ _ _ _ => okSlice k && okEngine e
  | .aclr k e _ _ _ => okSlice k && okEngine e
  | .ald k e _ _ _ _ => okSlice k && okEngine e
  | .qmac k e _ _ _ _ _ => okSlice k && okEngine e
  | .qmsu k e _ _ _ _ _ => okSlice k && okEngine e
  | .qrnd k e _ _ _ _ => okSlice k && okEngine e
  | .biq k e _ _ _ _ _ => okSlice k && okEngine e
  | .repeat k e _ _ => okSlice k && okEngine e
  | .sample k e _ _ => okSlice k && okEngine e
  | .sampleStale k e _ _ => okSlice k && okEngine e
  | .emit k e _ _ => okSlice k && okEngine e
  | .slotend k e => okSlice k && okEngine e
  | .balloc c _ _ _ _ => okCore c
  | .bshare c _ _ _ _ => okCore c
  | .brelease c _ _ _ _ => okCore c
  | .bfree c _ _ _ _ => okCore c
  | .qtake c _ _ _ _ => okCore c
  | .qdoneData c _ _ _ _ => okCore c
  | .qdonePost c _ _ _ _ => okCore c
  | .qdoneEnd _ _ _ _ => true
  | .qdefer c _ _ _ _ => okCore c
  | .deferTimeReached slot => okSlot slot
  | .grantImmediate c _ _ _ _ => okCore c
  | .grantQueued c _ _ _ _ => okCore c
  | .greturn c _ _ _ _ => okCore c
  | .snapLocal c _ _ _ _ => okCore c
  | .snapRing c _ _ _ _ => okCore c
  | .snapshotLatch => true
  | .snaprd c _ _ _ _ => okCore c
  | .cinvR c _ _ _ _ => okCore c
  | .ccleanR c _ _ _ _ => okCore c
  | .ccleanInvR c _ _ _ _ => okCore c
  | .clockwUnlock c _ _ _ _ => okCore c
  | .clockwScratchpad c _ _ _ _ => okCore c
  | .clockwRangeLock c _ _ _ _ => okCore c
  | .maplook c _ _ _ _ => okCore c
  | .mapcommit c _ _ _ _ => okCore c
  | .chopRead c _ _ _ _ => okCore c
  | .chopWrite c _ _ _ _ => okCore c
  | .chopVerify c _ _ _ _ => okCore c
  | .chopSeek c _ _ _ _ => okCore c
  | .chopStart k _ => okSlice k
  | .positioningEnd k _ => okSlice k
  | .chopReadEnd k => okSlice k
  | .chopWriteEnd k _ _ => okSlice k
  | .chopVerifyEnd k => okSlice k
  | .chopSeekEnd k => okSlice k
  | .loadl c _ _ _ _ => okCore c
  | .xferManual c _ _ _ _ => okCore c
  | .xferAuto c _ _ _ _ => okCore c
  | .ringsend c _ _ _ _ => okCore c
  | .ringrecv c _ _ _ _ => okCore c
  | .retain c _ _ _ _ => okCore c
  | .retainShadowDone => true
  | .measure c _ _ _ _ => okCore c
  | .seal c _ _ _ _ => okCore c
  | .identValue c _ _ _ => okCore c
  | .identPlace c _ _ _ => okCore c
  | .doorbellSend c _ _ => okCore c
  | .doorbellClear c _ _ => okCore c
  | .completionQueuePop c _ _ => okCore c
  | .cerClear c _ => okCore c
  | .faultAck c _ _ => okCore c
  | .noticePop c _ _ => okCore c
  | .registerWrite c _ _ d _ _ => okCore c && okSlice d
  | .slotStart k e _ => okSlice k && okEngine e
  | .outputCommit k e => okSlice k && okEngine e
  | .paramPost k l => okSlice k && okLogical l
  | .holdRelease k l => okSlice k && okLogical l
  | .engineFault k e _ => okSlice k && okEngine e
  | .slotendDeadlineMiss k e => okSlice k && okEngine e
  | .spareStart k _ => okSlice k
  | .spareSelfTestMismatch k => okSlice k
  | .holdLimitExpiry k l => okSlice k && okLogical l
  | .spindleRun k => okSlice k
  | .spindleStop k => okSlice k
  | .spindleCoast k => okSlice k
  | .catchMeasurementEnd k _ _ => okSlice k
  | .alignEnd k => okSlice k
  | .openLoopHandover k _ => okSlice k
  | .failedStart k _ => okSlice k
  | .speedSettled k _ => okSlice k
  | .brakeSafeSpeedReached k _ => okSlice k
  | .spindleAtRest k _ => okSlice k
  | .lossOfSynchronism k => okSlice k
  | .recatchEnd k _ _ => okSlice k
  | .lockedRotor k => okSlice k
  | .vdsTrip k phase => okSlice k && okPhase phase
  | .overVoltageTrip k => okSlice k
  | .gateEnable k _ => okSlice k
  | .speedCeilingUpdate k _ => okSlice k
  | .stepperMove k a => okSlice k && okAxis a
  | .stepperHome k a => okSlice k && okAxis a
  | .stepperSetPosition k a => okSlice k && okAxis a
  | .sledMoveForm k h => okSlice k && okHead h
  | .stepperMoveEnd k a => okSlice k && okAxis a
  | .stepperStall k a => okSlice k && okAxis a
  | .homingEnd k a => okSlice k && okAxis a
  | .writeInhibitComparator k h _ _ _ => okSlice k && okHead h
  | .wiStatClear k h _ _ => okSlice k && okHead h
  | .focusOk k h _ _ => okSlice k && okHead h
  | .trackOk k h _ _ => okSlice k && okHead h
  | .focusLost k h _ _ => okSlice k && okHead h
  | .trackLost k h _ => okSlice k && okHead h
  | .readLossTimeout k => okSlice k
  | .shockComparator k _ _ => okSlice k
  | .digitalShockPoll k _ => okSlice k
  | .bridgeOvercurrent k b => okSlice k && okBridge b
  | .bridgeEnable k _ _ => okSlice k
  | .wobbleAcquisitionStart k h _ => okSlice k && okHead h
  | .wobbleAddressUnitRead k h _ _ _ => okSlice k && okHead h
  | .wobbleLockLost k h => okSlice k && okHead h
  | .frameRead k _ _ _ _ => okSlice k
  | .firstPassDecodeEnd k _ _ => okSlice k
  | .alignmentRetry k _ _ => okSlice k
  | .rung1DecodeEnd k _ _ => okSlice k
  | .revolutionAttemptEnd k _ => okSlice k
  | .erasureDecode k _ => okSlice k
  | .trainingStart k h _ _ _ => okSlice k && okHead h
  | .trainingCancel k h => okSlice k && okHead h
  | .trainingTimeout k h => okSlice k && okHead h
  | .calDataOffset k h b => okSlice k && okHead h && okBeam b
  | .calDataGain k h b => okSlice k && okHead h && okBeam b
  | .calServoOffsets k h => okSlice k && okHead h
  | .calServoGainBalance k h => okSlice k && okHead h
  | .calMonitorOffsets k h => okSlice k && okHead h
  | .calLaserLi k h => okSlice k && okHead h
  | .calSpindleCurrentOffset k => okSlice k
  | .calShockOffset k => okSlice k
  | .calEnd k _ _ => okSlice k
  | .mapFillDeltas c _ k => okCore c && okSlice k
  | .mapFillCheckpoint c _ k => okCore c && okSlice k
  | .mapBeginLoad k => okSlice k
  | .mapIngest c _ k => okCore c && okSlice k
  | .mapEndLoad k => okSlice k
  | .brecWrite k _ => okSlice k
  | .bpMinWrite d _ _ => okSlice d
  | .tracePut c _ _ => okCore c
  | .fifoFlush d n => okSlice d && okFifo n
  | .fifoTagPop c _ d n _ => okCore c && okSlice d && okFifo n
  | .fifoPointerMismatch d n => okSlice d && okFifo n
  | .captureItem d _ _ _ => okSlice d
  | .ccBistGo d _ => okSlice d
  | .ccBistEnd d _ => okSlice d
  | .memBistGo c _ d _ => okCore c && okSlice d
  | .memBistEnd d _ => okSlice d
  | .memRateWrite c _ d _ => okCore c && okSlice d
  | .gddr6TrainingEnd d _ => okSlice d
  | .gddr6Retrack d _ => okSlice d
  | .edcFail d _ _ => okSlice d
  | .sramScrubPass d => okSlice d
  | .gddr6ScrubPass d => okSlice d
  | .sqTailDoorbell _ _ => true
  | .cqHeadDoorbell _ _ => true
  | .commandFetch _ sqe _ => okSqe sqe
  | .guardInstant slot => okSlot slot
  | .drainKeyPasses k => okSlice k
  | .jobRequest c _ => okCore c
  | .costTableCommit _ => true
  | .drainSubtract k _ _ => okSlice k
  | .poolRefill => true
  | .energyCharge k => okSlice k
  | .thermalModelStep d _ => okDie d
  | .thermalEvaluation d => okDie d
  | .hwModelEvaluation d => okDie d
  | .struckModelStep => true
  | .diodeReading d _ => okDie d
  | .referenceCompensation d => okDie d
  | .aonOscCorrection _ => true
  | .vinUndervoltage k => okSlice k
  | .vinGlitch => true
  | .vbatLow _ => true
  | .vbatLost => true
  | .vbatGlitch => true
  | .tamperEvent src => okTamper src
  | .meshTamper => true
  | .lidTamper _ => true
  | .temperatureTamper die => okDie die
  | .jtagInstruction j => j.wf
  | .debugUnlock _ _ _ => true
  | .keyGenerate c _ _ _ => okCore c
  | .keyLoad c _ _ _ => okCore c
  | .keyEvict c _ _ => okCore c
  | .keyEvictDrive c _ _ => okCore c
  | .keyCreateKek c _ => okCore c
  | .keyEscrow c _ _ => okCore c
  | .keyCommandEnd => true
  | .fuseBurnOemHash c _ _ _ => okCore c
  | .fuseRevokeSlot c _ _ _ => okCore c
  | .svnBurn c _ _ => okCore c
  | .coreRelease c _ _ => okCore c
  | .ensignClose => true
  | .ensignFlashAppend _ => true
  | .bootRecordTimeout => true
  | .activationRecordTimeout => true
  | .bootRomStart => true
  | .bootRetry => true
  | .ringBlockLock => true
  | .formReceived port _ _ => okPort port
  | .formedReceived port _ => okPort port
  | .probeReceived port _ _ => okPort port
  | .probeReplyReceived port _ => okPort port
  | .timeSend => true
  | .timeReceived port _ _ => okPort port
  | .ringInputDown port _ => okPort port
  | .wrapReceived port _ _ => okPort port
  | .wrapHealTest port _ => okPort port
  | .ringFrameForward port _ => okPort port
  | .lend _ _ => true
  | .recall _ => true
  | .returnLoan _ _ => true
  | .writeOff _ => true
  | .loanOfferReceived port _ => okPort port
  | .loanAcceptReceived port _ => okPort port
  | .loanRefuseReceived port _ => okPort port
  | .loanRecallReceived port _ => okPort port
  | .loanReturnReceived port _ => okPort port
  | .loanConfirmReceived port _ => okPort port
  | .loanResend entry => okLoan entry
  | .loanSettlement => true
  | .snapFrameReceived port _ => okPort port
  | .msgReceived port _ => okPort port
  | .ackReceived port _ => okPort port
  | .msgAckTimeout _ => true
  | .laneFailure link dir _ => okLink link && okPort dir
  | .linkCrcReplay => true
  | .refclkLoss => true
  | .trayClampChange k _ _ => okSlice k
  | .safeWrite k _ => okSlice k
  | .safetySequenceStage k stage => okSlice k && okStage stage
  | .safetySpindleTimeout k => okSlice k
  | .safetySequenceEnd k => okSlice k
  | .powerUp _ => true
  | .brownOut _ => true
  | .pinReset => true
  | .firmwareReset c _ _ _ => okCore c
  | .stopAutoRestart => true
  | .stopRestart => true
  | .coreWatchdogKick c _ => okCore c
  | .coreWatchdogExpiry c => okCore c
  | .deckCoreRestart c => okCore c
  | .packageWatchdogKick => true
  | .packageWatchdogExpiry => true
  | .deleteIoSq sqe => okSqe sqe
  | .deleteIoCq sqe => okSqe sqe
  | .createIoSq sqe => okSqe sqe
  | .createIoCq sqe => okSqe sqe
  | .getLogPage sqe => okSqe sqe
  | .identify sqe => okSqe sqe
  | .abort sqe => okSqe sqe
  | .setFeatures sqe => okSqe sqe
  | .getFeatures sqe => okSqe sqe
  | .setServiceClasses sqe _ => okSqe sqe
  | .setPowerMode sqe => okSqe sqe
  | .setVerifyPolicy sqe => okSqe sqe
  | .setRetryDepth sqe => okSqe sqe
  | .setBeamCount sqe => okSqe sqe
  | .setIoCommandSetProfile sqe => okSqe sqe
  | .setTimestamp sqe _ => okSqe sqe
  | .setVolatileWriteCache sqe => okSqe sqe
  | .asynchronousEventRequest sqe => okSqe sqe
  | .firmwareImageDownload sqe _ => okSqe sqe
  | .fwCommitStore sqe => okSqe sqe
  | .fwCommitStoreActivate sqe => okSqe sqe
  | .fwCommitActivateSlot sqe => okSqe sqe
  | .fwCommitActivateNow sqe => okSqe sqe
  | .firmwareActivationPoint => true
  | .flush _ sqe => okSqe sqe
  | .write _ sqe => okSqe sqe
  | .read _ sqe => okSqe sqe
  | .verify _ sqe => okSqe sqe
  | .resetZone _ sqe => okSqe sqe
  | .finishZone _ sqe => okSqe sqe
  | .openZone _ sqe => okSqe sqe
  | .closeZone _ sqe => okSqe sqe
  | .zoneManagementReceive _ sqe => okSqe sqe
  | .zoneAppend _ sqe => okSqe sqe
  | .versionRead _ sqe => okSqe sqe
  | .controllerReset => true
  | .controllerEnable _ _ _ _ => true
  | .functionLevelReset => true
  | .hotReset _ => true
  | .perstDeassert => true
  | .normalShutdown => true
  | .abruptShutdown => true
  | .readNvmeMiDataStructure _ _ => true
  | .subsystemHealthStatusPoll => true
  | .controllerHealthStatusPoll => true
  | .configurationGet _ => true
  | .configurationSet _ _ => true
  | .vpdRead _ _ => true
  | .tunnelledAdminCommand sqe => okSqe sqe
  | .basicManagementCommand => true
  | .setEndpointId _ => true
  | .getVersion tr _ => okTransport tr
  | .getCapabilities tr _ => okTransport tr
  | .negotiateAlgorithms tr _ => okTransport tr
  | .getDigests tr _ => okTransport tr
  | .getCertificate tr _ _ _ _ => okTransport tr
  | .challenge tr _ _ => okTransport tr
  | .getMeasurements tr _ _ _ => okTransport tr
  | .illegalInstruction c _ => okCore c
  | .timerEventPending c => okCore c
  | .sysRstNRelease => true
  | .timeFramesMissed => true
  | .formedPartTimeout => true
  | .firmwareActivationComplete => true
  | .vddqOutOfRange => true

end Sys2Proof
end

