-- ==== Sys2Proof/Certificates/Slice0/Obligations.lean ====
section
/-! DEFINITION. What the provers are asked to show of the device, after the numbered rules of spec/. In a statement that
lists commands with what each leaves, a pair holds the command and its result. -/

open Sys2Proof Sys2Proof.Machine

/-! The full profile (R40 to R90). -/

/-- A register instruction of a deck core writes its result into rd when its predicate holds and nothing otherwise; SEL always
executes, its predicate choosing between ra and rb, and so does an immediate form; each moves on and leaves everything else alone
(R47, R52, R53, R56). -/
def Obligations.deck_register_and_immediate_results : Prop :=
  (∀ (s : State) (c : Nat) (rd ra rb : BitVec 5) (pred : BitVec 3) (pneg : Bool), Ready s c →
     let D := Agent.deck c
     let w := s.woken c
     let k := w.core c
     let x := k.r ra
     let y := k.r rb
     ∀ row ∈ [
         (Instr.add D rd ra rb pred pneg, x + y), (.sub D rd ra rb pred pneg, x - y),
         (.and D rd ra rb pred pneg, x &&& y), (.or D rd ra rb pred pneg, x ||| y),
         (.xor D rd ra rb pred pneg, x ^^^ y), (.andn D rd ra rb pred pneg, x &&& ~~~y),
         (.sll D rd ra rb pred pneg, x <<< (y.toNat % 64)), (.srl D rd ra rb pred pneg, x >>> (y.toNat % 64)),
         (.sra D rd ra rb pred pneg, x.sshiftRight (y.toNat % 64)),
         (.ror c rd ra rb pred pneg, x.rotateRight (y.toNat % 64)),
         (.min D rd ra rb pred pneg, if x.toInt < y.toInt then x else y),
         (.max D rd ra rb pred pneg, if x.toInt < y.toInt then y else x),
         (.minu D rd ra rb pred pneg, if x.toNat < y.toNat then x else y),
         (.maxu D rd ra rb pred pneg, if x.toNat < y.toNat then y else x),
         (.clz D rd ra pred pneg, BitVec.ofNat 64 ((List.range 64).takeWhile (fun i => !x.getMsbD i)).length),
         (.ctz c rd ra pred pneg, BitVec.ofNat 64 ((List.range 64).takeWhile (fun i => !x.getLsbD i)).length),
         (.popc c rd ra pred pneg, BitVec.ofNat 64 ((List.range 64).countP (fun i => x.getLsbD i))),
         (.sextb c rd ra pred pneg, (x.truncate 8).signExtend 64), (.sexth c rd ra pred pneg, (x.truncate 16).signExtend 64),
         (.sextw c rd ra pred pneg, (x.truncate 32).signExtend 64), (.zextw c rd ra pred pneg, (x.truncate 32).zeroExtend 64),
         (.mul D rd ra rb pred pneg, BitVec.ofInt 64 (x.toInt * y.toInt)),
         (.mulhs c rd ra rb pred pneg, BitVec.ofInt 64 (x.toInt * y.toInt / 2 ^ 64)),
         (.mulhu c rd ra rb pred pneg, BitVec.ofNat 64 (x.toNat * y.toNat / 2 ^ 64)),
         (.divs c rd ra rb pred pneg, if y = 0 then -1 else BitVec.ofInt 64 (x.toInt.tdiv y.toInt)),
         (.divu c rd ra rb pred pneg, if y = 0 then -1 else x / y),
         (.rems c rd ra rb pred pneg, if y = 0 then x else BitVec.ofInt 64 (x.toInt.tmod y.toInt)),
         (.remu c rd ra rb pred pneg, if y = 0 then x else x % y)],
       ∃ t, exec row.1 s = .next t ∧ Completes w t c (if k.execs pred pneg then k.onward.setR rd row.2 else k.onward)) ∧
  (∀ (s : State) (c : Nat) (rd ra rb : BitVec 5) (pred : BitVec 3) (pneg : Bool) (imm : BitVec 16) (sh : BitVec 6)
     (h : BitVec 2), Ready s c →
     let D := Agent.deck c
     let w := s.woken c
     let k := w.core c
     let x := k.r ra
     ∀ row ∈ [
         (Instr.sel D rd ra rb pred pneg, if k.execs pred pneg then x else k.r rb),
         (.addi D rd ra imm, x + imm.signExtend 64), (.andi D rd ra imm, x &&& imm.zeroExtend 64),
         (.ori D rd ra imm, x ||| imm.zeroExtend 64), (.xori D rd ra imm, x ^^^ imm.zeroExtend 64),
         (.slli D rd ra sh, x <<< sh.toNat), (.srli D rd ra sh, x >>> sh.toNat), (.srai D rd ra sh, x.sshiftRight sh.toNat),
         (.movi D rd imm, imm.signExtend 64),
         (.movk D rd h imm, (k.r rd &&& ~~~(0xFFFF#64 <<< (16 * h.toNat))) ||| imm.zeroExtend 64 <<< (16 * h.toNat))],
       ∃ t, exec row.1 s = .next t ∧ Completes w t c (k.onward.setR rd row.2))

/-- A compare or predicate-logic instruction of a deck core writes one predicate, p0 excepted, the immediate compares always; JMPR
links rd, then jumps to the old ra with bits [1:0] cleared, and BR jumps to pc + sext(disp21) × 4 and links g31 when its link bit
is set; with its predicate false each only moves on (R41, R47, R49, R54 to R56). -/
def Obligations.deck_predicates_and_branches : Prop :=
  (∀ (s : State) (c : Nat) (pd pa pb : BitVec 3) (ra rb : BitVec 5) (imm : BitVec 16) (pred : BitVec 3) (pneg : Bool),
     Ready s c →
     let D := Agent.deck c
     let w := s.woken c
     let k := w.core c
     let x := k.r ra
     let y := k.r rb
     let p := fun (b : Bool) => ∀ i : BitVec 3, (k.onward.setP pd b).pr i = if i = 0 then true else if i = pd then b else k.pr i
     p true ∧ p false ∧
     (∀ row ∈ [
         (Instr.cmpeq D pd ra rb pred pneg, decide (x = y)), (.cmpne D pd ra rb pred pneg, decide (x ≠ y)),
         (.cmplt D pd ra rb pred pneg, decide (x.toInt < y.toInt)), (.cmpltu D pd ra rb pred pneg, decide (x.toNat < y.toNat)),
         (.cmpge D pd ra rb pred pneg, decide (y.toInt ≤ x.toInt)), (.cmpgeu D pd ra rb pred pneg, decide (y.toNat ≤ x.toNat)),
         (.pand D pd pa pb pred pneg, k.pr pa && k.pr pb), (.por D pd pa pb pred pneg, k.pr pa || k.pr pb),
         (.pxor D pd pa pb pred pneg, xor (k.pr pa) (k.pr pb)), (.pandn D pd pa pb pred pneg, k.pr pa && !k.pr pb)],
       ∃ t, exec row.1 s = .next t ∧ Completes w t c (if k.execs pred pneg then k.onward.setP pd row.2 else k.onward)) ∧
     (∀ row ∈ [
         (Instr.cmpeqi D pd ra imm, decide (x = imm.signExtend 64)),
         (.cmplti D pd ra imm, decide (x.toInt < imm.toInt)),
         (.cmpltui D pd ra imm, decide (x.toNat < imm.toNat))],
       ∃ t, exec row.1 s = .next t ∧ Completes w t c (k.onward.setP pd row.2))) ∧
  (∀ (s : State) (c : Nat) (rd ra : BitVec 5) (pred : BitVec 3) (pneg link : Bool) (disp : BitVec 21), Ready s c →
     let w := s.woken c
     let k := w.core c
     (∃ t, exec (.jmpr c rd ra pred pneg) s = .next t ∧ Completes w t c
       (if k.execs pred pneg then { k.onward.setR rd (k.pc + 4) with pc := k.r ra &&& ~~~3#64 } else k.onward)) ∧
     (∃ t, exec (.br c pred pneg link disp) s = .next t ∧ Completes w t c
       (if k.execs pred pneg then
         { (if link then k.onward.setR 31 (k.pc + 4) else k.onward) with pc := k.pc + BitVec.ofInt 64 (disp.toInt * 4) }
        else k.onward)))

/-- MFS reads a special register into rd, the registers of every level, and at Supervisor and Boot level the others; MTS writes one,
reserved bits as 0, and nothing else, and a read-only one stays as it is: s.pred at every level, the others at Supervisor and
Boot, the protection set-up at Boot before seal (R7, R69, R70, R81, R82, R84). -/
def Obligations.special_registers_are_read_and_written : Prop :=
  (∀ (s : State) (c : Nat) (rd ra : BitVec 5), Ready s c →
     let w := s.woken c
     let k := w.core c
     let reads := fun (sreg : BitVec 12) (v : Word) =>
       ∃ t, exec (.mfs (.deck c) rd ra sreg) s = .next t ∧ Completes w t c (k.onward.setR rd v)
     (∀ row ∈ ([(0x000, BitVec.ofNat 64 (match k.level with | .task => 0 | .supervisor => 1 | .boot => 3)),
         (0x00A, BitVec.ofNat 64 c), (0x00B, BitVec.ofNat 64 (4 * s.now)), (0x010, (k.p ||| 1).zeroExtend 64),
         (0x0C0, k.bar), (0x0C1, if s.sealed then 1 else 0)] : List (BitVec 12 × Word)), reads row.1 row.2) ∧
     (∀ (n : Nat) (h : n < 64), reads (BitVec.ofNat 12 (0x040 + n)) (k.rgnBase[n]) ∧
       reads (BitVec.ofNat 12 (0x080 + n)) (k.rgnAttr[n])) ∧
     (k.level ≠ .task → ∀ row ∈ ([(0x001, k.status &&& 3), (0x002, k.epc), (0x003, k.cause), (0x004, k.eaddr),
         (0x005, k.einfo), (0x006, k.estatus &&& 0xF), (0x007, k.evbase &&& ~~~0x1FFF#64), (0x008, k.evmask &&& 0xFF),
         (0x009, BitVec.ofNat 64 (evpend w c)), (0x00C, k.timecmp), (0x00D, k.scratch0), (0x00E, k.scratch1)] :
         List (BitVec 12 × Word)), reads row.1 row.2)) ∧
  (∀ (s : State) (c : Nat) (rd ra : BitVec 5), Ready s c →
     let w := s.woken c
     let k := w.core c
     let v := k.r ra
     let o := k.onward
     let writes := fun (sreg : BitVec 12) (k' : Core) =>
       ∃ t, exec (.mts (.deck c) rd ra sreg) s = .next t ∧ Completes w t c k'
     writes 0x010 { o with p := v.truncate 8 ||| 1 } ∧
     writes 0x000 o ∧ writes 0x00A o ∧ writes 0x00B o ∧ writes 0x0C1 o ∧
     (k.level ≠ .task → ∀ row ∈ ([(0x001, { o with status := v &&& 3 }), (0x002, { o with epc := v }),
         (0x006, { o with estatus := v &&& 0xF }), (0x007, { o with evbase := v &&& ~~~0x1FFF#64 }),
         (0x008, { o with evmask := v &&& 0xFF }), (0x00C, { o with timecmp := v }), (0x00D, { o with scratch0 := v }),
         (0x00E, { o with scratch1 := v }), (0x003, o), (0x004, o),
         (0x005, o), (0x009, o)] : List (BitVec 12 × Core)), writes row.1 row.2) ∧
     (k.level = .boot → s.sealed = false →
       writes 0x0C0 { o with bar := v &&& 0x1FFF_1FFF } ∧
       ∀ (n : Nat) (h : n < 64),
         writes (BitVec.ofNat 12 (0x040 + n)) { o with rgnBase := k.rgnBase.set n (v &&& 0xFF_FFFF_F000) h } ∧
         writes (BitVec.ofNat 12 (0x080 + n)) { o with rgnAttr := k.rgnAttr.set n (v &&& 0x3FFF) h }))

/-- With s.status.exl clear, the core takes the event its instruction raises: ECALL 0x0B with n, EBREAK 0x0C, a word that is no
instruction 0x01, a special register that is not listed 0x01 and one below its level 0x02 (R50, R67, R69, R71, R74). -/
def Obligations.deck_traps_take_their_event : Prop :=
  ∀ (s : State) (c : Nat) (n : BitVec 12) (rd ra : BitVec 5), Ready s c →
    let w := s.woken c
    let pc := (w.core c).pc
    flag (w.core c).status 1 = false →
    (∃ t, exec (.ecall c n) s = .next t ∧ TakesEvent w t c 0x0B pc (n.zeroExtend 64)) ∧
    (∃ t, exec (.ebreak c) s = .next t ∧ TakesEvent w t c 0x0C pc 0) ∧
    (∀ x : Word32, x.toNat / 2 ^ 26 ∈ [0x00, 0x06, 0x07, 0x14, 0x1A, 0x1B, 0x21, 0x28, 0x29, 0x2A, 0x31, 0x39, 0x3F] →
      ∃ t, exec (.illegalInstruction c x) s = .next t ∧ TakesEvent w t c 0x01 pc (x.zeroExtend 64)) ∧
    (n.toNat ∈ [0x00F, 0x011, 0x03F, 0x0C2, 0xFFF] →
      (∃ t, exec (.mfs (.deck c) rd ra n) s = .next t ∧ TakesEvent w t c 0x01 pc ((encS rd ra n 0).zeroExtend 64)) ∧
      (∃ t, exec (.mts (.deck c) rd ra n) s = .next t ∧ TakesEvent w t c 0x01 pc ((encS rd ra n 1).zeroExtend 64))) ∧
    (1 ≤ n.toNat → n.toNat ≤ 9 → (w.core c).level = .task →
      (∃ t, exec (.mfs (.deck c) rd ra n) s = .next t ∧ TakesEvent w t c 0x02 pc ((encS rd ra n 0).zeroExtend 64)) ∧
      (∃ t, exec (.mts (.deck c) rd ra n) s = .next t ∧ TakesEvent w t c 0x02 pc ((encS rd ra n 1).zeroExtend 64)))

/-- ERET at Supervisor or Boot level restores level and status from s.estatus and jumps to s.epc, unless it would raise the
level or names code 0b10, where it raises 0x02 as it does at Task level (R75); WFE goes on at once with an enabled event pending
and stalls otherwise (R67); FENCE completes, and FENCE.I discards the instruction cache (R61, R66). A fetch that hits the
instruction cache changes nothing; one that misses puts its line there, and raises 0x07 where memory holds an uncorrectable
error (R66, R71); a core whose registers hold one faults (R600). That ERET never reaches Boot from below is the model's reading
(log entry 11), and so is what a line of that cache is (log entry 118). -/
def Obligations.eret_wfe_and_fences_complete : Prop :=
  (∀ (s : State) (c : Nat) (rd ra : BitVec 5) (sreg : BitVec 12) (form : BitVec 4), Ready s c →
     let w := s.woken c
     let k := w.core c
     (∀ (l : Level) (code : Nat), (l, code) ∈ [(Level.task, 0), (.supervisor, 1), (.boot, 3)] →
       fld k.estatus 1 0 = code → k.level = .supervisor ∧ l ≠ .boot ∨ k.level = .boot →
       ∃ t, exec (.eret c rd ra sreg) s = .next t ∧ Completes w t c
         { k with level := l, status := BitVec.ofNat 64 (fld k.estatus 3 2), pc := k.epc &&& ~~~3#64 }) ∧
     (flag k.status 1 = false →
       k.level = .task ∨ fld k.estatus 1 0 = 2 ∨ (k.level = .supervisor ∧ fld k.estatus 1 0 = 3) →
       ∃ t, exec (.eret c rd ra sreg) s = .next t ∧ TakesEvent w t c 0x02 k.pc ((encS rd ra sreg 2).zeroExtend 64)) ∧
     (k.level ≠ .task → enabledPending w c ≠ [] →
       ∃ t, exec (.wfe c rd ra sreg) s = .next t ∧ Completes w t c k.onward) ∧
     (k.level ≠ .task → enabledPending w c = [] →
       ∃ t, exec (.wfe c rd ra sreg) s = .next t ∧ Completes w t c { k.onward with run := .wfe }) ∧
     (∃ t, exec (.fence c form) s = .next t ∧ Completes w t c k.onward) ∧
     (∃ t, exec (.fenceI c) s = .next t ∧ Completes (w.dropIcache c) t c k.onward ∧ fetchHit t c = false ∧
       ∀ d, d ≠ c → t.icacheOf d = w.icacheOf d)) ∧
  (∀ (s : State) (c : Nat) (form : BitVec 4) (n : BitVec 12), awake s c = true →
     let u := s.started c
     ((s.core c).broken = false → fetchFault u c = none →
       (fetchHit u c = true → Ready s c ∧ s.woken c = u) ∧
       (∀ key, fetchHit u c = false → locate u c (u.core c).pc.toNat = .mem key →
         let v := reachMem c false false key 4 (u.count (c / 8) (32 * (c % 8) + 2) 1)
         (v.hasBad key 4 = false → Ready s c ∧ fetchHit (s.woken c) c = true ∧ (s.woken c).mem = s.mem) ∧
         (v.hasBad key 4 = true → flag (s.core c).status 1 = false → ∀ i ∈ [Instr.fence c form, .fenceI c, .ecall c n],
           ∃ t, exec i s = .next t ∧ TakesEvent v t c 0x07 (s.core c).pc (BitVec.ofNat 64 (memKind key))))) ∧
     ((s.core c).broken = true → ∀ i ∈ [Instr.fence c form, .fenceI c, .ecall c n],
       exec i s = .next (deckCoreFault c 3 s)))

/-- Between instructions, with s.status.ie set, an executing core takes its lowest pending enabled cause, s.epc the next
instruction (R72, R74); a timer event lets a core that waits for it go on (R67, R69). -/
def Obligations.async_event_takes_the_lowest_cause : Prop :=
  ∀ (s : State) (c cause : Nat) (rest : List Nat),
    (awake s c = true → (s.core c).broken = false → flag (s.core c).status 0 = true → enabledPending s c = cause :: rest →
      (∃ t, exec (.takeAsyncEvent c) s = .next t ∧
        TakesEvent s t c cause 0 (BitVec.ofNat 64 ((pendingInfo s c cause).getD 0))) ∧
      (∀ d, 0x20 ≤ d → d < 0x28 → d ∉ rest → d ≠ cause →
        pendingInfo s c d = none ∨ flag (s.core c).evmask (d - 0x20) = false) ∧ ∀ d ∈ rest, cause < d) ∧
    (c < 8 * s.nslices → s.stopped = false → (s.core c).run = .wfe → (s.core c).timecmp.toNat ≤ 4 * s.now →
      flag (s.core c).evmask 0 = true →
      ∃ t, exec (.timerEventPending c) s = .next t ∧ t.core c = { s.core c with run := .running } ∧ awake t c = true)

/-- A load from a memory the map and the regions allow extends the bytes into rd, and a store writes the low bytes of rs there,
whether the staging cache holds the line or fetches it; no other register of the core, no other core and no other byte of memory
changes. A load of a register page takes the register's doubleword, and an aligned doubleword store there is the register's
(R10, R48, R57, R60, R78, R88, R402). What a set whose tag is lost in both copies does is not said here (R414). -/
def Obligations.loads_and_stores_reach_memory : Prop :=
  (∀ (s : State) (c : Nat) (rd ra : BitVec 5) (size : BitVec 2) (uns : Bool) (off : BitVec 13), Ready s c →
     let w := s.woken c
     let k := w.core c
     let a := k.r ra + off.signExtend 64
     let n := 2 ^ size.toNat
     ¬ (size = 3 ∧ uns = true) → accessFault w c .load a.toNat n = none →
     let extended := fun (v : Nat) => if uns then BitVec.ofNat 64 v else (BitVec.ofNat (8 * n) v).signExtend 64
     (∀ key, locate w c a.toNat = .mem key → (memKind key = 3 → TagsStand w key) →
       (reachMem c false true key n w).hasBad key n = false →
       ∃ t, exec (.ld c rd ra size uns off) s = .next t ∧ (t.core c).r rd = extended (w.num key n) ∧
         (∀ i, i ≠ rd → (t.core c).r i = k.r i) ∧ (t.core c).pc = k.pc + 4 ∧ (∀ d, d ≠ c → t.core d = w.core d) ∧
         (∀ x, t.byte x = w.byte x) ∧ ∀ x, (∀ d, x ≠ cAddr d 0x9818) → t.reg x = w.reg x) ∧
     (∀ fdie d o, locate w c a.toNat = .page fdie d o →
       ∃ t, exec (.ld c rd ra size uns off) s = .next t ∧ (t.core c).r rd = extended (ofLe (pageBytes w fdie d o n)) ∧
         (∀ i, i ≠ rd → (t.core c).r i = k.r i) ∧ (t.core c).pc = k.pc + 4 ∧ ∀ x, t.byte x = w.byte x)) ∧
  (∀ (s : State) (c : Nat) (rs ra : BitVec 5) (size : BitVec 2) (off : BitVec 13), Ready s c →
     let w := s.woken c
     let k := w.core c
     let a := k.r ra + off.signExtend 64
     let n := 2 ^ size.toNat
     accessFault w c .store a.toNat n = none →
     (∀ key, locate w c a.toNat = .mem key →
       (memKind key = 3 → TagsStand w key ∧ (n = 8 ∨ (reachMem c true false key n w).hasBad key n = false)) →
       ∃ t, exec (.st c rs ra size off) s = .next t ∧ t.num key n = (k.r rs).toNat % 2 ^ (8 * n) ∧
         (∀ x, x < key ∨ key + n ≤ x → t.byte x = w.byte x) ∧ (∀ i, (t.core c).r i = k.r i) ∧
         (t.core c).pc = k.pc + 4 ∧ (∀ d, d ≠ c → t.core d = w.core d) ∧
         ∀ x, (∀ d, x ≠ cAddr d 0x9818) → t.reg x = w.reg x) ∧
     (∀ fdie d o, locate w c a.toNat = .page fdie d o → (fdie = true ∨ o < 0x1_0000 ∨ 0x3_0000 ≤ o) → size = 3 →
       guarded fdie d o = false ∨ (k.level = .boot ∧ w.sealed = false) →
       exec (.st c rs ra size off) s = .next (((regStore c fdie d o (k.r rs) w).modCore c
         (fun k => { k with pc := k.pc + 4 })).count (c / 8) (32 * (c % 8)) 1)))

/-- An atomic whose predicate holds returns the old value, sign-extended, in rd and stores its result at the atomic's width;
AMOCAS stores only when the old value equals rd; one whose predicate is false only moves on (R47, R58). -/
def Obligations.atomics_read_modify_write : Prop :=
  ∀ (s : State) (c : Nat) (rd ra rb : BitVec 5) (pred : BitVec 3) (pneg dbl aq rl : Bool), Ready s c →
    let w := s.woken c
    let k := w.core c
    let a := k.r ra
    let n := if dbl then 8 else 4
    (k.execs pred pneg = false → ∀ i ∈ [Instr.amoadd c rd ra rb pred pneg dbl aq rl,
        .amoswap c rd ra rb pred pneg dbl aq rl, .amocas c rd ra rb pred pneg dbl aq rl],
      ∃ t, exec i s = .next t ∧ Completes w t c k.onward) ∧
    (∀ key, k.execs pred pneg = true → accessFault w c .atomic a.toNat n = none → locate w c a.toNat = .mem key →
      (memKind key = 3 → TagsStand w key) → (reachMem c false false key n w).hasBad key n = false →
      let old := w.num key n
      ∀ row ∈ [(Instr.amoadd c rd ra rb pred pneg dbl aq rl, (old + (k.r rb).toNat) % 2 ^ (8 * n)),
          (.amoswap c rd ra rb pred pneg dbl aq rl, (k.r rb).toNat % 2 ^ (8 * n)),
          (.amocas c rd ra rb pred pneg dbl aq rl,
            if old = (k.r rd).toNat % 2 ^ (8 * n) then (k.r rb).toNat % 2 ^ (8 * n) else old)],
        ∃ t, exec row.1 s = .next t ∧ t.num key n = row.2 ∧
          (t.core c).r rd = (BitVec.ofNat (8 * n) old).signExtend 64 ∧ (∀ i, i ≠ rd → (t.core c).r i = k.r i) ∧
          (t.core c).pc = k.pc + 4 ∧ (∀ x, x < key ∨ key + n ≤ x → t.byte x = w.byte x) ∧
          (∀ d, d ≠ c → t.core d = w.core d) ∧ ∀ x, (∀ d, x ≠ cAddr d 0x9818) → t.reg x = w.reg x)

/-- A single access that meets a fault takes the first event of R653's order, with its address and detail, and writes nothing: an
uncorrectable error it reads raises 0x08, one that a smaller store would merge 0x09; an MTS to the protection set-up below Boot
level or after seal raises 0x0D and leaves it as it was, with a fault-log record, and so does a doubleword store to a protected
register (R57, R71, R78, R85, R653). That 0x0D comes after the rest of R653's order is the model's choice (log entry 119). -/
def Obligations.access_faults_take_their_event : Prop :=
  ∀ (s : State) (c : Nat) (rd ra : BitVec 5) (size : BitVec 2) (uns : Bool) (off : BitVec 13) (sreg : BitVec 12),
    Ready s c →
    let w := s.woken c
    let k := w.core c
    let a := k.r ra + off.signExtend 64
    let n := 2 ^ size.toNat
    flag k.status 1 = false →
    (∀ e, ¬ (size = 3 ∧ uns = true) → accessFault w c .load a.toNat n = some e →
      (∃ t, exec (.ld c rd ra size uns off) s = .next t ∧ TakesEvent w t c e.cause e.eaddr e.einfo) ∧
      e.eaddr = a ∧ (a.toNat % n ≠ 0 → e.cause = 3 ∧ e.einfo = 0) ∧
      (a.toNat % n = 0 → regionOk k .load a.toNat = false → e.cause = 5 ∧ e.einfo = BitVec.ofNat 64 n) ∧
      (a.toNat % n = 0 → regionOk k .load a.toNat = true → e.cause = 0x0E ∧ e.einfo = 1)) ∧
    (∀ e, accessFault w c .store a.toNat n = some e →
      (∃ t, exec (.st c rd ra size off) s = .next t ∧ TakesEvent w t c e.cause e.eaddr e.einfo) ∧
      e.eaddr = a ∧ (a.toNat % n ≠ 0 → e.cause = 3 ∧ e.einfo = 1) ∧
      (a.toNat % n = 0 → regionOk k .store a.toNat = false → e.cause = 6 ∧ e.einfo = BitVec.ofNat 64 n) ∧
      (a.toNat % n = 0 → regionOk k .store a.toNat = true → e.cause = 0x0E ∧ e.einfo = 2)) ∧
    (∀ key, memKind key ≠ 4 → locate w c a.toNat = .mem key →
      (let u := reachMem c false true key n w
       ¬ (size = 3 ∧ uns = true) → accessFault w c .load a.toNat n = none → u.hasBad key n = true →
        ∃ t, exec (.ld c rd ra size uns off) s = .next t ∧ TakesEvent u t c 0x08 a (BitVec.ofNat 64 (memKind key))) ∧
      (let u := reachMem c true false key n w
       memKind key = 3 → n < 8 → accessFault w c .store a.toNat n = none → u.hasBad key n = true →
        ∃ t, exec (.st c rd ra size off) s = .next t ∧ TakesEvent u t c 0x09 a 3)) ∧
    (∀ fdie d o, locate w c a.toNat = .page fdie d o → (fdie = true ∨ o < 0x1_0000 ∨ 0x3_0000 ≤ o) → size = 3 →
      accessFault w c .store a.toNat n = none → guarded fdie d o = true → k.level ≠ .boot ∨ w.sealed = true →
      ∃ t, exec (.st c rd ra size off) s = .next t ∧ (t.core c).cause = 0x0D ∧ (t.core c).eaddr = a ∧
        (t.core c).einfo = (if w.sealed then 1 else 0) ∧ ∀ x, t.reg x = w.reg x) ∧
    (0x40 ≤ sreg.toNat → sreg.toNat ≤ 0xC0 → k.level ≠ .boot ∨ w.sealed = true →
      ∃ t, exec (.mts (.deck c) rd ra sreg) s = .next t ∧ (t.core c).cause = 0x0D ∧ (t.core c).eaddr = sreg.zeroExtend 64 ∧
        (t.core c).einfo = (if w.sealed then 1 else 0) ∧ (t.core c).bar = k.bar ∧ (t.core c).rgnBase = k.rgnBase ∧
        (t.core c).rgnAttr = k.rgnAttr ∧ ∃ r ∈ t.flt.recs, r.code = 0x0005 ∧ r.core = 0 ∧ r.unit = c ∧ r.seq = w.flt.head + 1)

/-! The loop profile (R93 to R101). -/

/-- An integer instruction of a loop engine computes on 32 bits, takes its cycles and changes one register, and a compare or
predicate-logic instruction writes one of p1 to p3; a predicated one whose predicate is false changes none (R47, R52 to R54, R56,
R94, R100). -/
def Obligations.loop_integer_and_predicate_results : Prop :=
  (∀ (s : State) (k e : Nat) (rd ra rb : BitVec 5) (pred : BitVec 3) (pneg : Bool) (imm : BitVec 16) (sh : BitVec 6)
     (h : BitVec 2),
     loopAwake s k e = true → rd.toNat ≤ 15 → ra.toNat ≤ 15 → rb.toNat ≤ 15 → pred.toNat ≤ 3 → sh.toNat ≤ 31 →
     h.toNat ≤ 1 →
     let L := Agent.loop k e
     let r := (s.engine k e).r
     let x := r.r ra
     let y := r.r rb
     (∀ row ∈ [
         (Instr.add L rd ra rb pred pneg, 1, x + y), (.sub L rd ra rb pred pneg, 1, x - y),
         (.and L rd ra rb pred pneg, 1, x &&& y), (.or L rd ra rb pred pneg, 1, x ||| y),
         (.xor L rd ra rb pred pneg, 1, x ^^^ y), (.andn L rd ra rb pred pneg, 1, x &&& ~~~y),
         (.sll L rd ra rb pred pneg, 1, x <<< (y.toNat % 32)), (.srl L rd ra rb pred pneg, 1, x >>> (y.toNat % 32)),
         (.sra L rd ra rb pred pneg, 1, x.sshiftRight (y.toNat % 32)),
         (.min L rd ra rb pred pneg, 1, if x.toInt < y.toInt then x else y),
         (.max L rd ra rb pred pneg, 1, if x.toInt < y.toInt then y else x),
         (.minu L rd ra rb pred pneg, 1, if x.toNat < y.toNat then x else y),
         (.maxu L rd ra rb pred pneg, 1, if x.toNat < y.toNat then y else x),
         (.clz L rd ra pred pneg, 1, BitVec.ofNat 32 ((List.range 32).takeWhile (fun i => !x.getMsbD i)).length),
         (.mul L rd ra rb pred pneg, 2, x * y)],
       ∃ t, exec row.1 s = .next t ∧
         EngineBecomes s t k e ((s.engine k e).ran row.2.1 (if r.execs pred pneg then r.setR rd row.2.2 else r))) ∧
     (∀ row ∈ [
         (Instr.sel L rd ra rb pred pneg, if r.execs pred pneg then x else y),
         (.addi L rd ra imm, x + imm.signExtend 32), (.andi L rd ra imm, x &&& imm.zeroExtend 32),
         (.ori L rd ra imm, x ||| imm.zeroExtend 32), (.xori L rd ra imm, x ^^^ imm.zeroExtend 32),
         (.slli L rd ra sh, x <<< sh.toNat), (.srli L rd ra sh, x >>> sh.toNat), (.srai L rd ra sh, x.sshiftRight sh.toNat),
         (.movi L rd imm, imm.signExtend 32),
         (.movk L rd h imm, (r.r rd &&& ~~~(0xFFFF#32 <<< (16 * h.toNat))) ||| imm.zeroExtend 32 <<< (16 * h.toNat)),
         (.mfs L rd ra 0, BitVec.ofNat 32 ((logicalOf s k e).getD e)), (.mfs L rd ra 1, BitVec.ofNat 32 s.frame),
         (.mfs L rd ra 2, BitVec.ofNat 32 ((if r.sat then 1 else 0) + if r.ovf then 2 else 0))],
       ∃ t, exec row.1 s = .next t ∧ EngineBecomes s t k e ((s.engine k e).ran 1 (r.setR rd row.2))) ∧
     (∃ t, exec (.mts L rd ra 2) s = .next t ∧ EngineBecomes s t k e ((s.engine k e).ran 1
       { r with sat := r.sat && !x.getLsbD 0, ovf := r.ovf && !x.getLsbD 1 }))) ∧
  (∀ (s : State) (k e : Nat) (pd pa pb pred : BitVec 3) (ra rb : BitVec 5) (imm : BitVec 16) (pneg : Bool),
     loopAwake s k e = true → pd.toNat ≤ 3 → pa.toNat ≤ 3 → pb.toNat ≤ 3 → pred.toNat ≤ 3 → ra.toNat ≤ 15 →
     rb.toNat ≤ 15 →
     let L := Agent.loop k e
     let r := (s.engine k e).r
     let x := r.r ra
     let y := r.r rb
     (∀ (b : Bool) (i : BitVec 3), i.toNat ≤ 3 →
       (r.setP pd b).pr i = if i = 0 then true else if i = pd then b else r.pr i) ∧
     (∀ row ∈ [
         (Instr.cmpeq L pd ra rb pred pneg, decide (x = y)), (.cmpne L pd ra rb pred pneg, decide (x ≠ y)),
         (.cmplt L pd ra rb pred pneg, decide (x.toInt < y.toInt)), (.cmpltu L pd ra rb pred pneg, decide (x.toNat < y.toNat)),
         (.cmpge L pd ra rb pred pneg, decide (y.toInt ≤ x.toInt)), (.cmpgeu L pd ra rb pred pneg, decide (y.toNat ≤ x.toNat)),
         (.pand L pd pa pb pred pneg, r.pr pa && r.pr pb), (.por L pd pa pb pred pneg, r.pr pa || r.pr pb),
         (.pxor L pd pa pb pred pneg, xor (r.pr pa) (r.pr pb)), (.pandn L pd pa pb pred pneg, r.pr pa && !r.pr pb)],
       ∃ t, exec row.1 s = .next t ∧
         EngineBecomes s t k e ((s.engine k e).ran 1 (if r.execs pred pneg then r.setP pd row.2 else r))) ∧
     (∀ row ∈ [
         (Instr.cmpeqi L pd ra imm, decide (x = imm.signExtend 32)), (.cmplti L pd ra imm, decide (x.toInt < imm.toInt)),
         (.cmpltui L pd ra imm, decide (x.toNat < imm.toNat))],
       ∃ t, exec row.1 s = .next t ∧ EngineBecomes s t k e ((s.engine k e).ran 1 (r.setP pd row.2))))

/-- The fixed-point instructions compute exactly, round half up, saturate to Q1.31 with s.flags.sat sticky, and wrap a 72-bit
accumulator with s.flags.ovf sticky (R95, R96, R100). -/
def Obligations.loop_fixed_point_results : Prop :=
  ∀ (s : State) (k e : Nat) (rd ra rb : BitVec 5) (ak : BitVec 2) (pred : BitVec 3) (pneg : Bool),
    loopAwake s k e = true → rd.toNat ≤ 15 → ra.toNat ≤ 15 → rb.toNat ≤ 15 → pred.toNat ≤ 3 →
    let r := (s.engine k e).r
    let x := (r.r ra).toInt
    let y := (r.r rb).toInt
    let acc := (r.a[ak.toNat]'(ak.isLt)).toInt
    (∀ row ∈ ([
        (Instr.qadd k e rd ra rb pred pneg, 1, x + y), (.qsub k e rd ra rb pred pneg, 1, x - y),
        (.qneg k e rd ra pred pneg, 1, -x), (.qabs k e rd ra pred pneg, 1, |x|),
        (.qmul k e rd ra rb pred pneg, 2, (x * y + 2 ^ 30) / 2 ^ 31),
        (.qshl k e rd ra rb pred pneg, 1, x * 2 ^ ((r.r rb).toNat % 32)),
        (.qrnd k e rd ak pred pneg, 2, (acc + 2 ^ 30) / 2 ^ 31)] : List (Instr × Nat × Int)),
      ∃ t, exec row.1 s = .next t ∧ EngineBecomes s t k e ((s.engine k e).ran row.2.1
        (if !r.execs pred pneg then r
         else if 2 ^ 31 ≤ row.2.2 then ({ r with sat := true } : LoopRegs).setR rd 0x7FFF_FFFF
         else if row.2.2 < -2 ^ 31 then ({ r with sat := true } : LoopRegs).setR rd 0x8000_0000
         else r.setR rd (BitVec.ofInt 32 row.2.2)))) ∧
    (∀ row ∈ ([
        (Instr.aclr k e ak pred pneg, 1, 0), (.ald k e ak ra pred pneg, 1, x * 2 ^ 31),
        (.qmac k e ak ra rb pred pneg, 2, acc + x * y), (.qmsu k e ak ra rb pred pneg, 2, acc - x * y)] :
        List (Instr × Nat × Int)),
      ∃ t, exec row.1 s = .next t ∧ EngineBecomes s t k e ((s.engine k e).ran row.2.1
        (if !r.execs pred pneg then r
         else { r with a := r.a.set ak.toNat (BitVec.ofInt 72 row.2.2) ak.isLt,
                       ovf := r.ovf || decide (row.2.2 < -2 ^ 71 ∨ 2 ^ 71 ≤ row.2.2) })))

/-- LDL and STL reach the aligned item of data memory, modulo 32 KiB, STL not in the parameter window, and no other byte of it
changes; BIQ runs one step on its block: it shifts the delay line, changes no other byte and neither accumulator nor coefficient;
REPEAT sets up its passes, and at the end of a body the next one starts (R93, R95, R96, R97, R99, R100, R212). R99 has the block
word-aligned: that the low two bits of rb are ignored, and that a block past the end of data memory goes on at its start, is the
model's choice (log entry 122). -/
def Obligations.loop_memory_and_repeat : Prop :=
  ∀ (s : State) (k e : Nat) (rd ra rb : BitVec 5) (size : BitVec 2) (uns : Bool) (off : BitVec 13) (pred : BitVec 3)
    (pneg : Bool) (n : BitVec 8) (len : BitVec 5),
    loopAwake s k e = true → rd.toNat ≤ 15 → ra.toNat ≤ 15 → rb.toNat ≤ 15 →
    let x := s.engine k e
    let r := x.r
    let fixed := fun (j : Nat) => 0x7000 ≤ j ∧ j < 0x7800
    (size ≠ 3 →
      let w := 2 ^ size.toNat
      let a := (((r.r ra).toInt + off.toInt) % 0x8000).toNat / w * w
      let v := dmemNum r.dmem a w
      (∃ t, exec (.ldl k e rd ra size uns off) s = .next t ∧ EngineBecomes s t k e (x.ran 2 (r.setR rd
        (if uns then BitVec.ofNat 32 v else (BitVec.ofNat (8 * w) v).signExtend 32)))) ∧
      (fixed a → ∃ t, exec (.stl k e rd ra size off) s = .next t ∧ EngineBecomes s t k e (x.ran 1 r)) ∧
      (¬ fixed a → ∃ t m, exec (.stl k e rd ra size off) s = .next t ∧
        EngineBecomes s t k e (x.ran 1 { r with dmem := m }) ∧
        dmemNum m a w = (r.r rd).toNat % 2 ^ (8 * w) ∧ ∀ j, j < a ∨ a + w ≤ j → Tbl.at m j = Tbl.at r.dmem j)) ∧
    (pred.toNat ≤ 3 →
      (r.execs pred pneg = false → ∃ t, exec (.biq k e rd ra rb pred pneg) s = .next t ∧ EngineBecomes s t k e (x.ran 7 r)) ∧
      (r.execs pred pneg = true →
        let at_ := fun (i : Nat) => ((r.r rb).toNat / 4 * 4 + 4 * i) % 0x8000
        let q := fun i => dmemInt r.dmem (at_ i)
        let z := (q 0 * (r.r ra).toInt + q 1 * q 5 + q 2 * q 6 - q 3 * q 7 - q 4 * q 8 + 2 ^ 29) / 2 ^ 30
        let y : BitVec 32 := if 2 ^ 31 ≤ z then 0x7FFF_FFFF else if z < -2 ^ 31 then 0x8000_0000 else BitVec.ofInt 32 z
        ∃ t m, exec (.biq k e rd ra rb pred pneg) s = .next t ∧
          EngineBecomes s t k e (x.ran 7
            (({ r with dmem := m, sat := r.sat || decide (2 ^ 31 ≤ z ∨ z < -2 ^ 31) } : LoopRegs).setR rd y)) ∧
          (∀ row ∈ [(5, (r.r ra).toInt), (6, q 5), (7, y.toInt), (8, q 7)],
            ¬ fixed (at_ row.1) → dmemInt m (at_ row.1) = row.2) ∧
          ∀ j, (∀ i ∈ [5, 6, 7, 8], j < at_ i ∨ at_ i + 4 ≤ j ∨ fixed (at_ i)) → Tbl.at m j = Tbl.at r.dmem j)) ∧
    (∃ t, exec (.repeat k e n len) s = .next t ∧ EngineBecomes s t k e
      { x with cyc := x.cyc + 1, pc := x.pc + 1, rep := some ⟨x.pc + 1, len.toNat + 1, n.toNat⟩ }) ∧
    (∀ p : Rep, x.rep = some p → x.pc + 1 = p.start + p.len → x.advance =
      if p.left = 0 then { x with pc := x.pc + 1, rep := none } else { x with pc := p.start, rep := some { p with left := p.left - 1 } })

/-- Slot I/O: SAMPLE reads the value latched for the slot and stalls to its arrival phase; at its stall bound it takes the value
before and the stale count rises; EMIT within its limit places its value; SLOTEND within its limit ends the slot, leaves the
engine's registers as they are, and counts each check of the supervision word, a slot that emitted none leaving the counts (R98,
R199, R202, R205, R214, R217, R219). -/
def Obligations.loop_slot_io : Prop :=
  ∀ (s : State) (k e l : Nat) (rd ra : BitVec 5) (ch : BitVec 8),
    loopAwake s k e = true → logicalOf s k e = some l → rd.toNat ≤ 15 → ra.toNat ≤ 15 →
    let x := s.engine k e
    (sampleChannel ch.toNat = true →
      (∃ t, exec (.sample k e rd ch) s = .next t ∧ EngineBecomes s t k e ({ x with
        r := x.r.setR rd (Tbl.at x.inputs ch.toNat), cyc := max (x.cyc + 1) (arrival ch.toNat + 1) } : Engine).advance) ∧
      (∃ t, exec (.sampleStale k e rd ch) s = .next t ∧ t.engine k e = ({ x with
          r := x.r.setR rd (Tbl.at x.before ch.toNat), cyc := max (x.cyc + 1) (stallBound ch.toNat + 1) } : Engine).advance ∧
        t.cf k (lpStatus l) 31 16 = min 0xFFFF (s.cf k (lpStatus l) 31 16 + 1) ∧ t.mem = s.mem ∧ t.cores = s.cores ∧
        (∀ j, j ≠ 16 * k + e → Tbl.at t.engines j = Tbl.at s.engines j) ∧
        ∀ a, a ≠ cAddr k (lpStatus l) → t.reg a = s.reg a)) ∧
    (x.cyc + 1 ≤ emitLimit l ch.toNat → ch ≠ 0xF0 → (isCrossbar ch.toNat || ownsChannel l ch.toNat) = true →
      ∃ t, exec (.emit k e ch ra) s = .next t ∧ EngineBecomes s t k e ({ x with
        cyc := x.cyc + 1, emitted := x.emitted ++ [(ch.toNat, x.r.r ra)] } : Engine).advance) ∧
    (x.cyc + 1 ≤ emitLimit l 0xF0 → ∃ t, exec (.emit k e 0xF0 ra) s = .next t ∧
      EngineBecomes s t k e ({ x with cyc := x.cyc + 1, sup := some (x.r.r ra) } : Engine).advance) ∧
    (x.cyc + 1 ≤ slotLimit l → ∃ t, exec (.slotend k e) s = .next t ∧
      let y := t.engine k e
      y.inSlot = false ∧ y.rep = none ∧ y.sup = none ∧ y.r = x.r ∧ y.emitted = x.emitted ∧ y.committed = x.committed ∧
      y.check = x.check ∧ y.code = x.code ∧ (x.sup = none → y.supCount = x.supCount) ∧
      ∀ (v : Word32) (i : Nat), x.sup = some v → i < 8 →
        Tbl.at y.supCount i = (if v.getLsbD i = false then 0
          else if bitSet (supByte s k l i) 7 = true ∧ max 1 (supByte s k l i % 16) ≤ Tbl.at x.supCount i + 1 then 0
          else Tbl.at x.supCount i + 1))
/-! The slots of the loop engines (R195 to R227). -/

/-- At the first frame of its slot an engine starts at address 0 with what is due of its load and parameters in force, its inputs
latched and a checkpoint of the slot before; at its commit phase what it emitted is committed, unless its outputs are held; a spare
starts from its checkpoint once its copy has ended; a parameter post captures the whole staging area; a release ends a hold at the
next slot (R198, R199, R204, R209, R211, R213, R217, R219, R220). That the programs of engines 1, 3, 4 and 5 publish their words
as the slot starts is the model's choice (log entry 135). -/
def Obligations.loop_slots_start_and_commit : Prop :=
  ∀ (s : State) (k e l : Nat) (given : List (Nat × List Int)), logicalOf s k e = some l → k < s.nslices →
    s.down = false → s.stopped = false → (s.engine k e).fault = false →
    let x := s.engine k e
    let first := x.takeover && x.slotFrame.isNone
    let starts := fun (t : State) =>
      let y := t.engine k e
      y.pc = 0 ∧ y.cyc = 0 ∧ y.rep = none ∧ y.committed = false ∧ y.release = false ∧
      y.held = (x.held && !x.release) ∧ y.slotFrame = some (s.frame / slotLen l * slotLen l) ∧
      y.inSlot = decide (y.code ≠ []) ∧ y.before = x.inputs ∧ (l ∉ [1, 3, 4, 5] → y.emitted = [] ∧ y.sup = none ∧ y.check = y.r) ∧
      (x.load = none → y.code = x.code) ∧
      (∀ q, x.load = some q → frameDue s q.frame = true → y.code = q.code ∧ y.load = none) ∧
      (∀ p, x.param = some p → p.2 + 800 ≤ slotTick s l → y.param = none ∧
        ∀ i, i < 0x800 → ∀ b, p.1[i]? = some b → Tbl.at y.check.dmem (0x7000 + i) = b) ∧
      (∀ ch, sampleChannel ch = true → isCrossbar ch = true →
        (Tbl.get (fun _ => (0, 0)) s.published (256 * k + ch)).1 < slotTick s l →
        Tbl.at y.inputs ch = (s.out k ch).getD 0)
    (slotReady s k e l = true → first = false → ∃ t, exec (.slotStart k e given) s = .next t ∧ starts t) ∧
    (e = 8 → slotReady s k 8 l = true → first = true → ∃ t, exec (.spareStart k given) s = .next t ∧ starts t) ∧
    (∀ (ch : Nat) (v : Word32), x.code ≠ [] → x.slotFrame = some (slotFirst s l) → x.committed = false →
      commitPhase l ≤ slotElapsed s l → x.modes = [] → x.emitted = [(ch, v)] →
      isCrossbar ch = true ∨ fdieDrives s k = true →
      ∃ t, exec (.outputCommit k e) s = .next t ∧
        t.out k ch = (if x.held then s.out k ch else some (if isCrossbar ch then v else outFormat s k ch v)) ∧
        (∀ d, d ≠ ch → t.out k d = s.out k d) ∧ (t.engine k e).committed = true ∧ (t.engine k e).takeover = false ∧
        (t.engine k e).due = some (slotTick s l + 500 * slotLen l + commitPhase l) ∧ (t.engine k e).r = x.r) ∧
    (l < 8 → physicalOf s k l = e →
      (∃ t, exec (.holdRelease k l) s = .next t ∧ t = s.setEngine k e { x with release := x.held }) ∧
      ((∀ i < 0x800, s.eccAt (cAddr k (0x1_0000 + 0x1000 * l) + i) = .clean) →
        ∃ t, exec (.paramPost k l) s = .next t ∧
          t.engine k e = { x with param := some (s.bytes (cAddr k (0x1_0000 + 0x1000 * l)) 0x800, s.now) } ∧
          t.cf k (lpStatus l) 4 4 = 1 ∧ t.mem = s.mem))

/-- An engine fault with the spare free gives the spare the program, the checkpoint and the outputs after a copy of at most 4 µs,
faults the pair, names it in lp.map and raises write inhibit on the heads it serves; so does a SLOTEND past its limit; a failed
spare self-test sets spare_fault, and an expired hold starts the safety sequence (R218, R219, R220, R223, R224). -/
def Obligations.engine_faults_move_to_the_spare : Prop :=
  ∀ (s : State) (k e l : Nat), s.down = false → k < s.nslices → s.stopped = false →
    let x := s.engine k e
    let moved := fun (t : State) =>
      (t.engine k e).fault = true ∧ (t.engine k e).inSlot = false ∧ (t.engine k 8).code = x.code ∧
      (t.engine k 8).r = (if x.inSlot = true ∨ x.slotFrame = some (slotFirst s e) then x.check else x.r) ∧
      (t.engine k 8).takeover = true ∧ (t.engine k 8).emitted = [] ∧ (t.engine k 8).slotFrame = none ∧
      s.now ≤ (t.engine k 8).copyAt ∧ (t.engine k 8).copyAt ≤ s.now + 1600 ∧ spareFor t k = e ∧
      bitSet (t.cf k 0x5000 7 0) e = true ∧ (∀ h ∈ headsOf e, wiRaised t k h = true) ∧ (∀ ch, t.out k ch = s.out k ch)
    (e < 8 → x.fault = false → spareFor s k = 15 → s.cf k 0x5000 12 12 = 0 →
      (∀ memory, ∃ t, exec (.engineFault k e memory) s = .next t ∧ moved t) ∧
      (x.inSlot = true → x.slotFrame ≠ some (slotFirst s e) ∨ slotLimit e ≤ slotElapsed s e →
        ∃ t, exec (.slotendDeadlineMiss k e) s = .next t ∧ moved t)) ∧
    (spareFor s k = 15 → s.cf k 0x5000 12 12 = 0 →
      ∃ t, exec (.spareSelfTestMismatch k) s = .next t ∧ t.cf k 0x5000 12 12 = 1 ∧ t.engines = s.engines ∧
        ∃ r ∈ t.flt.recs, r.code = 0x0011 ∧ r.unit = 8 ∧ r.detail = 4 ∧ r.seq = s.flt.head + 1) ∧
    (∀ due, l < 8 → (s.seq k).run = false → (s.engine k (physicalOf s k l)).due = some due → due + holdLimit l ≤ s.now →
      ∃ t, exec (.holdLimitExpiry k l) s = .next t ∧ (t.seq k).run = true ∧ wiRaised t k 0 = true ∧ wiRaised t k 1 = true ∧
        ∀ ch, laserChannel ch = true → t.out k ch = none)

/-! Device operations (R91 to R146). -/

/-- A device operation without its right raises 0x02, one with a modifier that is not listed 0x01, and one whose memory operand
a region refuses 0x05 or 0x06, each with no effect; LOADL and XFER that meet their own conditions take effect at the slot they
answer with (R80, R84, R103, R104, R139, R140, R209, R215). -/
def Obligations.device_operation_checks_and_loop_requests : Prop :=
  ∀ (s : State) (c : Nat) (rd ra rb : BitVec 5) (xmod : BitVec 6) (xhi : BitVec 5), Ready s c →
    let w := s.woken c
    let x := w.core c
    let a := (x.r ra).toNat
    let b := (x.r rb).toNat
    let k := c / 8
    (flag x.status 1 = false →
      (barAllows x 7 = false → ∃ t, exec (.loadl c rd ra rb xmod) s = .next t ∧
        TakesEvent w t c 0x02 x.pc ((encX rd ra rb 0x11 xmod).zeroExtend 64)) ∧
      (barAllows x 7 = true → xmod ≠ 0 → ∃ t, exec (.loadl c rd ra rb xmod) s = .next t ∧
        TakesEvent w t c 0x01 x.pc ((encX rd ra rb 0x11 xmod).zeroExtend 64)) ∧
      (barAllows x 7 = true → ∀ e, (loadSpans c w a b).findSome? (spanFault x) = some e →
        ∃ t, exec (.loadl c rd ra rb 0) s = .next t ∧ TakesEvent w t c 0x05 e.eaddr e.einfo)) ∧
    (∀ (h key : Nat) (img : List Byte) (u : State), MayIssue s c 0x11 0 (loadSpans c w a b) → a < 8 → b % 64 = 0 →
      let len := if headerRange (w.bytes h 64) then imageLen (w.bytes h 64) else 64
      let e := physicalOf w k a
      let y := w.engine k e
      let at_ := servedFrom w a y + 1000
      let f := slotFrom a at_
      let n := leAt img 8 4
      placeOf w c b 64 false = some h → placeOf w c b len false = some key → readImage c key w = (some img, u) →
      y.fault = false → y.load = none → fready u k = true → loadRefusal a (claimedBy u k a) img = none →
      let q : LoadReq := ⟨wordsOf n (img.drop 192), loopTable img, img.drop (192 + 4 * n), leAt img 16 2, f⟩
      let due := if y.code = [] ∧ y.due = none then some (slotTickFrom a at_ + commitPhase a) else y.due
      Succeeds s (.loadl c rd ra rb 0) c rd f
        ((u.setEngine k e { y with load := some q, due := due }).setCf k (lpStatus a) 5 5 1)) ∧
    (∀ (l n : Nat), l < 8 → n < (loopChannels l).length → a = l + 16 * n →
      let e := physicalOf w k l
      let y := w.engine k e
      let f := slotFrom l (servedFrom w l y + 1)
      y.fault = false →
      (MayIssue s c 0x12 (2 * xhi.toNat) [] → b < 2 ^ 32 → Succeeds s (.xferManual c rd ra rb xhi) c rd f
        (w.setEngine k e { y with xfers := y.xfers ++ [⟨n, some (BitVec.ofNat 32 b), f⟩] })) ∧
      (MayIssue s c 0x12 (2 * xhi.toNat + 1) [] → b = 0 → Succeeds s (.xferAuto c rd ra rb xhi) c rd f
        (w.setEngine k e { y with xfers := y.xfers ++ [⟨n, none, f⟩] })))

/-- BALLOC takes the lowest free index for its caller, zeroed when asked; BSHARE adds an owner; BRELEASE takes the caller out;
BFREE frees the buffer and advances its generation; bp.min takes a minimum that leaves the sum at most 28,640 (R113, R383). -/
def Obligations.buffer_operations : Prop :=
  ∀ (s : State) (c : Nat) (rd ra rb : BitVec 5) (xmod : BitVec 6),
    let w := s.woken c
    let a := ((w.core c).r ra).toNat
    let b := ((w.core c).r rb).toNat
    let d := handleDie a
    let i := handleIndex a
    let x := w.buf d i
    let id := xmod.toNat
    (∀ n, MayIssue s c 0x00 id [] → a < 8 → b = 0 → a / 2 < w.nslices → mayName c id = true →
      lowestFree w (a / 2) = some n → compatRefuses w (a / 2) id = false →
      let g := (w.buf (a / 2) n).gen
      let t := w.setBuf (a / 2) n { gen := g, owners := [id] }
      Succeeds s (.balloc c rd ra rb xmod) c rd (a / 2 * 2 ^ 23 + n * 2 ^ 8 + g.toNat)
        ((if a % 2 = 1 then zeroFill (gddrBase (a / 2) + n * 0x2_0000) 0x2_0000 t else t).count (a / 2) 320 1)) ∧
    (handleOk w a = true → mayName c id = true → x.gen.toNat = handleGen a → id ∈ x.owners →
      (MayIssue s c 0x01 id [] → b ≤ 59 → b ∉ x.owners → x.owners.length < 4 →
        Succeeds s (.bshare c rd ra rb xmod) c rd 0 (w.setBuf d i { x with owners := x.owners ++ [b] })) ∧
      (MayIssue s c 0x02 id [] → b = 0 → x.owners.length ≠ 1 →
        Succeeds s (.brelease c rd ra rb xmod) c rd 0
          (w.setBuf d i { x with owners := x.owners.filter (fun o => o != id) })) ∧
      (MayIssue s c 0x03 id [] → b = 0 → x.owners = [id] → bufBusy w a = false →
        Succeeds s (.bfree c rd ra rb xmod) c rd 0 ((w.setBuf d i { gen := x.gen + 1, owners := [] }).count d 322 1)) ∧
      (MayIssue s c 0x03 id [] → b = 0 → x.owners.length ≠ 1 →
        Fails s (.bfree c rd ra rb xmod) c rd 0x06 0 (logMisuse c id a 0x06 w))) ∧
    (∀ (d : Nat) (o : BitVec 6) (v : BitVec 15), d < s.nslices → o.toNat < 60 → s.down = false →
      let sum := (((List.range 60).filter (fun p => p != o.toNat)).map (fun p => s.cf d (0x3100 + 8 * p) 14 0)).sum + v.toNat
      (sum ≤ 28640 ∨ v.toNat ≤ s.cf d (0x3100 + 8 * o.toNat) 14 0 → exec (.bpMinWrite d o v) s = .next (s.setCf d (0x3100 + 8 * o.toNat) 14 0 v.toNat)) ∧
      (28640 < sum → s.cf d (0x3100 + 8 * o.toNat) 14 0 < v.toNat →
        exec (.bpMinWrite d o v) s = .next (s.setCf d 0x3008 32 32 1)))

/-- QTAKE delivers the eligible command of its drive with the earliest key, which has then started, and writes its record;
QDEFER returns a started command to its queue, or reports a not-before time at or past the deadline; a deferred command can be
taken again from its time (R118, R119, R123). -/
def Obligations.qtake_and_qdefer : Prop :=
  ∀ (s : State) (c : Nat) (rd ra rb : BitVec 5) (i : Nat) (x : Slot),
    let w := s.woken c
    let a := ((w.core c).r ra).toNat
    let b := ((w.core c).r rb).toNat
    (∀ key, MayIssue s c 0x04 0 [⟨a, 128, false, true⟩] → a % 128 = 0 → b = 0 → placeOf w c a 128 true = some key →
      (nextCommand w (c / 8) = some (i, x) →
        Succeeds s (.qtake c rd ra rb 0) c rd (w.tagOf i) (writeOperand c key (takeRecord128 w i)
          (w.modSlot i (fun x => { x with phase := .taken, takenBy := some c, takenAt := w.time }))) ∧
        (i, x) ∈ eligibleOn w (c / 8) ∧ ∀ e ∈ eligibleOn w (c / 8), x.key ≤ e.2.key) ∧
      (eligibleOn w (c / 8) = [] → Fails s (.qtake c rd ra rb 0) c rd 0x10 0 w)) ∧
    (MayIssue s c 0x06 0 [] → tagSlot w a = .inl i → w.slot i = x → x.phase = .taken → x.posting = false →
      (b < x.d → Succeeds s (.qdefer c rd ra rb 0) c rd 0
        (w.setSlot i { x with phase := .queued, notBefore := b, service := serviceOf w x })) ∧
      (x.d ≤ b → Fails s (.qdefer c rd ra rb 0) c rd 0x13 0 w)) ∧
    (s.slot i = x → x.phase = .queued → x.notBefore ≤ s.time →
      exec (.deferTimeReached i) s = .next (s.setSlot i { x with notBefore := 0 }))

/-- QDONE of either form is accepted with a well-formed block and list that name a started command, and ends with its tag in
the issuing core's completion queue, its result written and, for a POST of a live command, the command complete (R120 to R122,
R147). -/
def Obligations.qdone_starts_and_ends : Prop :=
  (∀ (s : State) (c : Nat) (rd ra rb : BitVec 5) (xhi : BitVec 5) (post : Bool) (key i : Nat) (bs lb : List Byte)
      (u v : State) (es : List XferEntry),
    let w := s.woken c
    let a := ((w.core c).r ra).toNat
    let b := ((w.core c).r rb).toNat
    let xmod := 2 * xhi.toNat + if post then 1 else 0
    let n := leAt bs 24 2
    let list := leAt bs 16 8
    let status := leAt bs 6 2
    MayIssue s c 0x05 xmod (doneSpans c w a b) → a % 32 = 0 → b = 0 → placeOf w c a 32 true = some key →
    readOperand c key 28 w = (some bs, u) → n ≤ 64 → list % 8 = 0 → leAt bs 26 2 = 0 → status % 2 = 0 →
    (post = true → ¬ (bitsOf status 11 9 = 7 ∧ bitsOf status 8 1 = 0x81)) →
    ((n = 0 ∧ lb = [] ∧ v = u) ∨
      (1 ≤ n ∧ ∃ lk, placeOf u c list (8 * n) false = some lk ∧ readOperand c lk (8 * n) u = (some lb, v))) →
    (List.range n).map (fun j => xferEntry v (c / 8) ((lb.drop (8 * j)).take 8)) = es.map some →
    tagSlot v (leAt bs 0 4) = .inl i → (v.slot i).phase = .taken → (post = true → (v.slot i).posting = false) →
    ((v.slot i).job = true → post = true ∧ n = 0) →
    let y := v.modSlot i (fun x => { x with posting := x.posting || post })
    let q : Xfer := ⟨v.tagOf i, leAt bs 4 2, c, key, post, status, leAt bs 8 4, leAt bs 12 4, es, none⟩
    let t := { y with adm := { y.adm with xfers := y.adm.xfers ++ [q] } }
    Succeeds s (if post then .qdonePost c rd ra rb xhi else .qdoneData c rd ra rb xhi) c rd 0 t) ∧
  (∀ (s : State) (n : Nat) (err : Bool) (moved : Nat) (data : List Byte) (x : Xfer), s.adm.xfers[n]? = some x →
    let i := x.tag % 2 ^ 14
    CacheSound s → ∃ t, exec (.qdoneEnd n err moved data) s = .next t ∧ t.adm.xfers = s.adm.xfers.eraseIdx n ∧
      x.ctag ∈ (t.core x.core).cq ++ (t.core x.core).cqWait ∧
      (x.post = true → x.stop = none → s.tagOf i = x.tag → (s.slot i).live = true →
        (t.slot i).phase = .ended ∧ (t.slot i).ended = .firmware ∧ (t.slot i).held = 0) ∧
      (2 ^ 36 ≤ x.area → x.area % 32 = 0 → s.eccAt (x.area + 28) ≠ .bad → x.list = [] →
        t.num (x.area + 28) 2 = match x.stop with
          | some .guard => 2
          | some _ => 3
          | none => if err then 4 else 1))

/-- GRANT takes the whole count from the pools or nothing, or enters the arbiter's order under a ticket; GRETURN gives back no more
than the tag holds; each lets waiting requests be considered again; every 100 µs the pools refill at their rates to their caps;
measured energy is charged to what is held and then to the pools; a read of ab.ntc takes the oldest notice (R124, R480, R481, R482,
R483). That a tag whose command has ended answers 0x11, and that a holding counts in whole pennants, are the model's readings (log
entries 121 and 143). -/
def Obligations.budget_operations : Prop :=
  ∀ (s : State) (c : Nat) (rd ra rb : BitVec 5) (xhi : BitVec 5) (own : Bool),
    let w := s.woken c
    let a := ((w.core c).r ra).toNat
    let b := ((w.core c).r rb).toNat
    let named := b = noTag ∨ ∃ i, tagSlot w b = .inl i
    (MayIssue s c 0x07 (2 * xhi.toNat) [] → 1 ≤ a → a ≤ 4096 → named →
      (grantOk a (grantKey w b) w.adm.tickets w = true →
        Succeeds s (.grantImmediate c rd ra rb xhi) c rd a (reconsider (grantTo c b a w)) ∧
        (grantTo c b a w).adm.heat = w.adm.heat - (a * 10000 : Nat) ∧
        (grantTo c b a w).heldBy c b = w.heldBy c b + a * 10000) ∧
      (grantOk a (grantKey w b) w.adm.tickets w = false →
        Fails s (.grantImmediate c rd ra rb xhi) c rd 0x18 0 (reconsider w))) ∧
    (MayIssue s c 0x07 (2 * xhi.toNat + 1) [] → 1 ≤ a → a ≤ 4096 → named →
      let fits := (a * 10000 : Nat) ≤ w.capHeat ∧ (w.keepsSupply = true → (a * 10000 : Nat) ≤ w.capSupply)
      let open' := (w.adm.tickets.filter (fun t => decide (t.core / 8 = c / 8))).length
      let id := freeTicket w
      let q : Ticket := ⟨id, c, b, a, grantKey w b⟩
      (¬ fits → Fails s (.grantQueued c rd ra rb xhi) c rd 0x18 0 w) ∧
      (fits → open' < 64 → Succeeds s (.grantQueued c rd ra rb xhi) c rd id
        (reconsider { w with adm := { w.adm with tickets := w.adm.tickets ++ [q], nextTicket := (id + 1) % 65536 } })) ∧
      (fits → 64 ≤ open' → Fails s (.grantQueued c rd ra rb xhi) c rd 0x1A 0 w)) ∧
    (MayIssue s c 0x08 0 [] → 1 ≤ a → a ≤ 4096 → b = noTag ∨ (b < 2 ^ 22 ∧ (w.slotOfTag b).isSome) →
      let held := w.heldBy c b
      (a * 10000 ≤ held → Succeeds s (.greturn c rd ra rb 0) c rd ((held - a * 10000) / 10000)
        (giveBack (a * 10000) (setHeld c b (held - a * 10000) w))) ∧
      (held < a * 10000 → Fails s (.greturn c rd ra rb 0) c rd 0x19 0 w)) ∧
    (let h := s.adm.fixedHist ++ [fixedNow s]
     let u := { s with adm := { s.adm with fixedHist := h.drop (h.length - 1000) } }
     exec .poolRefill s = .next (releaseMode (reconsider { u with adm := { u.adm with
        heat := min (s.adm.heat + u.rateHeat) u.capHeat
        sup := if s.keepsSupply then min (s.adm.sup + u.rateSupply) u.capSupply else s.adm.sup } }))) ∧
    (∀ k, k < s.nslices →
      let measured := sliceEnergy s k
      let charged := measured - fixedShare s k
      ∃ t rest, exec (.energyCharge k) s = .next t ∧ rest ≤ charged ∧
        t.adm.heat = s.adm.heat - (rest : Int) ∧ Tbl.at t.adm.unheld k = Tbl.at s.adm.unheld k + rest ∧
        t.adm.sup = (if s.keepsSupply then s.adm.sup - (rest : Int) else s.adm.sup) ∧
        (s.liveSlots = [] → s.adm.accounts = [] → rest = charged) ∧
        t.cf 0 (0xD180 + 8 * k) 15 0 = min 65535 measured ∧ t.cf 0 (0xD180 + 8 * k) 31 16 = min 65535 charged ∧
        t.cores = s.cores ∧ t.mem = s.mem) ∧
    (MayAccess s c .load own false (c / 8) (0xC800 + 8 * (c % 8)) false →
      exec (.noticePop c own rd) s = .next ((s.started c).setCore c
        (((s.started c).core c).popNotice.setR rd (noticeWord ((s.started c).core c)))))

/-- At its guard instant a command not yet complete is ended as Deadline Reached and holds nothing; a late drain is recorded
once a key; adm.ctc puts the named shadow tables in force; adm.drn subtracts; a job request is refused, or enters its drive's
queue (R122, R464, R467, R475, R477, R478). -/
def Obligations.admission_events : Prop :=
  ∀ (s : State),
    (∀ i, (s.slot i).live = true → guardOf (s.slot i).d ≤ s.time →
      (∀ e ∈ s.liveSlots, guardOf e.2.d = guardOf (s.slot i).d → (s.slot i).order ≤ e.2.order) →
      ∃ t, exec (.guardInstant i) s = .next t ∧ (t.slot i).phase = .ended ∧ (t.slot i).ended = .guard ∧ (t.slot i).held = 0 ∧
        t.adm.overrunCount = s.adm.overrunCount + 1 + b2n (decide ((s.slot i).energy * 10000 < (s.slot i).spent))) ∧
    (∀ k, k < s.nslices → 0 < Tbl.at s.adm.stagedW k → drainPulls s k ≠ [] → drainKey s k ≤ s.time →
      Tbl.at s.adm.drainSeen k ≠ drainKey s k →
      ∃ t r, exec (.drainKeyPasses k) s = .next t ∧ t.adm.overruns.getLast? = some r ∧ r.kind = 4 ∧ r.cls = 0xFF ∧
        r.drive = k ∧ t.adm.overrunCount = s.adm.overrunCount + 1 ∧ Tbl.at t.adm.drainSeen k = drainKey s k) ∧
    (∀ mask : BitVec 4, ∃ t, exec (.costTableCommit mask) s = .next t ∧ ∀ k i, k < s.nslices → i < 128 →
      let force := fun (u : State) => Tbl.get (fun a => BitVec.ofNat 64 (ctRef (a % 128))) u.adm.ctab (128 * k + i)
      force t = if mask.getLsbD k then s.reg (cAddr 0 (0xB000 + 0x400 * k + 8 * i)) else force s) ∧
    (∀ (k : Nat) (wr : BitVec 16) (ho : BitVec 32), k < s.nslices → ∃ t, exec (.drainSubtract k wr ho) s = .next t ∧
      Tbl.at t.adm.stagedW k = Tbl.at s.adm.stagedW k - wr.toNat ∧ Tbl.at t.adm.stagedH k = Tbl.at s.adm.stagedH k - ho.toNat ∧
      (∀ j, j ≠ k → Tbl.at t.adm.stagedW j = Tbl.at s.adm.stagedW j)) ∧
    (∀ (c : Nat) (own : Bool), MayAccess s c .store own false 0 (0xA100 + 0x40 * c + 0x20) false →
      let off := 0xA100 + 0x40 * c
      let k := s.cf 0 (off + 8) 1 0
      let cost := s.cf 0 (off + 8) 63 32
      let deadline := (s.reg (cAddr 0 (off + 0x10))).toNat
      let d := deadline / 100000 * 100000
      let ask : Ask := ⟨k, false, 0x100, 0, 0, false, false, cost, s.cf 0 (off + 8) 31 16⟩
      (s.nslices ≤ k ∨ s.cf 0 (off + 8) 15 2 ≠ 0 ∨ deadline < s.time + cost * 1000 →
        ∃ t, exec (.jobRequest c own) s = .next t ∧ t.cf 0 (off + 0x28) 3 0 = 5 ∧
          t.adm.jobsRefused = s.adm.jobsRefused + 1 ∧ t.adm.slots = s.adm.slots) ∧
      (∀ i, k < s.nslices → s.cf 0 (off + 8) 15 2 = 0 → s.time + cost * 1000 ≤ deadline → freeSlot s = some i →
        timeTest (s.started c) ask d = true → energyTest (s.started c) ask d = true →
        ∃ t, exec (.jobRequest c own) s = .next t ∧ t.cf 0 (off + 0x28) 3 0 = 1 ∧ t.adm.jobsAccepted = s.adm.jobsAccepted + 1 ∧
          (t.slot i).phase = .queued ∧ (t.slot i).job = true ∧ (t.slot i).drive = k ∧ (t.slot i).d = d))

/-- SNAP arms one snapshot, local or ring-wide, and refuses a second; the latch copies every counter unit and takes the armed
epoch; SNAPRD writes one unit's shadow and answers its epoch, or 0x22 for another epoch than the expected one (R125, R126,
R572, R573, R612, R625). -/
def Obligations.snapshots_arm_latch_and_read : Prop :=
  ∀ (s : State) (c : Nat) (rd ra rb : BitVec 5) (xmod : BitVec 6) (xhi : BitVec 5),
    let w := s.woken c
    let a := ((w.core c).r ra).toNat
    let b := ((w.core c).r rb).toNat
    let e := w.snap.localNext
    let n := (w.cf 0 0xF028 30 0 + 1) % 2 ^ 31
    (MayIssue s c 0x09 (2 * xhi.toNat) [] → b = 0 → a ≤ w.time + 10000000000 →
      (w.snapPending = false → Succeeds s (.snapLocal c rd ra rb xhi) c rd e { w with snap := { w.snap with
        pending := some ⟨if a ≤ w.time then w.now + 1 else ceilDiv (2 * a) 5, e⟩
        localNext := if e = 0x7FFF_FFFF then 1 else e + 1 } }) ∧
      (w.snapPending = true → Fails s (.snapLocal c rd ra rb xhi) c rd 0x20 0 w)) ∧
    (MayIssue s c 0x09 (2 * xhi.toNat + 1) [] → b = 0 → w.snapPending = false →
      (w.formed = true → w.cf 0 0xF008 17 17 = 1 → w.ringTime + 2 * w.rot ≤ a →
        ∃ t, Succeeds s (.snapRing c rd ra rb xhi) c rd (0x8000_0000 + n) t ∧ t.snap.ring = some ⟨a, n, w.pos⟩ ∧
          t.cf 0 0xF028 31 0 = 2 ^ 31 + n ∧ t.cf 0 0xF028 33 33 = 0 ∧ t.reg (cAddr 0 0xF030) = (w.core c).r ra ∧
          t.ring.out.length = w.ring.out.length + 2 ∧ t.mem = w.mem ∧ t.snap.count = w.snap.count ∧ t.snap.pending = none ∧ t.snap.value = w.snap.value) ∧
      (w.formed = true → w.cf 0 0xF008 17 17 = 1 → a < w.ringTime + 2 * w.rot →
        Fails s (.snapRing c rd ra rb xhi) c rd 0x21 0 w) ∧
      (w.formed = false → Fails s (.snapRing c rd ra rb xhi) c rd 0x23 0 w)) ∧
    (s.snap.ring = none → ∀ q, s.snap.pending = some q → q.tick ≤ s.now →
      ∃ t, exec .snapshotLatch s = .next t ∧ t.snap.pending = none ∧ t.snap.epoch = q.epoch ∧ t.snap.tlatch = s.time ∧
        t.snap.rtime = 0 ∧ t.snap.prev = s.snap.value ∧ t.snap.count = s.snap.count ∧
        (∀ c, c < 8 * s.nslices → Tbl.at t.snap.value (1024 * (c / 8) + 32 * (c % 8) + 1) = BitVec.ofNat 64 (4 * s.now)) ∧
        ∀ u, (∀ c, c < 8 * s.nslices → u ≠ 1024 * (c / 8) + 32 * (c % 8) + 1) →
          Tbl.at t.snap.value u = Tbl.at s.snap.count u) ∧
    (s.snap.pending = none → ∀ r, s.snap.ring = some r → r.time ≤ s.ringTime →
      ∃ t, exec .snapshotLatch s = .next t ∧ t.snap.ring = none ∧ t.snap.epoch = 0x8000_0000 + r.n ∧
        t.snap.rtime = r.time ∧ t.cf 0 0xF028 31 31 = 0 ∧ t.snap.prev = s.snap.value) ∧
    (∀ key, MayIssue s c 0x0A xmod.toNat [⟨b, 64, false, true⟩] → b % 64 = 0 → placeOf w c b 64 true = some key →
      bitsOf a 31 13 = 0 → dieExists w (a % 8) = true → unitExists (a % 8) (bitsOf a 12 3) = true →
      let e := w.snap.epoch
      (bitsOf a 63 32 = e ∨ xmod.toNat % 2 = 0 →
        Succeeds s (.snaprd c rd ra rb xmod) c rd e (writeOperand c key (shadowBytes w (a % 8) (bitsOf a 12 3)) w)) ∧
      (bitsOf a 63 32 ≠ e → xmod.toNat % 2 = 1 → Fails s (.snaprd c rd ra rb xmod) c rd 0x22 0 w))

/-- CINV.R discards the dirty data of the lines in a range, but writes a dirty sub-block of a sectored partition back first, and CCLEAN.R
writes dirty lines back, each acting on every line and sub-block of the range; CLOCKW locks a way as a scratchpad, which then reads
as never written, or for a range, and unlocks it, each with its result; ranges and ways outside the rules answer 0x28, a way in the
wrong state 0x29 (R90, R127, R130, R404, R407). That the operand checks of rb come before 0x28 is the model's reading (log entry
104), and that CCLEAN.R counts sub-blocks among the lines it writes back too (log entry 105). -/
def Obligations.cache_range_and_way_operations : Prop :=
  ∀ (s : State) (c : Nat) (rd ra rb : BitVec 5) (xmod : BitVec 6) (xhi : BitVec 5) (x4 : BitVec 4),
    let w := s.woken c
    let a := ((w.core c).r ra).toNat
    let b := ((w.core c).r rb).toNat
    let d := c / 8
    let inRange := fun (l : Line) => decide (a ≤ l.addr) && decide (l.addr < a + b)
    let ls := w.cache.lines.filter inRange
    let locked := (ls.filter (inLockedWay w)).length
    let inWay := w.cache.lines.filter (fun l => l.die == d && l.way == a)
    let emptied := inWay.foldl (fun u l => evictLine l u) w
    let pad := fun (i : Nat) => scratchBase d + (a - 8) * 0x20_0000 ≤ i ∧ i < scratchBase d + (a - 7) * 0x20_0000
    let lock := (w.way d a).lock
    let relock := fun (u : State) (x : Lock) => u.setWay d a { w.way d a with lock := x }
    (MayIssue s c 0x0B xmod.toNat [] →
      (rangeOk w a b = true → Succeeds s (.cinvR c rd ra rb xmod) c rd locked
        (ls.foldl (fun u l => if l.way < 4 then evictLine l u else discardLine l u) w)) ∧
      (rangeOk w a b = false → Fails s (.cinvR c rd ra rb xmod) c rd 0x28 0 w)) ∧
    (MayIssue s c 0x0C (2 * xhi.toNat) [] →
      (rangeOk w a b = true → Succeeds s (.ccleanR c rd ra rb xhi) c rd (ls.filter Line.dirty).length
        ((ls.filter Line.dirty).foldl (fun u l => cleanLine l u) w)) ∧
      (rangeOk w a b = false → Fails s (.ccleanR c rd ra rb xhi) c rd 0x28 0 w)) ∧
    (MayIssue s c 0x0C (2 * xhi.toNat + 1) [] →
      (rangeOk w a b = true → Succeeds s (.ccleanInvR c rd ra rb xhi) c rd locked
        (ls.foldl (fun u l => evictLine l u) w)) ∧
      (rangeOk w a b = false → Fails s (.ccleanInvR c rd ra rb xhi) c rd 0x28 0 w)) ∧
    (8 ≤ a → a < 16 →
      (MayIssue s c 0x0D (4 * x4.toNat) [] → b = 0 →
        (lock = .scratch → ∃ t, Succeeds s (.clockwUnlock c rd ra rb x4) c rd 0 t ∧
          t = relock (forgetScratch d a w) .none ∧ ∀ i, t.byte i = if pad i then 0 else w.byte i) ∧
        (∀ r, lock = .range r → Succeeds s (.clockwUnlock c rd ra rb x4) c rd 0
          (relock (inWay.foldl (fun u l => cleanLine l u) w) .none)) ∧
        (lock = .none → Fails s (.clockwUnlock c rd ra rb x4) c rd 0x29 0 w)) ∧
      (MayIssue s c 0x0D (4 * x4.toNat + 1) [] → b = 0 →
        (lock = .none → ∃ t, Succeeds s (.clockwScratchpad c rd ra rb x4) c rd 0 t ∧
          t = relock (forgetScratch d a emptied) .scratch ∧ ∀ i, t.byte i = if pad i then 0 else w.byte i) ∧
        (lock ≠ .none → Fails s (.clockwScratchpad c rd ra rb x4) c rd 0x29 0 w)) ∧
      (MayIssue s c 0x0D (4 * x4.toNat + 2) [] → b % 0x20_0000 = 0 → gddrBase d ≤ b →
        b + 0x20_0000 ≤ gddrBase d + 0xE000_0000 →
        let held := emptied.cache.lines.filter (fun l => decide (b ≤ l.addr) && decide (l.addr < b + 0x20_0000))
        (lock = .none → Succeeds s (.clockwRangeLock c rd ra rb x4) c rd 0
          (relock (held.foldl (fun u l => evictLine l u) emptied) (.range b))) ∧
        (lock ≠ .none → Fails s (.clockwRangeLock c rd ra rb x4) c rd 0x29 0 w))) ∧
    (a < 8 → b = 0 →
      (MayIssue s c 0x0D (4 * x4.toNat) [] → Fails s (.clockwUnlock c rd ra rb x4) c rd 0x28 0 w) ∧
      (MayIssue s c 0x0D (4 * x4.toNat + 1) [] → Fails s (.clockwScratchpad c rd ra rb x4) c rd 0x28 0 w))
/-- MAPLOOK answers the frame address of a block's version with its flags; MAPCOMMIT enters a durable-ready version, which then
is the block's newest and unflagged, and refuses another version (0x33) or a frame not ready (0x34) (R132, R133, R356,
R365, R373). Whether either meets an uncorrectable word of the map engine's own buffers is free (R420; log entry 139), and that
rb[62:0] must be 0 with rb[63] set is the model's reading (log entry 124). -/
def Obligations.maplook_and_mapcommit : Prop :=
  ∀ (s : State) (c : Nat) (rd ra rb : BitVec 5) (xmod : BitVec 6),
    let w := s.woken c
    let k := c / 8
    let u := readTables k w
    let m := u.map k
    let a := ((w.core c).r ra).toNat
    let b := ((w.core c).r rb).toNat
    let latest := b = 2 ^ 63
    (badWord w (gddrBase k + 28640 * 0x2_0000) (32 * 0x2_0000) = none → u = w) ∧
    (MayIssue s c 0x0E xmod.toNat [] → a < lbnCount → latest ∨ b < 64 →
      let v := if latest then m.topEntry a else b
      (m.mstate < 2 → Fails s (.maplook c rd ra rb xmod) c rd 0x30 0 u) ∧
      (2 ≤ m.mstate → latest → m.written a = false → Succeeds s (.maplook c rd ra rb xmod) c rd
        (b2n (m.flags.contains (a, 0)) * 2 ^ 37 + homeOf a) u) ∧
      (2 ≤ m.mstate → b < 64 ∨ m.written a = true →
        (∀ p, m.place a v = some p → Succeeds s (.maplook c rd ra rb xmod) c rd
          (b2n (m.flags.contains (a, v)) * 2 ^ 37 + b2n (m.written a) * 2 ^ 36 + v * 2 ^ 30 + p) u) ∧
        (m.place a v = none → Fails s (.maplook c rd ra rb xmod) c rd 0x31 0 u))) ∧
    (MayIssue s c 0x0F xmod.toNat [] → a < lbnCount → b < 2 ^ 36 → 2 ≤ m.mstate →
      let pfa := b % 2 ^ 30
      let v := b / 2 ^ 30
      (m.mstate = 2 → m.ready pfa = true → v = m.nextVersion a → (v = 0 → pfa = homeOf a) →
        (0 < v → m.entries.length < 524288) →
        ∃ t, Succeeds s (.mapcommit c rd ra rb xmod) c rd (m.next % 2 ^ 32) t ∧ (t.map k).place a v = some pfa ∧
          (t.map k).topEntry a = v ∧ (t.map k).written a = true ∧ (a, v) ∉ (t.map k).flags ∧
          (t.map k).next = m.next + (if m.flags.contains (a, v) then 2 else 1) ∧
          ∀ a', a' / 30 ≠ a / 30 → ∀ v', (t.map k).place a' v' = m.place a' v') ∧
      (m.mstate = 2 → m.ready pfa = true → v ≠ m.nextVersion a →
        Fails s (.mapcommit c rd ra rb xmod) c rd 0x33 0 u) ∧
      (m.mstate = 3 ∨ m.ready pfa = false → Fails s (.mapcommit c rd ra rb xmod) c rd 0x34 0 u))

/-- The map engine's commands: a fill takes the pending deltas or the next checkpoint part and reports 1, or the reason it is
refused; loading begins with the tables clear, takes map records, and ends read-write or read-only with every hoist of the
retained record in state 5; mc.map.brec lets a state 3 entry await no further commit (R363, R369 to R373, R377). -/
def Obligations.map_engine_fills_loads_and_records : Prop :=
  ∀ (s : State) (c k : Nat) (own : Bool),
    let w := s.started c
    let u := readTables k w
    let m := s.map k
    let x := u.map k
    let h := s.cf k 0x7210 31 0
    let r := fillRefusal u c k
    let writes := MayAccess s c .store own false k 0x7218 false
    (writes → r = 0 → x.deltas ≠ [] → ∃ t, exec (.mapFillDeltas c own k) s = .next t ∧
      (t.map k).fill = some { handle := h, seqs := (x.deltas.take 7620).map Delta.seq, ckpt := false, final := false } ∧
      (t.map k).deltas = x.deltas ∧ t.cf k 0x7220 3 0 = 1 ∧
      t.cf k 0x7220 31 16 = (x.deltas.take 7620).length) ∧
    (writes → r = 0 → x.deltas = [] → ∃ t, exec (.mapFillDeltas c own k) s = .next t ∧ t.maps = u.maps ∧ t.cf k 0x7220 3 0 = 4) ∧
    (writes → r ≠ 0 → ∀ i ∈ [Instr.mapFillDeltas c own k, .mapFillCheckpoint c own k],
      ∃ t, exec i s = .next t ∧ t.maps = u.maps ∧ t.mem = s.mem ∧ t.cf k 0x7220 3 0 = r) ∧
    (writes → r = 0 →
      let ck := x.ckpt.getD { base := x.dur + 1, units := ckptUnits x }
      let left := ceilDiv ck.units.length 508 - ck.frames
      ∃ t f, exec (.mapFillCheckpoint c own k) s = .next t ∧ (t.map k).fill = some f ∧ f.ckpt = true ∧ f.handle = h ∧
        f.frames = min 30 left ∧ f.final = decide (left ≤ 30) ∧ (t.map k).ckpt = some ck ∧ t.cf k 0x7220 3 0 = 1 ∧
        t.cf k 0x7220 7 7 = b2n (decide (left ≤ 30))) ∧
    (∃ t, exec (.mapBeginLoad k) s = .next t ∧ t.map k = { mstate := 1, disc := m.disc } ∧ t.mem = s.mem) ∧
    (writes → m.mstate = 1 → mapHandleOk s c k h = true → (privRead 1 (handleAddr h) 130560 w).1 = none →
      (List.range 30).all (fun i => recordOk (s.bytes (handleAddr h + 4096 * i) 4096)) = true →
      ∃ t, exec (.mapIngest c own k) s = .next t ∧ (t.map k).mstate = 1 ∧ (t.map k).record = true ∧ t.cf k 0x7220 3 0 = 1) ∧
    (writes → m.mstate ≠ 1 → ∃ t, exec (.mapIngest c own k) s = .next t ∧ t.maps = s.maps ∧ t.cf k 0x7220 3 0 = 5) ∧
    (writes → m.mstate = 1 → mapHandleOk s c k h = false →
      ∃ t, exec (.mapIngest c own k) s = .next t ∧ t.maps = s.maps ∧ t.cf k 0x7220 3 0 = 3) ∧
    (m.mstate = 1 → ∃ t, exec (.mapEndLoad k) s = .next t ∧ (t.map k).next = (t.map k).dur + 1 ∧
      (∀ hs, retainedBrec s k = some hs → (t.map k).mstate = 2 ∧
        ∀ x ∈ hs, ∃ e ∈ (t.map k).brec, e.hoist = x ∧ e.state = 5) ∧
      (retainedBrec s k = none → (t.map k).mstate = if m.clean || !m.record then 2 else 3)) ∧
    (∀ (x : BitVec 25) (e : Brec), e ∈ m.brec → e.hoist = x.toNat → e.state = 3 →
      ∃ t, exec (.brecWrite k x) s = .next t ∧ (t.map k).deltas = m.deltas ∧
        (e.closed = true → (∀ q ∈ e.seqs, q ≤ m.dur) → { e with need := [] } ∉ (t.map k).brec) ∧
        (e.closed = false → { e with need := [] } ∈ (t.map k).brec))
/-- CHOP of each operation joins the channel queue of the core's drive, a WRITE with its hoists entered in the burn record; a
descriptor that breaks the rules answers 0x38, a full queue 0x39 and a drive with no disc loaded 0x30 (R131, R136, R138, R346). That the operation which runs counts among the 64
is the model's reading (log entry 126), as is that a list whose count is out of range is not checked (log entry 123). -/
def Obligations.chop_joins_the_channel_queue : Prop :=
  ∀ (s : State) (c : Nat) (rd ra rb : BitVec 5) (xmod : BitVec 6) (key : Nat) (d lb : List Byte) (u v : State),
    let w := s.woken c
    let k := c / 8
    let a := ((w.core c).r ra).toNat
    let b := ((w.core c).r rb).toNat
    let n := leAt d 12 1
    let enter := fun (h : Nat) => ({ hoist := h, req := decide (w.cf k 0x7108 0 0 = 1) } : Brec)
    let handles := if chopList d = [] then [] else (List.range n).map (fun i => leAt lb (4 * i) 4)
    ∀ op i, (op, i) ∈ ([(1, .chopRead c rd ra rb xmod), (2, .chopWrite c rd ra rb xmod), (3, .chopVerify c rd ra rb xmod),
        (4, .chopSeek c rd ra rb xmod)] : List (Nat × Instr)) →
      let o : Chop := { op := op, flags := leAt d 1 1, ctag := leAt d 2 2, tag := leAt d 4 4, pfa := leAt d 8 4, hoists := n
                        rungs := leAt d 13 1, beams := leAt d 14 2, key := leAt d 16 4, list := handles, core := c
                        area := key }
      MayIssue s c 0x10 xmod.toNat (chopSpans c w a b) → a % 64 = 0 → b = 0 → placeOf w c a 64 true = some key →
      leAt (peek s c ((s.core c).r ra).toNat 64) 0 1 = op →
      ((w.map k).mstate = 0 → Fails s i c rd 0x30 0 w) ∧
      ((w.map k).mstate ≠ 0 → readOperand c key 64 w = (some d, u) →
        (chopFields u k d = false → Fails s i c rd 0x38 0 u) ∧
        (chopFields u k d = true → leAt d 0 1 = op →
          (chopList d = [] ∧ lb = [] ∧ v = u) ∨ (chopList d ≠ [] ∧
            ∃ lk, placeOf u c (leAt d 24 8) (4 * n) false = some lk ∧ readOperand c lk (4 * n) u = (some lb, v)) →
          (∀ h ∈ handles, handleOk v h = true ∧ handleDie h = k) →
          (op = 2 → areaTests (v.map k) (bitSet o.flags 0) handles o.hoistIds = true) →
          let free := (v.channel k).queue.length < 64 ∧ (op = 2 → (v.map k).brec.length + n ≤ 1024)
          (free → ∃ t, Succeeds s i c rd 0 t ∧ (t.channel k).queue = (v.channel k).queue ++ [o] ∧
            (t.map k).brec = (v.map k).brec ++ (if op = 2 then o.hoistIds.map enter else [])) ∧
          (¬ free → Fails s i c rd 0x39 0 v)))

/-- The front operation of a channel starts, moving its head or not, or ends at once with the cstat of what keeps it from
starting; its positioning ends on the band aimed at, or is tried again twice, and where the head is on another layer, or a WRITE
may not burn, the operation ends; a SEEK that has landed and a WRITE that is done end, and a tag asked for joins its core's queue; a
WRITE that was stopped loses its begun hoists (R136, R147, R188, R245, R253, R256, R347, R352, R354). Its premise that the staging
caches hold no error keeps the stop of R604 out. -/
def Obligations.chop_starts_positions_and_ends : Prop :=
  ∀ (s : State) (k : Nat) (o : Chop) (rest : List Chop), s.down = false → CacheSound s →
    (s.channel k).queue = o :: rest →
    let h := o.head
    let tracks := srvRdy s k h 2 2 = 1
    let tagged := fun (t : State) => bitSet o.flags 1 = true → o.ctag ∈ (t.core o.core).cq ++ (t.core o.core).cqWait
    let ended := fun (t : State) => (t.channel k).queue = rest ∧ tagged t ∧ srvRdy t k h 7 7 = 0
    (∀ ahead, o.started = false →
      (startRefusal s k o ≠ 0 → ∃ t, exec (.chopStart k ahead) s = .next t ∧ ended t) ∧
      (startRefusal s k o = 0 → (o.op = 2 → beginRefusal s k o (startPass s k o) = none) →
        ∃ t p, exec (.chopStart k ahead) s = .next t ∧ (t.channel k).queue = p :: rest ∧
          p.started = true ∧ p.pfa = o.pfa ∧ p.mode = s.cf k 0x4010 1 0 % 3 ∧
          (if aimBand s k h (bandOf o.pfa) ahead = bandNow s k h ∧ tracks
            then p.positioning = false ∧ srvRdy t k h 7 7 = 0 ∧
              (o.op = 2 → ∀ i ∈ startPass s k o, i ∈ p.begun)
            else p.positioning = true ∧ srvRdy t k h 7 7 = 1 ∧ p.aim = aimBand s k h (bandOf o.pfa) ahead ∧
              p.due = s.time + positioningBound s k h (bandOf o.pfa)))) ∧
    (∀ ahead, o.started = true → o.positioning = true →
      let ack := s.bytes (cAddr k (0x1_0800 + 0x1000 * (2 * h + 1) + 0x7F0)) 8
      let landed := leAt ack 0 4 = o.seq ∧ leAt ack 4 1 = 1 ∧ tracks ∧ bandNow s k h = o.aim
      let failed := leAt ack 0 4 = o.seq ∧ leAt ack 4 1 = 2 ∨ ¬ landed ∧ o.due ≤ s.time
      let layer := srvRdy s k h 17 16 = pfaLayer o.pfa
      let burns := wiRaised s k h = false ∧ s.cf k 0x4200 3 0 = 5
      (landed → layer → (o.op = 2 → o.stopWith = 0 → burns ∧ beginRefusal s k o (firstPass o) = none) →
        ∃ t p, exec (.positioningEnd k ahead) s = .next t ∧ (t.channel k).queue = p :: rest ∧ p.positioning = false ∧
          srvRdy t k h 7 7 = 0 ∧ (o.op = 2 → o.stopWith = 0 → ∀ i ∈ firstPass o, i ∈ p.begun)) ∧
      (landed → ¬ layer ∨ (o.op = 2 ∧ o.stopWith = 0 ∧ ¬ burns) →
        ∃ t, exec (.positioningEnd k ahead) s = .next t ∧ ended t) ∧
      (failed → o.tries < 2 → ¬ (aimBand s k h (bandOf o.goal) ahead = bandNow s k h ∧ tracks) →
        ∃ t p, exec (.positioningEnd k ahead) s = .next t ∧ (t.channel k).queue = p :: rest ∧ p.tries = o.tries + 1 ∧
          p.positioning = true ∧ p.aim = aimBand s k h (bandOf o.goal) ahead) ∧
      (failed → 2 ≤ o.tries → ∃ t, exec (.positioningEnd k ahead) s = .next t ∧ ended t)) ∧
    (o.started = true → o.positioning = false →
      (o.op = 4 → ∃ t, exec (.chopSeekEnd k) s = .next t ∧ ended t) ∧
      (o.op = 2 → ∀ begun off,
        (o.stopWith = 0 → bitSet o.flags 0 = true → (∀ j, j < o.hoists → verifyPass s k o j = true) →
          ∃ t, exec (.chopWriteEnd k begun off) s = .next t ∧ ended t) ∧
        (o.stopWith = 0 → bitSet o.flags 0 = true → ∀ j, j < o.hoists → verifyPass s k o j = false →
          (∀ i, i < j → verifyPass s k o i = true) → o.passed j = true →
          ∃ t, exec (.chopWriteEnd k begun off) s = .next t ∧ ended t) ∧
        (o.stopWith = 0 → bitSet o.flags 0 = false → ∃ t, exec (.chopWriteEnd k begun off) s = .next t ∧ ended t) ∧
        (o.stopWith ≠ 0 → ∃ t, exec (.chopWriteEnd k begun off) s = .next t ∧ ended t ∧
          ∀ i ∈ o.begun, i < o.hoists → areaOf (hoistIn (o.pfa / 32 + i)) = .user →
            (t.map k).homeState (userHoistOf (32 * (o.pfa / 32 + i))) = 3)))
/-- A frame of the running READ, VERIFY or inline verify passes its beam, and is framed by its marks; first pass, rung 0 and rung 1
leave it good with its payload or failing, as its LLRs decode and its checks pass (R311 to R313, R315, R319, R321 to R325, R330,
R353). `nextStep`, `settleGood` and `decoderFault` are what follows in the ladder, in the hoist, and of a decoder's fault. It is the
model's reading that where a word of the retry store is uncorrectable it is free which frames it strikes (log entry 136): rungs 0 and 1
are stated for a store without one. Its premise that the staging caches hold no error keeps the stop of R604 out. -/
def Obligations.frames_are_read_and_decoded : Prop :=
  ∀ (s : State) (k i : Nat) (o : Chop), passing s k = some o → CacheSound s →
    let h := o.head
    let f := o.frame i
    let j := i / 32
    let x := trackOf (o.pfa + i)
    let becomes := fun (t : State) (g : Frame) => ∃ p, t.front k = some p ∧ p.frame i = g ∧
      (∀ m, m ≠ i → p.frame m = o.frame m) ∧ (t.channel k).queue.tail = (s.channel k).queue.tail
    let raised := fun (t : State) (r : Nat) => ∃ p, t.front k = some p ∧ p.rung = if o.rung = 0xFF then r else max o.rung r
    let read := fun (v u : State) (adc : List (List (Option (BitVec 8)))) (start : Rat) (fine : Int) =>
      let xs := streamsOf v k h adc start
      let lost := bitSet (v.cf k (0x6080 + 8 * h) 23 12) x
      let d := findMarks v k (readPass o i) xs x lost
      let z := see v k h (readPass o i) x xs
      becomes u z.frame ∧ u.cf k (0x6080 + 8 * h) (12 + x) (12 + x) = b2n z.lost ∧
      u.cf k (0x6080 + 8 * h) x x = b2n (d.1.isSome || d.2.isSome) ∧
      fromField 16 (u.cf k (0x6100 + 8 * (12 * h + x)) 47 32) = max (-512) (min 512 fine) ∧ u.mem = v.mem ∧
      ((d.1.isSome ∨ d.2.isSome) → z.erased = false → z.lost = false ∧ z.frame.got = .decoding ∧
        z.frame.sec = d.1.isNone ∧ z.frame.both = (d.1.isSome && d.2.isSome)) ∧
      (d.1 = none → d.2 = none → lost = false → 2 ≤ Tbl.at (v.head k h).flyRun x → z.frame.got = .failing ∧
        (z.frame.blank = false → z.lost = true)) ∧
      (z.frame.got = .decoding → z.frame.llrA.length = 10246 ∧ z.frame.llrB.length = 10246)
    let verdict := fun (p : List Byte) (how : Nat) =>
      if isData i = false then some how
      else match checkFrame s k o.key (o.pfa + i) p with
        | .pass _ => some how
        | .mismatch => some 0xD
        | .fail => none
    let takes := fun (d : Decoded) (fault : Bool) (how : Nat) => if d.converged && !fault then verdict d.payload how else none
    let whole := o.store.findSome? (fun a => badWord s (handleAddr a) 0x2_0000) = none
    (f.got = .unread → i < 32 * o.hoists → ∀ (adc : List (List (Option (BitVec 8)))) (start : Rat) (fine : Int),
      (reading s k = some o → (o.stopWith = 0 ∨ o.begunRead j = true) →
        let before := o.open_.filter (fun m => decide (o.bandAt m < o.bandAt j))
        (before = [] ∨ o.op = 1 ∧ ∀ m ∈ before, ladderOver s k o m = true) →
        let v := settleAll k before s
        (v.1 = true → ∃ u, exec (.frameRead k i adc start fine) s = .next (nextStep k u) ∧ read v.2 u adc start fine) ∧
        (v.1 = false → exec (.frameRead k i adc start fine) s = .next v.2)) ∧
      (o.op = 2 → (∀ m < o.hoists, o.bandAt m < o.bandAt j → verifyPass s k o m = true) →
        let js := (List.range o.hoists).filter (fun m => decide (o.bandAt m ≤ o.bandAt j) && !o.begun.contains m)
        let v := settleSources o js s
        (beginRefusal v k o js = none → ∃ u, exec (.frameRead k i adc start fine) s = .next u ∧
          read (js.foldl (fun s m => beginOne k m s) v) u adc start fine ∧
          ∃ p, u.front k = some p ∧ ∀ m ∈ js, m ∈ p.begun) ∧
        (∀ why, beginRefusal v k o js = some why → ∃ t, exec (.frameRead k i adc start fine) s = .next t ∧
          (t.channel k).queue = (s.channel k).queue.tail))) ∧
    (f.got = .decoding → ∀ (fault : Bool),
      let d := decodeFrame o i (icapOf s k) (0, 0)
      let f := { f with weight := d.weight, iters := d.iters }
      (∀ how, takes d fault 0 = some how → ∃ u,
        exec (.firstPassDecodeEnd k i fault) s = .next (nextStep k (settleGood k j u)) ∧
        becomes u { f.over .good with payload := d.payload, first := true, how := how }) ∧
      (takes d fault 0 = none → ∃ u,
        exec (.firstPassDecodeEnd k i fault) s =
          .next (nextStep k (if fault then decoderFault k (decoderOf u k (12 * h + x)) h u else u)) ∧
        becomes u (if (!d.converged || fault) && decide (o.slotsUsed < o.slots) && (pooledFor s k h).isSome &&
            (misaligned s k d.weight || decide (1 ≤ o.rungs)) && (isData i || !o.dataGood j)
          then { f with got := .failing, slot := true } else f.over .failing))) ∧
    (reading s k = some o → f.got = .failing → f.slot = true → o.retries i = true → whole → ∀ (fault : Bool),
      let pooled := fun (u : State) => if fault then (pooledFor u k h).elim u (fun p => decoderFault k (24 + p) h u) else u
      (f.rung0 = false → misaligned s k f.weight = true →
        let best := bestShift o i
        let g := if o.rungs < 1 then { f.over .failing with rung0 := true } else { f with rung0 := true }
        let d := decodeFrame o i (icapOf s k) best.2
        (misaligned s k best.1 = true → ∃ u, exec (.alignmentRetry k i fault) s = .next (nextStep k u) ∧ becomes u g ∧
          raised u 0) ∧
        (misaligned s k best.1 = false →
          (∀ how, takes d fault 1 = some how → ∃ u,
            exec (.alignmentRetry k i fault) s = .next (nextStep k (settleGood k j u)) ∧ raised u 0 ∧
            becomes u { g.over .good with shift := best.2, payload := d.payload, first := false, how := how }) ∧
          (takes d fault 1 = none → ∃ u, exec (.alignmentRetry k i fault) s = .next (nextStep k (pooled u)) ∧ raised u 0 ∧
            becomes u (if d.converged && !fault then { g.over .failing with shift := best.2 }
              else { g with shift := best.2 })))) ∧
      (1 ≤ o.rungs → (misaligned s k f.weight = false ∨ f.rung0 = true) →
        let d := decodeFrame o i (icap1Of s k) f.shift
        (∀ how, takes d fault 2 = some how → ∃ u,
          exec (.rung1DecodeEnd k i fault) s = .next (nextStep k (settleGood k j u)) ∧ raised u 1 ∧
          becomes u { f.over .good with payload := d.payload, first := false, how := how }) ∧
        (takes d fault 2 = none → ∃ u, exec (.rung1DecodeEnd k i fault) s = .next (nextStep k (pooled u)) ∧ raised u 1 ∧
          becomes u (f.over .failing))))

/-- A revolution attempt counts in its band and rung and leaves every frame that it may not re-read as it was; rung 6 leaves each
frame it tries good or unrecovered; a READ ends with cstat 0x00 or 0x01 when every hoist is settled, 0x04 where a hoist is left out of
frame, and with its cancelling cstat otherwise; a VERIFY ends with 0x00 when all hoists pass and with 0x08 at the first that does
not; a hoist whose frames are all good is settled (R315, R328 to R331, R336, R339, R353, R354). Its premise that the staging caches hold
no error keeps the stop of R604 out. -/
def Obligations.ladder_and_read_ends : Prop :=
  ∀ (s : State) (k : Nat), CacheSound s →
    let rest := (s.channel k).queue.tail
    let ended := fun (o : Chop) (t : State) (cstat : Nat) => (t.channel k).queue = rest ∧
      (bitSet o.flags 1 = true → o.ctag ∈ (t.core o.core).cq ++ (t.core o.core).cqWait) ∧
      (2 ^ 36 ≤ o.area → o.area % 64 = 0 → t.num (o.area + 40) 2 = cstat)
    (∀ o, cancelled s k = some o → o.finishing = false → o.stopWith < 2 ^ 16 →
      ∃ t, exec (.chopReadEnd k) s = .next t ∧ ended o t o.stopWith) ∧
    (∀ o, reading s k = some o →
      (∀ r n, o.attempt = some (r, n) → o.stopWith = 0 →
        ∀ frames : List (Nat × List (List (Option (BitVec 8))) × Rat × Int × Bool), (∀ e ∈ frames, e.2.2.2.2 = false) →
          let hs := o.open_.filter (fun j => decide (o.bandAt j = o.bandNow))
          ∃ u p, exec (.revolutionAttemptEnd k frames) s =
              .next (nextStep k (hs.foldl (fun s j => settleGood k j s) u)) ∧
            u.front k = some p ∧ (u.channel k).queue.tail = rest ∧ p.attempt = none ∧ p.settled = o.settled ∧
            Tbl.at p.attempts (8 * o.bandNow + r) = n + 1 ∧
            ∀ i, (i ∉ o.attemptFrames r n ∨ i ∉ frames.map Prod.fst) → p.frame i = o.frame i) ∧
      (∀ j, j < o.hoists → j ∉ o.settled → o.stopWith = 0 → o.passed j = true → o.blankHoist j = false →
        erasureDue o j = true → nextAttempt s k o (o.bandAt j) = none →
        ∃ u p, exec (.erasureDecode k j) s = .next (nextStep k (settleGood k j u)) ∧ u.front k = some p ∧
          p.rung = (if o.rung = 0xFF then 6 else max o.rung 6) ∧
          (∀ i ∈ o.failing j, (p.frame i).got = .good ∨ (p.frame i).how = 0xF) ∧
          ∀ i, i ∉ o.failing j → p.frame i = o.frame i) ∧
      (o.op = 1 → o.stopWith = 0 → (∀ j ∈ o.open_, ladderOver s k o j = true) →
        let v := settleAll k o.open_ s
        ∃ t, exec (.chopReadEnd k) s = .next t ∧
          ended o t (if v.1 = false then 4 else if (v.2.front k).elim 0 Chop.flagged = 0 then 0 else 1)) ∧
      (o.op = 3 →
        ((∀ j < o.hoists, verifyGood s k o j = true) → ∃ t, exec (.chopVerifyEnd k) s = .next t ∧ ended o t 0) ∧
        (∀ j < o.hoists, (∀ i < j, verifyGood s k o i = true) → verifyGood s k o j = false → ladderOver s k o j = true →
          ∃ t, exec (.chopVerifyEnd k) s = .next t ∧ ended o t 8)) ∧
      (∀ j, (∀ i ∈ hoistFrames j, (o.frame i).got = .good) → j ∉ o.settled →
        ∃ p, (settleGood k j s).front k = some p ∧ p.settled = o.settled ++ [j] ∧ p.done = o.done + 1))
/-- The servo's detectors: fok, tok and wlock rise and fall by their conditions, each fall counted, a lost read held with what it has
in hand discarded, taken up again when all is well within 10 ms and ended with cstat 0x07 after that, a lost burn inhibited; an
address unit with a good CRC updates layer, band and position, and one of another layer ends the operation; the loop is preset to the
present frequency (R234, R235, R254, R256, R296 to R298, R300). What of a held READ is in hand is the model's reading (log entry
136). Its premise that the staging caches hold no error keeps the stop of R604 out. -/
def Obligations.focus_track_and_wobble_events : Prop :=
  ∀ (s : State) (k h : Nat), aHead s k h = true → CacheSound s →
    let u := 1024 * k + 656 + h
    let counted := fun (t : State) (n : Nat) => Tbl.at t.snap.count u = Tbl.at s.snap.count u + BitVec.ofNat 64 n
    let fok := srvRdy s k h 1 1
    let tok := srvRdy s k h 2 2
    let wlock := srvRdy s k h 3 3
    let holds := fun (t : State) => ∀ o, s.front k = some o → o.op = 1 ∨ o.op = 3 → o.started = true →
      o.positioning = false → o.heldAt = none → o.head = h →
      ∃ p, t.front k = some p ∧ p.heldAt = some s.time ∧ p.settled = o.settled ∧ p.attempt = none ∧
        ∀ i, if o.inHand (i / 32) then (p.frame i).got = .unread else p.frame i = o.frame i
    (∀ fm sm, inFocus s k h fm sm = true → fok = 0 →
      exec (.focusOk k h fm sm) s = .next (s.setCf k (0x4100 + 8 * h) 1 1 1)) ∧
    (∀ fm sm, inFocus s k h fm sm = false → fok = 1 → ∃ t, exec (.focusLost k h fm sm) s = .next t ∧
      srvRdy t k h 2 1 = 0 ∧ counted t (1 + tok) ∧ holds t ∧
      t.flt.head = s.flt.head + (if srvRdy s k h 8 7 = 0 then 1 else 0)) ∧
    (∀ tm ahead, onGroove s k h tm = true → fok = 1 → wlock = 1 → tok = 0 →
      ∃ t, exec (.trackOk k h tm ahead) s = .next t ∧ srvRdy t k h 2 2 = 1 ∧
        ∀ o x, s.front k = some o → o.heldAt = some x → o.head = h → o.op = 1 ∨ o.op = 3 → s.cf k 0x4200 3 0 = 5 →
          s.time ≤ x + 10000000 → (srvRdy s k h 17 16 = pfaLayer o.pfa → ∃ p, t.front k = some p ∧ p.heldAt = none) ∧
          (srvRdy s k h 17 16 ≠ pfaLayer o.pfa → (t.channel k).queue = (s.channel k).queue.tail)) ∧
    (∀ tm, tok = 1 → onGroove s k h tm = false ∨ fok = 0 ∨ wlock = 0 → ∃ t, exec (.trackLost k h tm) s = .next t ∧
      srvRdy t k h 2 2 = 0 ∧ counted t 1 ∧ holds t ∧
      t.flt.head = s.flt.head + (if srvRdy s k h 8 7 = 0 then 1 else 0)) ∧
    (∀ o rest x, (s.channel k).queue = o :: rest → o.heldAt = some x → x + 10000000 ≤ s.time → ∃ t, exec (.readLossTimeout k) s = .next t ∧ (t.channel k).queue = rest) ∧
    (∀ tm, fok = 1 → wlock = 0 → onGroove s k h tm = true → (s.head k h).acquiring = false →
      ∃ t, exec (.wobbleAcquisitionStart k h tm) s = .next t ∧ (t.head k h).acquiring = true ∧ (t.head k h).missed = 0 ∧
        (t.head k h).freq = wobbleFreq s k h ∧
        (t.head k h).bandwidth = wobbleFreq s k h / 2 ^ (s.cf k (0x6020 + 8 * h) 7 4 + 4)) ∧
    (∀ (unit : BitVec 48) (atSync phase : Bool), (s.head k h).acquiring = true ∨ wlock = 1 →
      let good := decide (unitCrc unit.toNat = unit.toNat % 0x10000)
      let missed := if good && atSync then 0 else (s.head k h).missed + 1
      ∃ t, exec (.wobbleAddressUnitRead k h unit atSync phase) s = .next t ∧
        (good = true → srvRdy t k h 17 16 = unit.toNat / 2 ^ 46 ∧ srvRdy t k h 31 18 = bitsOf unit.toNat 45 32 ∧
          (t.head k h).pos = bitsOf unit.toNat 31 23) ∧
        (good = false → srvRdy t k h 31 16 = srvRdy s k h 31 16 ∧ (t.head k h).pos =
          ((s.head k h).pos + 1) % positionsOf (srvRdy s k h 31 18)) ∧
        (wlock = 0 → srvRdy t k h 3 3 = b2n (((s.head k h).goodUnit || (good && atSync)) && phase)) ∧
        (wlock = 1 → srvRdy t k h 3 3 = b2n (decide (missed < 4))) ∧
        ∀ o, s.front k = some o → o.started = true → o.positioning = false → o.heldAt = none → o.head = h → good = true →
          atSync = true → unit.toNat / 2 ^ 46 ≠ pfaLayer o.pfa → (t.channel k).queue = (s.channel k).queue.tail) ∧
    (wlock = 1 → ∃ t, exec (.wobbleLockLost k h) s = .next t ∧ srvRdy t k h 3 3 = 0 ∧ holds t ∧
      ∀ o, s.front k = some o → o.op = 2 → o.started = true → o.positioning = false → o.head = h →
        t.ff k (wiOff h) 6 6 = 1)

/-- Write inhibit: the servo-monitor and shock comparators and the accelerometer poll latch their source of fe.wi.stat and
stop a running WRITE; a 1 clears a bit whose condition has gone; a bridge trips off and a servo bridge inhibits writing, and
an enable bit turns it on again after 1 ms (R178, R181, R182, R231, R349 to R351, R623). -/
def Obligations.write_inhibit_and_bridges : Prop :=
  ∀ (s : State) (k h : Nat), aHead s k h = true →
    let raised := fun (t : State) (g bit : Nat) => t.ff k (wiOff g) bit bit = 1 ∧
      ∀ o ∈ (t.channel k).queue, o.op = 2 → o.started = true → o.head = g → o.stopWith ≠ 0
    let f := fun (hi lo : Nat) => s.ff k (0x2100 + 8 * h) hi lo
    (∀ tm fm sm, (f 48 48 = 1 ∧ f 23 12 < tm.natAbs) ∨ (f 49 49 = 1 ∧ f 35 24 < fm.natAbs) ∨
        (f 50 50 = 1 ∧ sm < (f 47 36 : Int)) →
      ∃ t, exec (.writeInhibitComparator k h tm fm sm) s = .next t ∧ raised t h 0) ∧
    (∀ radial focus, (s.trim k 0x1C00 9 0 ≠ 0 ∧ s.trim k 0x1C00 9 0 < radial.natAbs) ∨
        (s.trim k 0x1C00 25 16 ≠ 0 ∧ s.trim k 0x1C00 25 16 < focus.natAbs) →
      ∃ t, exec (.shockComparator k radial focus) s = .next t ∧ raised t 0 1 ∧ raised t 1 1) ∧
    (∀ bytes : List Byte, s.ff k 0x2000 0 0 = 1 → fdieDrives s k = true → pollDue s k = true → bytes.length = s.ff k 0x2000 18 16 + 1 →
      s.ff k 0x2000 32 30 + 2 ≤ bytes.length → s.ff k 0x2000 38 36 + 2 ≤ bytes.length →
      let word := fun (at_ : Nat) => let b := (bytes.drop at_).take 2
        if s.ff k 0x2000 39 39 = 1 then ofLe b.reverse else ofLe b
      let r := word (s.ff k 0x2000 32 30)
      let g := word (s.ff k 0x2000 38 36)
      ∃ t, exec (.digitalShockPoll k bytes) s = .next t ∧ Tbl.at t.shock (2 * k) = BitVec.ofNat 32 (r * 2 ^ 16) ∧
        Tbl.at t.shock (2 * k + 1) = BitVec.ofNat 32 (g * 2 ^ 16) ∧
        Tbl.at t.polls k = some { at_ := s.time, first := s.ff k 0x2000 15 8, mode3 := decide (s.ff k 0x2000 1 1 = 1)
                                  div := max 4 (min 49 (s.ff k 0x2000 7 2)) } ∧
        (s.trim k 0x1C00 47 32 ≠ 0 → s.trim k 0x1C00 47 32 < (fromField 16 r).natAbs ∨
          s.trim k 0x1C00 47 32 < (fromField 16 g).natAbs → raised t 0 2 ∧ raised t 1 2)) ∧
    (∀ mask still : BitVec 10, ∃ t, exec (.wiStatClear k h mask still) s = .next t ∧ ∀ i, i < 10 →
      bitSet (t.ff k (wiOff h) 9 0) i = (bitSet (s.ff k (wiOff h) 9 0) i && (!mask.getLsbD i ||
        bitSet (wiHolds s k h) i || (decide (i < 5) && still.getLsbD i)))) ∧
    (∀ b, aBridge b = true → s.ff k 0x2020 b b = 1 → ∃ t, exec (.bridgeOvercurrent k b) s = .next t ∧
      t.ff k 0x2020 b b = 0 ∧ t.ff k 0x2020 (32 + b) (32 + b) = 1 ∧ Tbl.at t.tripped (16 * k + b) = some s.time ∧
      t.flt.head = s.flt.head + 1 ∧ (b < 6 → b % 3 ≠ 2 → raised t (b / 3) 3)) ∧
    (∀ (ven : BitVec 6) (sen : BitVec 8), ∃ t, exec (.bridgeEnable k ven sen) s = .next t ∧ ∀ b, aBridge b = true →
      let on := if b < 6 then ven.getLsbD b else sen.getLsbD (b - 8)
      let soon := s.ff k 0x2020 (32 + b) (32 + b) = 1 ∧ ∃ x, Tbl.at s.tripped (16 * k + b) = some x ∧ s.time < x + 1000000
      (on = false → t.ff k 0x2020 b b = 0) ∧
      (on = true → soon → t.ff k 0x2020 b b = s.ff k 0x2020 b b ∧ t.ff k 0x2020 (32 + b) (32 + b) = 1) ∧
      (on = true → ¬ soon → t.ff k 0x2020 b b = 1 ∧ t.ff k 0x2020 (32 + b) (32 + b) = 0))

/-- Training starts on an idle head with a valid bank, its shadow a copy of the bank, ends when cancelled, when the head is used or
without converging in time, and says why; the tray and clamp pins show with their change bits, and a disc that leaves ends every
operation of the drive, empties its map and raises write inhibit; SAFE_N follows its writes while nothing that must be off is on (R337,
R338, R639, R640). Its premise that the staging caches hold no error keeps the stop of R604 out. -/
def Obligations.training_tray_and_safe : Prop :=
  ∀ (s : State) (k h : Nat), aHead s k h = true → CacheSound s →
    let a := 0x6060 + 8 * h
    let st := 0x6080 + 8 * h
    let off := fun (t : State) (reason : Nat) => (t.head k h).train = none ∧ t.cf k st 35 32 = reason ∧ t.cf k st 31 30 = 3 ∧
      t.cf k a 0 0 = 0
    (∀ (frames : BitVec 16) (mu : BitVec 4) (bank : BitVec 5),
      ∃ t, exec (.trainingStart k h frames mu bank) s = .next t ∧ t.cf k a 31 16 = frames.toNat ∧ t.cf k a 15 12 = mu.toNat ∧
        t.cf k a 9 5 = bank.toNat ∧
        (headUsed s k h = true → off t 5) ∧
        (headUsed s k h = false → (s.head k h).train ≠ none → t.chan = s.chan) ∧
        (headUsed s k h = false → (s.head k h).train = none → trainable s k h bank.toNat = false → off t 2) ∧
        (headUsed s k h = false → (s.head k h).train = none → trainable s k h bank.toNat = true →
          (t.head k h).train = some (bank.toNat, s.time) ∧ t.cf k st 31 30 = 1 ∧ t.cf k a 0 0 = 1 ∧
          (t.head k h).shadow = s.bytes (cAddr k (0x2_0000 + 0x800 * bank.toNat)) 0x800)) ∧
    (∀ n b, (s.head k h).train = some (n, b) →
      (∃ t, exec (.trainingCancel k h) s = .next t ∧ off t 3) ∧
      ((s.head k h).trained = false →
        ((∃ t, t < 12 ∧ max 64 (s.cf k a 31 16) ≤ Tbl.at (s.head k h).trainCount t) ∨ b + 2000000000 ≤ s.time) →
        ∃ t, exec (.trainingTimeout k h) s = .next t ∧ off t 1 ∧ t.flt.head = s.flt.head + 1)) ∧
    (∀ tray clamp : Bool, ∃ t, exec (.trayClampChange k tray clamp) s = .next t ∧
      t.ff k 0x2040 0 0 = b2n tray ∧ t.ff k 0x2040 1 1 = b2n clamp ∧
      t.ff k 0x2040 2 2 = (if s.ff k 0x2040 0 0 = b2n tray then s.ff k 0x2040 2 2 else 1) ∧
      t.ff k 0x2040 3 3 = (if s.ff k 0x2040 1 1 = b2n clamp then s.ff k 0x2040 3 3 else 1) ∧
      (clamp = false → t.ff k 0x2018 0 0 = 0) ∧
      (let leaves := (s.ff k 0x2040 0 0 = 1 ∧ tray = false) ∨ (s.ff k 0x2040 1 1 = 1 ∧ clamp = false)
       (leaves → (s.map k).mstate ≠ 0 → (t.channel k).queue = [] ∧ (t.map k).mstate = 0 ∧ (t.map k).brec = [] ∧
          t.ff k (wiOff 0) 8 8 = 1 ∧ t.ff k (wiOff 1) 8 8 = 1) ∧
       (¬ leaves ∨ (s.map k).mstate = 0 → t.chan = s.chan ∧ t.maps = s.maps))) ∧
    (∀ v : Bool, ∃ t, exec (.safeWrite k v) s = .next t ∧ t.ff k 0x2040 7 7 = b2n (v && !safeBlocked s k))
/-- The spindle program serves run, stop and coast from the mailbox and moves through its states: catch, align, open loop,
ramp, run, deceleration, braking and rest, failed starts, lost synchronism and a locked rotor, each at the times and speeds the rules
set (R262, R264, R266, R270 to R275). That a stop from CATCH or COAST brakes only once a coast has come down is the model's reading
(log entry 69). -/
def Obligations.spindle_program_states : Prop :=
  ∀ (s : State) (k : Nat), program5 s k = true →
    let x := s.spin k
    let seq := mailSeq s k
    let cmd := mailTarget s k
    let ceil := s.cf k 0x4208 13 0
    let shown := fun (v : Nat) => if v < 60 then 0 else v
    let entered := fun (y : Spin) => { y with
      valid := true, since := if y.state = x.state then y.since else s.time
      target := if y.state = 0 then 0 else min y.cmd (min ceil y.own) }
    let becomes := fun (i : Instr) (y : Spin) => ∃ t, exec i s = .next t ∧ t.spin k = entered y
    let tripped := fun (l i slots : Nat) (t : State) => let b := supByte s k l i
      bitSet b 7 = true → max 1 (b % 16) ≤ slots → t.cf k (lpStatus l) (8 + i) (8 + i) = 1
    let starts := fun (c : Nat) (y : Spin) => { y with
      cmd := c, result := 1, reason := 0, state := 1, leads := none, starts := 0, recatching := false, recatch := 0
      resumed := none, noVin := false, waiting := none }
    let coasts := { x with
      state := 8, leads := some 3, recatching := false, recatch := 0, result := 4, resumed := none }
    let speedWord := (s.out k 0xC8).getD 0
    let preset := ((s.out k 0xCA).getD 0).toNat % 65536
    (mailNew s k 1 = true →
      let y := { x with seq := seq, cmd := cmd, result := 1, reason := 0 }
      (cmd < 1200 ∨ 7200 < cmd ∨ x.state = 9 → becomes (.spindleRun k) { x with seq := seq, result := 3 }) ∧
      (1200 ≤ cmd → cmd ≤ 7200 →
        (x.state = 0 ∨ (x.state = 8 ∧ x.leads ≠ some 2 ∧ x.leads ≠ some 3) → becomes (.spindleRun k)
          { starts cmd { x with seq := seq } with waiting := x.waiting }) ∧
        (1 ≤ x.state → x.state ≤ 4 → becomes (.spindleRun k) y) ∧
        (x.state = 5 → becomes (.spindleRun k)
          (if min cmd (min ceil x.own) = x.target then { y with result := 2 } else { y with state := 4, near := none })) ∧
        (x.state = 6 → becomes (.spindleRun k) { y with state := 4, leads := none, near := none }) ∧
        (x.state = 7 → x.leads = some 1 → becomes (.spindleRun k) y) ∧
        (x.state = 7 → x.leads ≠ some 1 → x.leads ≠ some 2 → x.leads ≠ some 3 →
          becomes (.spindleRun k) { y with state := 4, leads := none, near := none }) ∧
        (x.state = 7 ∨ x.state = 8 → x.leads = some 2 ∨ x.leads = some 3 → becomes (.spindleRun k) { x with
          seq := seq, waiting := some (seq, cmd), result := 1 }))) ∧
    (mailNew s k 2 = true →
      let y : Spin := { x with
        seq := seq, cmd := 0, recatching := false, recatch := 0, resumed := none, noVin := false, reason := 0 }
      (x.state = 0 ∨ x.state = 9 →
        (x.waiting = none → becomes (.spindleStop k) { y with state := 0, result := 2, leads := none }) ∧
        (∀ w, x.waiting = some w → becomes (.spindleStop k) (starts w.2 y))) ∧
      (x.state = 4 ∨ x.state = 5 ∨ x.state = 6 → becomes (.spindleStop k) { y with state := 6, result := 1, leads := some 0 }) ∧
      (x.state = 2 ∨ x.state = 3 ∨ x.state = 7 → becomes (.spindleStop k) { y with state := 7, result := 1, leads := some 0 }) ∧
      (x.state = 1 ∨ x.state = 8 → becomes (.spindleStop k) { y with state := 8, result := 1, leads := some 0 })) ∧
    (mailNew s k 3 = true →
      (x.state = 9 → becomes (.spindleCoast k) { x with seq := seq, result := 3 }) ∧
      (x.state ≠ 9 → becomes (.spindleCoast k) { x with
        seq := seq, cmd := 0, recatching := false, recatch := 0, resumed := none, noVin := false, leads := none, result := 2
        reason := 0, state := if x.state = 0 then 0 else 8 })) ∧
    (∀ v, x.state = 1 → x.recatching = false →
      (∀ back, v < 60 → becomes (.catchMeasurementEnd k v back) { x with state := 2, speed := 0, back := false }) ∧
      (60 ≤ v → v ≤ 300 → becomes (.catchMeasurementEnd k v false) { x with
        state := 3, speed := v, back := false, openAt := s.time, openFrom := v, angle := speedWord, matched := none
        turned := s.time }) ∧
      (300 < v → becomes (.catchMeasurementEnd k v false) { x with
        state := 4, speed := v, back := false, near := none, angle := speedWord, speedInt := v, currentInt := preset
        model := v * 65536, bad := 0, turned := s.time }) ∧
      (60 ≤ v → becomes (.catchMeasurementEnd k v true) { x with
        state := if v < 1200 then 7 else 8, speed := v, back := true, leads := some 1 })) ∧
    (x.state = 2 → x.since + 40000000 ≤ s.time → becomes (.alignEnd k) { x with
      state := 3, openAt := s.time, openFrom := 0, angle := 0, matched := none, turned := s.time }) ∧
    (∀ v, x.state = 3 →
      (∀ m, 300 * 65536 ≤ forcedNow s k → x.matched = some m → m + 10000000 ≤ s.time →
        becomes (.openLoopHandover k v) { x with
          state := 4, speed := shown v, starts := 0, near := none, speedInt := ((s.out k 0xC4).getD 0).toInt
          angle := (s.out k 0xC8).getD x.angle, model := v * 65536, bad := 0 }) ∧
      (600 * 65536 ≤ forcedNow s k → becomes (.failedStart k v)
        (if x.starts = 0 then { x with state := 8, speed := shown v, leads := some 4, starts := 1 }
          else { x with state := 8, speed := shown v, leads := some 2, result := 4 }))) ∧
    (∀ (v m : Nat), x.state = 4 → 0 < x.target → ((v : Int) - x.target).natAbs * 1000 ≤ x.target → x.near = some m →
      m + 20000000 ≤ s.time →
      becomes (.speedSettled k v) { x with state := 5, speed := shown v, result := 2, recatch := 0 }) ∧
    (∀ v, v ≤ 1200 → x.noVin = false →
      x.state = 6 ∨ (x.state = 8 ∧ x.leads ≠ none ∧ x.leads ≠ some 2 ∧ x.leads ≠ some 4) →
      becomes (.brakeSafeSpeedReached k v) { x with state := 7, speed := shown v }) ∧
    (∀ v, v < 60 → x.state = 7 ∨ (x.state = 8 ∧ x.leads ≠ none ∧ x.leads ≠ some 4) →
      let y := { x with speed := 0, back := false, noVin := false }
      (x.leads = some 1 → becomes (.spindleAtRest k v) { y with state := 2, leads := none }) ∧
      (∀ r, x.leads = some r → r = 2 ∨ r = 3 → becomes (.spindleAtRest k v) { y with
        state := 9, result := 4, reason := r, leads := none, recatching := false, recatch := 0, starts := 0
        resumed := none }) ∧
      (x.leads ≠ some 1 → x.leads ≠ some 2 → x.leads ≠ some 3 →
        (x.waiting = none → becomes (.spindleAtRest k v) { y with state := 0, leads := none, result := 2 }) ∧
        (∀ w, x.waiting = some w → becomes (.spindleAtRest k v) (starts w.2 y)))) ∧
    (x.locked = true → 3 ≤ x.bad →
      let soon := ∃ r, x.resumed = some r ∧ s.time ≤ r + 5000000
      ∃ t, exec (.lossOfSynchronism k) s = .next t ∧ tripped 4 0 x.bad t ∧
        (¬ soon → t.spin k = entered { x with
          state := 1, since := s.time, recatching := true, recatch := 0, resumed := none, bad := 0 }) ∧
        (soon → t.spin k = entered (if x.recatch = 0 then { x with
          state := 1, since := s.time, recatching := true, recatch := 1, resumed := none, bad := 0 } else coasts))) ∧
    (∀ v, x.state = 1 → x.recatching = true → x.resumed = none → x.since + 500000 ≤ s.time →
      becomes (.recatchEnd k v true) { x with
        speed := shown v, resumed := some s.time, model := v * 65536, bad := 0, badAt := s.time
        angle := (s.out k 0xC8).getD x.angle, speedInt := v, currentInt := preset } ∧
      becomes (.recatchEnd k v false) (if x.recatch = 0 then { x with
        state := 1, since := s.time, recatching := true, recatch := 1, resumed := none, bad := 0 } else coasts)) ∧
    (3 ≤ x.state → x.state ≤ 5 → x.turned + 250000000 ≤ s.time →
      ∃ t, exec (.lockedRotor k) s = .next t ∧ tripped 5 2 1 t ∧ t.spin k = entered { x with
        state := 9, result := 4, reason := 1, leads := none, recatching := false, recatch := 0, starts := 0
        resumed := none })

/-- A drain-source or over-voltage trip turns the gates off with its cause, counted and recorded, and the brake of a safety sequence
too; en is refused above 19.0 V and with the clamp open; the ceiling and wok follow the mean VIN of the last 100 ms, and a WRITE whose
wok falls is inhibited (R260, R261, R265, R276, R349, R639). -/
def Obligations.gate_trips_and_speed_ceiling : Prop :=
  ∀ (s : State) (k : Nat), k < s.nslices →
    let x := s.spin k
    let counted := fun (t : State) (u : Nat) => Tbl.at t.snap.count (1024 * (4 + k) + u) =
      Tbl.at s.snap.count (1024 * (4 + k) + u) + 1
    let off := fun (t : State) => t.ff k 0x2018 0 0 = 0 ∧
      ((s.seq k).run = true → (t.seq k).braking = false ∧ (t.seq k).coast = true)
    (∀ phase, phase ≤ 2 → (s.down = false ∧ s.ff k 0x2018 0 0 = 1) ∨ (s.seq k).braking = true →
      ∃ t, exec (.vdsTrip k phase) s = .next t ∧ off t ∧ t.ff k 0x2018 1 1 = 1 ∧ t.ff k 0x2018 7 6 = phase ∧
        (s.down = false → counted t 1 ∧ t.flt.head = s.flt.head + 1)) ∧
    (s.down = false ∨ (s.seq k).run = true → ∃ t, exec (.overVoltageTrip k) s = .next t ∧ off t ∧ t.ff k 0x2018 2 2 = 1 ∧
      (s.down = false → (t.spin k).high = true ∧ t.cf k 0x4208 33 33 = 1 ∧ counted t 2 ∧ t.flt.head = s.flt.head + 1)) ∧
    (s.down = false →
      (∃ t, exec (.gateEnable k false) s = .next t ∧ t.ff k 0x2018 0 0 = 0) ∧
      (∃ t, exec (.gateEnable k true) s = .next t ∧
        if x.high = true ∨ s.ff k 0x2040 1 1 = 0 then t = s else t.ff k 0x2018 0 0 = 1 ∧ t.ff k 0x2040 7 7 = 0) ∧
      (∀ mv,
        let vs := (mv :: x.vins).take 1000
        ∃ t, exec (.speedCeilingUpdate k mv) s = .next t ∧ (t.spin k).vins = vs ∧ (t.spin k).high = decide (19000 < mv) ∧
          t.cf k 0x4208 31 16 = min 18000 mv ∧
          (vs.length < 1000 → t.cf k 0x4208 13 0 = 0 ∧ t.cf k 0x4208 32 32 = 0) ∧
          (vs.length = 1000 → (∀ v ∈ vs, t.cf k 0x4208 13 0 ≤ if v < 4500 then 0 else min 7200 (v * 2 / 3)) ∧
            (∃ v ∈ vs, t.cf k 0x4208 13 0 = if v < 4500 then 0 else min 7200 (v * 2 / 3)) ∧
            t.cf k 0x4208 32 32 = b2n (vs.all (fun v => decide (6000 ≤ v)))) ∧
          ∀ o, s.front k = some o → o.op = 2 → o.started = true → s.cf k 0x4208 32 32 = 1 → t.cf k 0x4208 32 32 = 0 →
            t.ff k (wiOff o.head) 8 8 = 1))

/-- The stepper program serves move, home and set-position, runs a sled move form of the crossbar, ends a profile at its
target, freezes a stalled sled where it is and re-homes a stalled corrector once, and ends homing at the stop or without one
(R282 to R285, R287 to R290). `plan` gives an axis its profile, `goHome` its homing (R282, R290; log entry 133). -/
def Obligations.stepper_program_axes : Prop :=
  ∀ (s : State) (k a : Nat), program5 s k = true → a < 4 →
    let x := s.axis k a
    let seq := axisSeq s k a
    let goal := axisTarget s k a
    let rest := some (s.time + 100000000, 10000000, x.amp)
    let imax := min (if a < 2 then 1200 else 300) (axisParam s k a 12 2)
    let held := some (s.time + 20000000, 0, imax)
    let strong := max x.amp (axisParam s k a 14 2)
    let clip := fun (p : Int) => max 0 (min p (axisParam s k a 24 4))
    let becomes := fun (i : Instr) (y : Axis) => ∃ t, exec i s = .next t ∧ t.axis k a = { y with valid := true }
    let busy := fun (i : Instr) => becomes i { x with seq := seq, result := 3, reason := 3 }
    let ends := fun (t : State) (failed : Bool) (form moving : Nat) => ∃ v, t.out k (0xC2 + a) = some v ∧
      bitsOf v.toNat 31 23 = b2n failed * 2 ^ 8 + form % 128 * 2 + moving
    (axisNew s k a 1 = true →
      (axisBusy s k a 1 = true → busy (.stepperMove k a)) ∧
      (axisBusy s k a 1 = false → x.state = 0 ∨ x.state = 5 →
        becomes (.stepperMove k a) { x with seq := seq, result := 3, reason := 5 }) ∧
      (axisBusy s k a 1 = false → x.state ≠ 0 → x.state ≠ 5 →
        becomes (.stepperMove k a) { x.plan s k a (axisV s k a) (clip goal) with
          seq := seq, state := 2, result := 1, reason := if clip goal = goal then 0 else 2, target := clip goal
          runs := if x.runs = 4 then 4 else 1, amp := strong, fall := none, follows := false })) ∧
    (axisNew s k a 2 = true →
      (axisBusy s k a 2 = true → busy (.stepperHome k a)) ∧
      (axisBusy s k a 2 = false → becomes (.stepperHome k a) { x.goHome s k a with
        seq := seq, state := 3, stage := 1, result := 1, reason := 0, runs := 3, amp := axisParam s k a 18 2, fall := none })) ∧
    (axisNew s k a 3 = true →
      (axisBusy s k a 3 = true → busy (.stepperSetPosition k a)) ∧
      (axisBusy s k a 3 = false → becomes (.stepperSetPosition k a) { x with
        seq := seq, state := 1, result := 2, reason := 0, pos := goal, target := goal, segs := [], uncertain := false })) ∧
    (∀ w, a < 2 → s.out k (0xC0 + a) = some w → bitSet w.toNat 31 = true → x.form ≠ some (bitsOf w.toNat 30 24) →
      x.runs = 0 →
      let form := bitsOf w.toNat 30 24
      (x.state = 0 ∨ x.state = 5 → ∃ t, exec (.sledMoveForm k a) s = .next t ∧
        t.axis k a = { x with valid := true, form := some form, ackSeq := form, ackFailed := true } ∧ ends t true form 0) ∧
      (x.state ≠ 0 → x.state ≠ 5 →
        let dest := x.pos + fromField 24 (bitsOf w.toNat 23 0)
        ∃ t, exec (.sledMoveForm k a) s = .next t ∧ t.axis k a = { x.plan s k a (axisV s k a) (clip dest) with
            valid := true, state := 2, target := clip dest, runs := 2, clipped := decide (clip dest ≠ dest), form := some form
            amp := strong, fall := none, follows := false } ∧ ends t x.ackFailed x.ackSeq 1)) ∧
    (x.state = 2 → x.arrived = true →
      let y := { x with
        state := 1, pos := x.target, runs := 0, clipped := false, segs := [], load := 0xFF, seen := [], fall := rest }
      (x.runs ≠ 2 → becomes (.stepperMoveEnd k a) { y with result := 2 }) ∧
      (∀ form, x.runs = 2 → x.form = some form → ∃ t, exec (.stepperMoveEnd k a) s = .next t ∧
        t.axis k a = { y with valid := true, ackSeq := form, ackFailed := x.clipped } ∧ ends t x.clipped form 0)) ∧
    (
      let y := { x with segs := [], load := 0xFF, seen := [], amp := imax }
      (x.state = 2 → hasStalled imax false x.seen = true →
        (a < 2 → x.runs ≠ 2 → becomes (.stepperStall k a) { y with
          state := 4, target := x.pos, uncertain := true, runs := 0, clipped := false, fall := held, result := 4
          reason := 1 }) ∧
        (∀ form, a < 2 → x.runs = 2 → x.form = some form → ∃ t, exec (.stepperStall k a) s = .next t ∧
          t.axis k a = { y with
            valid := true, state := 4, target := x.pos, uncertain := true, runs := 0, clipped := false, fall := held
            ackSeq := form, ackFailed := true } ∧ ends t true form 0) ∧
        (2 ≤ a → x.runs ≠ 4 → becomes (.stepperStall k a) { y with
          state := 3, stage := 4, clock := 0, runs := 4, fall := none }) ∧
        (2 ≤ a → x.runs = 4 → becomes (.stepperStall k a) { y with
          state := 5, result := 4, reason := 1, runs := 0, stage := 0, fall := held })) ∧
      (2 ≤ a → x.state = 3 → x.runs = 4 → x.stage = 3 → hasStalled imax true x.seen = true →
        becomes (.stepperStall k a) { y with
          state := 5, result := 4, reason := 1, runs := 0, stage := 0, fall := held })) ∧
    (x.state = 3 → x.arrived = true →
      let y := { x with segs := [], stage := 0, load := 0xFF, seen := [], fall := rest }
      (x.stage = 1 → becomes (.homingEnd k a) { y with state := 5, result := 4, reason := 4, runs := 0 }) ∧
      (x.stage = 3 → x.runs = 4 →
        let z := { y with pos := 0, uncertain := false }
        becomes (.homingEnd k a) { z.plan s k a (axisV s k a) x.target with
          state := 2, amp := strong, fall := none }) ∧
      (x.stage = 3 → x.runs ≠ 4 → becomes (.homingEnd k a) { y with
        state := 1, result := 2, reason := 0, pos := 0, target := 0, uncertain := false, runs := 0 }))
/-- A calibration procedure starts on fe.cal.cmd when its conditions hold, taking its beam out of service, is refused with its
reason otherwise and ignored while another runs; it ends, its beam in service again, with its fields committed, to be in force from the
next slot frame boundary, or superseded, faulted or timed out with nothing committed (R183, R190 to R193). What the condition that the
focus loop is at rest means is the model's reading (log entry 130). -/
def Obligations.calibration_procedures : Prop :=
  ∀ (s : State) (k h b : Nat), aHead s k h = true →
    let status := fun (t : State) (state proc : Nat) => t.cf k 0x4008 1 0 = state ∧ t.cf k 0x4008 11 8 = proc
    (∀ proc g j i, (proc, g, j, i) ∈ ([(1, h, b, .calDataOffset k h b), (2, h, b, .calDataGain k h b),
        (3, h, 0, .calServoOffsets k h), (4, h, 0, .calServoGainBalance k h), (5, h, 0, .calMonitorOffsets k h),
        (6, h, 0, .calLaserLi k h), (7, 0, 0, .calSpindleCurrentOffset k), (8, 0, 0, .calShockOffset k)] :
          List (Nat × Nat × Nat × Instr)) →
      let r := calRefusal s k proc g j
      (s.cf k 0x4008 1 0 = 1 → exec i s = .next (s.setCf k 0x4008 7 7 1)) ∧
      (s.cf k 0x4008 1 0 ≠ 1 → r ≠ 0 → ∃ t, exec i s = .next t ∧ status t 3 proc ∧ t.cf k 0x4008 15 12 = r ∧ t.cal = s.cal) ∧
      (s.cf k 0x4008 1 0 ≠ 1 → r = 0 → ∃ t, exec i s = .next t ∧ status t 1 proc ∧
        t.calRun k = some { proc := proc, head := g, beam := j, start := s.time } ∧
        (proc ≤ 2 → bitSet (beamsOf t k g) j = false))) ∧
    (∀ c, s.calRun k = some c → c.proc < 16 →
      let us := (s.time - c.start) / 1000
      let ended := fun (t : State) (state reason : Nat) => status t state c.proc ∧ t.cf k 0x4008 15 12 = reason ∧
        t.calRun k = none ∧ (c.proc ≤ 2 → c.beam < 12 → bitSet (beamsOf t k c.head) c.beam = true)
      let kept := fun (t : State) => ∀ e ∈ calTargets c, t.reg (fAddr k e.1) = s.reg (fAddr k e.1)
      (∀ fault found, c.superseded = true → ∃ t, exec (.calEnd k fault found) s = .next t ∧ ended t 3 2 ∧ kept t) ∧
      (c.superseded = false → ∀ found, ∃ t, exec (.calEnd k true found) s = .next t ∧ ended t 3 5 ∧ kept t) ∧
      (c.superseded = false → ∀ vs, us ≤ calTimeout c.proc → ∃ t, exec (.calEnd k false (some vs)) s = .next t ∧
        ended t 2 0 ∧ ∀ e ∈ (calTargets c).zip vs, e.2 < 2 ^ (e.1.2.1 + 1 - e.1.2.2) →
          t.ff k e.1.1 e.1.2.1 e.1.2.2 = e.2 ∧
          t.trim k e.1.1 e.1.2.1 e.1.2.2 = s.trim k e.1.1 e.1.2.1 e.1.2.2) ∧
      (c.superseded = false → calTimeout c.proc ≤ us → ∃ t, exec (.calEnd k false none) s = .next t ∧ ended t 3 1 ∧
        kept t ∧ t.flt.head = s.flt.head + 1))

/-- A trace word enters its FIFO's open item, an end word makes the item's entries visible, a start that finds too little room
is dropped and opens a gap, and a burgee for the gap stands before the next item; a tag read pops the head into the latch;
flush and a pointer mismatch empty the FIFO; a capture item enters whole (R387 to R396). What the unit of dropped items counts at a
mismatch is free. -/
def Obligations.trace_and_capture_fifos : Prop :=
  (∀ (s : State) (c : Nat) (own : Bool) (v : Word), MayAccess s c .store own false (c / 8) (0x8000 + 0x40 * (c % 8)) false →
    let d := c / 8
    let n := c % 8
    let f := s.fifo d n
    let ovm := fifoOvm s d n
    let i := Instr.tracePut c own v
    let w : Word32 := v.truncate 32
    let vb := fld v 35 34 + 1
    let counts := fun (t : State) (x : Nat) => Tbl.at t.snap.count (1024 * d + 328 + n) =
      Tbl.at s.snap.count (1024 * d + 328 + n) + BitVec.ofNat 64 x
    let puts := fun (P : State → Prop) => ∃ t, exec i s = .next t ∧ P t ∧ t.cores = (s.started c).cores ∧ t.mem = s.mem ∧
      t.regs = s.regs
    (fifoOn s d n = false → exec i s = .next (s.started c)) ∧
    (fifoOn s d n = true → ovm = true → f.ovr = true → flag v 33 = false → puts (fun t => (t.fifo d n).vis = f.vis ∧
      (t.fifo d n).gap = true ∧ (t.fifo d n).item = f.item)) ∧
    (fifoOn s d n = true → ovm = false ∨ f.ovr = false →
      (f.item = none → f.gap = false → flag v 32 = true → (if ovm then 1 else 2) ≤ 512 - f.vis.length →
        puts (fun t => counts t 0 ∧ (t.fifo d n).dropped = f.dropped ∧ (t.fifo d n).gap = false ∧
          if flag v 33 then (t.fifo d n).vis = f.vis ++ itemEntries [w] vb ∧ (t.fifo d n).item = none
          else (t.fifo d n).vis = f.vis ∧ (t.fifo d n).item = some [w])) ∧
      (f.item = none → f.gap = true → flag v 32 = true → flag v 33 = false → 2 ≤ 512 - f.vis.length →
        puts (fun t => (t.fifo d n).vis = f.vis ++ [f.burgee s.time] ∧ (t.fifo d n).item = some [w] ∧
          (t.fifo d n).gap = false)) ∧
      (f.item = none → flag v 32 = true → 512 - f.vis.length < (if ovm && !f.gap then 1 else 2) →
        puts (fun t => (t.fifo d n).vis = f.vis ∧ (t.fifo d n).gap = true ∧ (t.fifo d n).dropped = f.dropped + 1 ∧
          (flag v 33 = false → (t.fifo d n).skip = true) ∧ counts t 1)) ∧
      (∀ ws, f.item = some ws → ws.length % 8 ≠ 0 → flag v 32 = false → f.skip = false → puts (fun t =>
        if flag v 33 then (t.fifo d n).vis = f.vis ++ itemEntries (ws ++ [w]) vb ∧ (t.fifo d n).item = none
        else (t.fifo d n).vis = f.vis ∧ (t.fifo d n).item = some (ws ++ [w]))))) ∧
  (∀ (s : State) (c d n : Nat) (own : Bool) (rd : BitVec 5), n ≤ 8 → MayAccess s c .load own false d (fifoBase n + 0x18) false →
    let f := s.fifo d n
    ∃ t, exec (.fifoTagPop c own d n rd) s = .next t ∧ t.core c = ((s.started c).core c).setR rd (BitVec.ofNat 64 f.tag) ∧
      (f.vis = [] → f.tag = 0 ∧ t.fifo d n = f) ∧
      (∀ e rest, f.vis = e :: rest → flag (BitVec.ofNat 64 f.tag) 31 = true ∧
        t.fifo d n = { f with vis := rest, latch := e.data }) ∧ t.mem = s.mem ∧ t.regs = s.regs) ∧
  (∀ (s : State) (d n : Nat), d < s.nslices → n ≤ 8 → s.down = false →
    let f := s.fifo d n
    let counts := fun (t : State) (x : Nat) => Tbl.at t.snap.count (1024 * d + 328 + n) =
      Tbl.at s.snap.count (1024 * d + 328 + n) + BitVec.ofNat 64 x
    (∃ t, exec (.fifoFlush d n) s = .next t ∧ (t.fifo d n).vis = [] ∧ (t.fifo d n).item = none ∧ (t.fifo d n).gap = true ∧
      (t.fifo d n).skip = true ∧ (t.fifo d n).latch = f.latch ∧
      counts t ((f.vis.filter (fun e => e.last)).length + if f.item.isSome then 1 else 0)) ∧
    (∃ t, exec (.fifoPointerMismatch d n) s = .next t ∧ (t.fifo d n).vis = [] ∧ (t.fifo d n).perr = true ∧
      (t.fifo d n).gapUnknown = true ∧ (t.fifo d n).latch = f.latch ∧ t.flt.head = s.flt.head + 1) ∧
    (∀ (adc : List (List (Option (BitVec 8)))) (start : Rat) (given : List (Nat × List Int)) (ws : List Word32),
      let src := s.cf d 0x8440 3 0
      let sel := s.cf d 0x8440 8 4
      n = 8 → fifoOn s d 8 = true → fifoOvm s d 8 = false → f.item = none → f.gap = false →
      captureWords s d src sel adc start given = some ws → ws ≠ [] → ceilDiv (ws.length + 1) 8 + 1 ≤ 8192 - f.vis.length →
      let head := BitVec.ofNat 32 (if src ≤ 3 then frameUnder s d (sel / 12) (sel % 12) else s.frame)
      ∃ t, exec (.captureItem d adc start given) s = .next t ∧ (t.fifo d 8).vis = f.vis ++ itemEntries (head :: ws) 4 ∧
        (t.fifo d 8).item = none ∧ (t.fifo d 8).dropped = f.dropped ∧ t.cores = s.cores ∧ t.mem = s.mem))
/-- A way test withdraws an unlocked way that no partition uses, and returns it if it passes; a buffer test runs on a buffer its
core owns and that nothing uses, and leaves it zero, its failing words poisoned and recorded (R421, R422). -/
def Obligations.way_and_buffer_self_tests : Prop :=
  ∀ (s : State) (d : Nat), d < s.nslices → s.down = false →
    (∀ w : BitVec 4,
      (wayTestOk s d w.toNat = true → ∃ t, exec (.ccBistGo d w) s = .next t ∧ (t.way d w.toNat).withdrawn = true ∧
        (t.way d w.toNat).lock = .none ∧ Tbl.at t.cache.wayTest d = some w.toNat ∧ ∃ n, t.reg (cAddr d 0x9018) =
          BitVec.ofNat 64 (s.time + n)) ∧
      (wayTestOk s d w.toNat = false → exec (.ccBistGo d w) s = .next (s.setReg (cAddr d 0x9018) (BitVec.allOnes 64)))) ∧
    (∀ w, Tbl.at s.cache.wayTest d = some w →
      (∃ t, exec (.ccBistEnd d true) s = .next t ∧ (t.way d w).withdrawn = false ∧ Tbl.at t.cache.wayTest d = none) ∧
      (∃ t, exec (.ccBistEnd d false) s = .next t ∧ t.way d w = s.way d w ∧ Tbl.at t.cache.wayTest d = none ∧
        t.flt.head = s.flt.head + 1)) ∧
    (∀ (c : Nat) (own : Bool) (handle : BitVec 32), MayAccess s c .store own false d 0x9820 false →
      let u := s.started c
      let h := handle.toNat
      let free := Tbl.at s.cache.bufTest d = none
      let owned := handleOk s h = true ∧ handleDie h = d ∧ (s.buf d (handleIndex h)).gen.toNat = handleGen h ∧
        c ∈ (s.buf d (handleIndex h)).owners
      (¬ free → exec (.memBistGo c own d handle) s = .next u) ∧
      (free → ¬ owned → exec (.memBistGo c own d handle) s = .next (u.setCf d 0x9828 3 0 4)) ∧
      (free → owned → bufBusy s h = true → exec (.memBistGo c own d handle) s = .next (u.setCf d 0x9828 3 0 5)) ∧
      (free → owned → bufBusy s h = false → ∃ t, exec (.memBistGo c own d handle) s = .next t ∧ t.cf d 0x9828 3 0 = 1 ∧
        Tbl.at t.cache.bufTest d = some { handle := h, core := c } ∧
        (∀ l ∈ t.cache.lines, l.die = memDie l.addr → l.addr % 128 = 0 →
          l.addr < handleAddr h ∨ handleAddr h + 0x2_0000 ≤ l.addr))) ∧
    (∀ x (failed : List (BitVec 14)), Tbl.at s.cache.bufTest d = some x →
      let a := handleAddr x.handle
      ∃ t, exec (.memBistEnd d failed) s = .next t ∧ Tbl.at t.cache.bufTest d = none ∧
        (∀ i, i < 0x2_0000 → t.byte (a + i) = 0) ∧ (∀ i ∈ failed, t.eccAt (a + 8 * i.toNat) = .bad) ∧
        (failed = [] → t.cf d 0x9828 3 0 = 2 ∧ t.cf d 0x9828 47 32 = 0) ∧
        (failed ≠ [] → t.cf d 0x9828 3 0 = 3 ∧ t.cf d 0x9828 47 32 = failed.dedup.length ∧
          t.flt.head = s.flt.head + 1))

/-- A write of mem.cfg.rate, at Boot level before seal, retrains every channel; training and retracking that fail, and a
transfer that fails four replays, lose the channel and stop the package with code 4; the scrubbers correct every correctable
word they read and record the uncorrectable ones (R85, R411, R412, R419, R604). The SRAM scrubber's pass is stated for staging caches
that hold no error. How many bytes it read is free (log entry 38). -/
def Obligations.memory_controller_and_scrub : Prop :=
  ∀ (s : State) (d : Nat), d < s.nslices → s.down = false →
    let lost := fun (t : State) (chans : Nat) => t.cf d 0x9808 11 8 = Nat.lor (s.cf d 0x9808 11 8) chans ∧
      t.cf d 0x9808 3 0 = Nat.land (s.cf d 0x9808 3 0) (15 - chans) ∧ t.cf 0 0x0200 20 20 = 1 ∧
      (s.stopped = false → t.cf 0 0x0200 31 24 = 4)
    (∀ (c : Nat) (own : Bool) (rate : BitVec 2),
      (MayAccess s c .store own false d 0x9800 true → exec (.memRateWrite c own d rate) s =
        .next (((s.started c).setCf d 0x9800 1 0 rate.toNat).setCf d 0x9808 3 0 0)) ∧
      (Barred s c own false d 0x9800 → ∃ t, exec (.memRateWrite c own d rate) s = .next t ∧
        RaisesProtected s t c (regAt own c false d 0x9800))) ∧
    (s.cf d 0x9808 3 0 = 0 →
      (∃ t, exec (.gddr6TrainingEnd d 0) s = .next t ∧ t.cf d 0x9808 3 0 = 15 - s.cf d 0x9808 11 8 ∧
        t.cf d 0x9808 11 8 = s.cf d 0x9808 11 8) ∧
      (∀ failed, failed ≠ 0 → ∃ t, exec (.gddr6TrainingEnd d failed) s = .next t ∧
        t.cf d 0x9808 11 8 = Nat.lor (s.cf d 0x9808 11 8) failed.toNat ∧ t.cf 0 0x0200 20 20 = 1)) ∧
    (∀ failed : BitVec 4,
      (Nat.land failed.toNat (s.cf d 0x9808 3 0) = 0 → exec (.gddr6Retrack d failed) s = .next s) ∧
      (Nat.land failed.toNat (s.cf d 0x9808 3 0) ≠ 0 → ∃ t, exec (.gddr6Retrack d failed) s = .next t ∧
        lost t (Nat.land failed.toNat (s.cf d 0x9808 3 0)))) ∧
    (∀ (chan : BitVec 2) (failed : Nat), ∃ t, exec (.edcFail d chan failed) s = .next t ∧
      Tbl.at t.snap.count (1024 * d + 360) = Tbl.at s.snap.count (1024 * d + 360) + BitVec.ofNat 64 (min 4 (failed + 1)) ∧
      (4 ≤ failed → lost t (2 ^ chan.toNat)) ∧ (failed < 4 → t.regs = s.regs)) ∧
    (s.cf d 0x9810 31 16 ≠ 0 → CacheSound s → ∃ t, exec (.sramScrubPass d) s = .next t ∧ t.mem = s.mem ∧ ∀ w, memKind w ≠ 3 → memDie w = d →
      t.eccAt w = if s.eccAt w = .corr then .clean else s.eccAt w) ∧
    (s.cf d 0x9810 15 0 ≠ 0 → ∃ t, exec (.gddr6ScrubPass d) s = .next t ∧
      Tbl.at t.snap.count (1024 * d + 361) = Tbl.at s.snap.count (1024 * d + 361) + 477102080 ∧
      ∀ w, w % 8 = 0 → memKind w = 3 → memDie w = d →
        (∀ l ∈ s.cache.lines, l.die = d → l.dirty = true → l.addr ≠ lineAddr w) →
        t.eccAt w = if s.eccAt w = .corr then .clean else s.eccAt w)
/-- A deck core rings and clears doorbells, pops its completion queue, clears its corrected-error report and acknowledges
faults; a register store writes each field by its access code, or does what the register does of its own; telemetry ignores stores; a
store to protected fields raises 0x0D below Boot level or after seal; and every command that stands for one access raises what the
access meets, a region fault, a misalignment or a bus error (R7, R10, R73, R79, R85, R89, R147, R610, R621, R653, R655). That a store
which a region or the map bars raises that event before 0x0D is the model's choice (log entry 119). -/
def Obligations.register_accesses : Prop :=
  ∀ (s : State) (c : Nat),
    let u := s.started c
    let k := u.core c
    (∀ (own : Bool),
      (∀ x : BitVec 5, MayAccess s c .store own false (c / 8) 0x0140 false →
        exec (.doorbellSend c own x) s = .next (if s.hasCore x.toNat then
          u.modCore x.toNat (fun e => { e with dbPend := e.dbPend ||| BitVec.ofNat 32 (2 ^ c) }) else u)) ∧
      (∀ mask, MayAccess s c .store own false (c / 8) (0x0180 + 8 * (c % 8)) false →
        exec (.doorbellClear c own mask) s = .next (u.setCore c { k with dbPend := k.dbPend &&& ~~~mask })) ∧
      (∀ rd, MayAccess s c .load own false (c / 8) (0x0100 + 8 * (c % 8)) false →
        ∃ t, exec (.completionQueuePop c own rd) s = .next t ∧ t = u.setCore c (t.core c) ∧
          (k.cq = [] → (rd ≠ 0 → (t.core c).r rd = 0) ∧ (t.core c).cq = [] ∧ (t.core c).cqWait = k.cqWait) ∧
          (∀ x rest, k.cq = x :: rest → (t.core c).cq ++ (t.core c).cqWait = rest ++ k.cqWait ∧
            (rd ≠ 0 → (t.core c).r rd = BitVec.ofNat 64 (2 ^ 63 + rest.length % 256 * 2 ^ 16 + x % 2 ^ 16)))) ∧
      (MayAccess s c .store own false (c / 8) (0x01C0 + 8 * (c % 8)) false →
        exec (.cerClear c own) s = .next (u.setCore c { k with cerPend := false, cerCnt := 0 })) ∧
      (∀ seq, MayAccess s c .store own false (c / 8) (0x0308 + 8 * (c % 8)) false →
        exec (.faultAck c own seq) s = .next (u.setCore c { k with fltAck := seq.toNat }))) ∧
    (∀ (own fdie : Bool) (d : Nat) (off : BitVec 20) (v : Word),
      let n := off.toNat
      let a := pageAddr fdie d n
      let prot := !inWindow fdie n && guarded fdie d n
      let i := Instr.registerWrite c own fdie d off v
      let effect := if fdie then fdieStore d n v u else cdieStore c d n v u
      (MayAccess s c .store own fdie d n prot →
        (inWindow fdie n = true → n < 0x1_8000 → n % 0x1000 < 0x800 →
          exec i s = .next (memWrite (cAddr d n) (leBytes 8 v.toNat) u)) ∧
        (inWindow fdie n = true → n < 0x1_8000 → 0x800 ≤ n % 0x1000 → exec i s = .next u) ∧
        (inWindow fdie n = true → 0x2_0000 ≤ n → ∀ h, bankUser s d ((n - 0x2_0000) / 0x800) = some h →
          exec i s = .next (u.setCf d (0x6080 + 8 * h) 29 29 1)) ∧
        (inWindow fdie n = false →
          (∀ t, effect = some t → exec i s = .next t) ∧
          (effect = none → n < 0xB000 ∨ 0xC000 ≤ n →
            (∀ r, regRow fdie d n = some r → exec i s = .next (u.setReg a (r.flds.foldl (fun x f => match f.acc with
              | .ro => x
              | .wo => x
              | .w1c => putFld x f.hi f.lo (fld (x &&& ~~~v) f.hi f.lo)
              | _ => putFld x f.hi f.lo (fld v f.hi f.lo)) (s.reg a)))) ∧
            (regRow fdie d n = none → exec i s = .next u)))) ∧
      (Barred s c own fdie d n → prot = true → ∃ t, exec i s = .next t ∧ RaisesProtected s t c (regAt own c fdie d n))) ∧
    (∀ (own fdie verified go : Bool) (d : Nat) (off : BitVec 20) (v : Word) (x rd : BitVec 5) (w : BitVec 32)
        (offset : BitVec 10) (n : BitVec 2) (b : BitVec 6) (key : BitVec 16) (fifo : Nat),
      awake s c = true → (s.core c).broken = false → flag (s.core c).status 1 = false → fifo ≤ 8 →
      ∀ i kind f e at_, (i, kind, f, e, at_) ∈ ([(.doorbellSend c own x, .store, false, c / 8, 0x0140),
          (.doorbellClear c own w, .store, false, c / 8, 0x0180 + 8 * (c % 8)),
          (.completionQueuePop c own rd, .load, false, c / 8, 0x0100 + 8 * (c % 8)),
          (.cerClear c own, .store, false, c / 8, 0x01C0 + 8 * (c % 8)),
          (.faultAck c own w, .store, false, c / 8, 0x0308 + 8 * (c % 8)),
          (.registerWrite c own fdie d off v, .store, fdie, d, off.toNat),
          (.tracePut c own v, .store, false, c / 8, 0x8000 + 0x40 * (c % 8)),
          (.fifoTagPop c own d fifo rd, .load, false, d, fifoBase fifo + 0x18),
          (.noticePop c own rd, .load, false, c / 8, 0xC800 + 8 * (c % 8)),
          (.jobRequest c own, .store, false, 0, 0xA100 + 0x40 * c + 0x20),
          (.mapFillDeltas c own d, .store, false, d, 0x7218), (.mapFillCheckpoint c own d, .store, false, d, 0x7218),
          (.mapIngest c own d, .store, false, d, 0x7218), (.memBistGo c own d w, .store, false, d, 0x9820),
          (.memRateWrite c own d n, .store, false, d, 0x9800), (.keyGenerate c own n offset, .store, false, 0, 0xE048),
          (.keyLoad c own n offset, .store, false, 0, 0xE048), (.keyEvict c own n, .store, false, 0, 0xE048),
          (.keyEvictDrive c own n, .store, false, 0, 0xE048), (.keyCreateKek c own, .store, false, 0, 0xE048),
          (.keyEscrow c own offset, .store, false, 0, 0xE048),
          (.fuseBurnOemHash c own n verified, .store, false, 0, 0xE060),
          (.fuseRevokeSlot c own n verified, .store, false, 0, 0xE060), (.svnBurn c own b, .store, false, 0, 0xE018),
          (.coreRelease c own w, .store, false, 0, 0xE008), (.firmwareReset c own key go, .store, false, 0, 0x0208),
          (.coreWatchdogKick c own, .store, false, c / 8, 0x02C0)] : List (Instr × Kind × Bool × Nat × Nat)) →
        ∀ ev, accessFault u c kind (regAt own c f e at_) 8 = some ev →
          ∃ t, exec i s = .next t ∧ TakesEvent s t c ev.cause ev.eaddr ev.einfo)

/-- IDENT answers the identity register or the issuer's place; SEAL, which only Boot level may issue, seals once, by core 0 with no
other core at that level, and makes the slot on trial active; MEASURE extends the record open to its level; RETAIN writes a section and raises the block sequence, and a shadow update
that ends is noted in the header (R86, R143 to R146, R522, R531, R593). That a debug session which is unlocked lasts on is the model's
reading (log entry 141). -/
def Obligations.identity_seal_measure_and_retain : Prop :=
  ∀ (s : State) (c : Nat) (rd ra rb : BitVec 5) (xmod : BitVec 6),
    let w := s.woken c
    let a := ((s.core c).r ra).toNat
    let b := ((s.core c).r rb).toNat
    (a = 0 → b = 0 →
      (MayIssue s c 0x18 0 [] → Succeeds s (.identValue c rd ra rb) c rd s.identity.toNat w) ∧
      (MayIssue s c 0x18 1 [] → Succeeds s (.identPlace c rd ra rb) c rd (s.place false (c / 8)).toNat w) ∧
      (MayIssue s c 0x17 xmod.toNat [] →
        let others := (List.range (8 * s.nslices)).any (fun d =>
          d != 0 && (s.core d).run != .inReset && (s.core d).level == .boot)
        (s.sealed = true → Fails s (.seal c rd ra rb xmod) c rd 0x60 1 w) ∧
        (s.sealed = false → c ≠ 0 → Fails s (.seal c rd ra rb xmod) c rd 0x60 2 w) ∧
        (s.sealed = false → c = 0 → others = true → Fails s (.seal c rd ra rb xmod) c rd 0x60 3 w) ∧
        (s.sealed = false → c = 0 → others = false →
          ∃ t, Succeeds s (.seal c rd ra rb xmod) c rd 0 t ∧ t.sealed = true ∧
            t.cf 0 0xE000 27 26 = (if w.cf 0 0xE000 27 26 = 1 then 0 else w.cf 0 0xE000 27 26) ∧
            t.sec.setup = setupDigest w ∧ t.sec.tclsCopy = some (w.cf 0 0xE020 13 0) ∧
            ∀ r, s.sec.boot = some r → r.kind = 1 → t.sec.boot = none ∧ t.sec.nextSeq = s.sec.nextSeq + 1 ∧
              (s.sec.tried = true → s.sec.trial = some r.slot → t.sec.active = r.slot ∧ t.sec.trial = none)))) ∧
    (∀ key bs u, MayIssue s c 0x16 xmod.toNat [⟨a, 48, true, false⟩] → a % 8 = 0 → 0x100 ≤ b → b ≤ 0xFFFF →
      placeOf w c a 48 false = some key → readOperand c key 48 w = (some bs, u) →
      let lvl := (s.core c).level
      let i := Instr.measure c rd ra rb xmod
      (∀ x, lvl = .boot → s.sealed = false → s.sec.boot = some x →
        (x.meas.length < 13 → ∃ t, Succeeds s i c rd (x.meas.length + 1) t ∧
          t.sec.boot = some { x with meas := x.meas ++ [measEntry b 3 c bs] }) ∧
        (13 ≤ x.meas.length → Fails s i c rd 0x58 2 u)) ∧
      (∀ x, lvl = .supervisor → s.sec.act = some x →
        (x.meas.length < 14 → ∃ t, Succeeds s i c rd (x.meas.length + 1) t ∧
          t.sec.act = some { x with meas := x.meas ++ [measEntry b 1 c bs] }) ∧
        (14 ≤ x.meas.length → Fails s i c rd 0x58 2 u)) ∧
      (lvl = .task ∨ (lvl = .supervisor ∧ s.sec.act = none) ∨ (lvl = .boot ∧ (s.sealed = true ∨ s.sec.boot = none)) →
        Fails s i c rd 0x58 1 u)) ∧
    (∀ key bs u, a < 6 → MayIssue s c 0x15 xmod.toNat [⟨b, secLen s.nslices a, true, false⟩] → b % 8 = 0 →
      placeOf w c b (secLen s.nslices a) false = some key → readOperand c key (secLen s.nslices a) w = (some bs, u) →
      let seq := (s.blockSeq + 1) % 2 ^ 32
      (xmod = 1 → s.aon.shadowRun.isSome = true → Fails s (.retain c rd ra rb xmod) c rd 0x50 0 u) ∧
      (xmod = 0 ∨ s.aon.shadowRun = none → ∃ t, Succeeds s (.retain c rd ra rb xmod) c rd seq t ∧ t.blockSeq = seq ∧
        t.bytes (aonBase + secOff a) (secLen s.nslices a) = bs ∧ (xmod = 1 → t.aon.shadowRun.isSome = true))) ∧
    (∀ n image, s.aon.shadowRun = some (n, image) → ∃ t, exec .retainShadowDone s = .next t ∧ t.aon.shadowRun = none ∧
      Tbl.at t.aon.shadows n = image ∧ t.shadowSeq = leAt image 8 4 ∧ t.blockSeq = s.blockSeq)

/-- A key-store command is held while it runs and ends with its result: a KEK created, a drive's keys evicted, a media key
evicted or absent, all refused while the store is locked; fuses burn a key hash once, revoke a slot and raise the SVN floor,
and released cores come to sec.entry at Boot level, each by a Boot-level store before seal only (R85, R526, R540, R549). -/
def Obligations.key_store_fuses_and_core_release : Prop :=
  ∀ (s : State) (c : Nat) (own : Bool), s.down = false →
    let u := s.started c
    (MayAccess s c .store own false 0 0xE048 false → ∀ (drive : BitVec 2) (offset : BitVec 10) op dr off i, (op, dr, off, i) ∈
        ([(1, drive.toNat, offset.toNat, .keyGenerate c own drive offset),
          (2, drive.toNat, offset.toNat, .keyLoad c own drive offset), (3, drive.toNat, 0, .keyEvict c own drive),
          (4, drive.toNat, 0, .keyEvictDrive c own drive), (5, 0, 0, .keyCreateKek c own),
          (6, 0, offset.toNat, .keyEscrow c own offset)] : List (Nat × Nat × Nat × Instr)) →
      (s.sec.key.isSome = true → exec i s = .next u) ∧
      (s.sec.key = none → ∃ t, exec i s = .next t ∧ t.cf 0 0xE050 8 8 = 1 ∧ t.cf 0 0xE050 3 0 = 2 ∧
        t.sec.key = some { op := op, core := c, drive := dr, keyId := s.cf 0 0xE040 63 32, handle := s.cf 0 0xE040 31 0
                           offset := off })) ∧
    (∀ q, s.sec.key = some q → 3 ≤ q.op → q.op ≤ 5 →
      let mine := fun (m : MediaKey) => m.drive == q.drive && m.id == q.keyId
      let ends := fun (result : Nat) (keks : List Kek) (media : List MediaKey) => ∃ t, exec .keyCommandEnd s = .next t ∧
        t.sec.key = none ∧ t.cf 0 0xE050 8 8 = 0 ∧ t.cf 0 0xE050 3 0 = result ∧ t.keys.keks = keks ∧ t.keys.media = media
      (s.keys.locked = true → q.op = 5 ∨ q.drive < s.nslices → ends 4 s.keys.keks s.keys.media) ∧
      (s.keys.locked = false → q.op = 3 → q.drive < s.nslices → s.keys.media.any mine = true →
        ends 1 s.keys.keks (s.keys.media.filter (fun m => !mine m))) ∧
      (s.keys.locked = false → q.op = 3 → q.drive < s.nslices → s.keys.media.any mine = false →
        ends 5 s.keys.keks s.keys.media) ∧
      (s.keys.locked = false → q.op = 4 → q.drive < s.nslices →
        ends 1 s.keys.keks (s.keys.media.filter (fun m => m.drive != q.drive))) ∧
      (s.keys.locked = false → q.op = 5 → 4 ≤ s.keys.keks.length → ends 8 s.keys.keks s.keys.media) ∧
      (s.keys.locked = false → q.op = 5 → s.keys.keks.length < 4 → ∃ x, ends 1 (s.keys.keks ++ [x]) s.keys.media)) ∧
    (∀ (n : BitVec 2) (v : BitVec 6) (mask : BitVec 32),
      let hash := (List.range 6).flatMap (fun i => leBytes 8 (s.reg (cAddr 0 (0xE100 + 8 * i))).toNat)
      (MayAccess s c .store own false 0 0xE060 true →
        (∀ verified, oemBurnt s n.toNat = true → ∃ t, exec (.fuseBurnOemHash c own n verified) s = .next t ∧
          t.cf 0 0xE000 11 8 = 2 ∧ t.sec = s.sec) ∧
        (oemBurnt s n.toNat = false → ∃ t, exec (.fuseBurnOemHash c own n true) s = .next t ∧ t.cf 0 0xE000 11 8 = 1 ∧
          Tbl.at t.sec.oem n.toNat = hash ∧ t.sec.revoked = s.sec.revoked ∧ t.cores = u.cores ∧ t.mem = s.mem) ∧
        (oemBurnt s n.toNat = false → ∃ t, exec (.fuseBurnOemHash c own n false) s = .next t ∧ t.cf 0 0xE000 11 8 = 3) ∧
        (∃ t, exec (.fuseRevokeSlot c own n true) s = .next t ∧ t.cf 0 0xE000 11 8 = 1 ∧ n.toNat ∈ t.sec.revoked ∧
          t.sec.oem = s.sec.oem ∧ t.cores = u.cores ∧ t.mem = s.mem) ∧
        (∃ t, exec (.fuseRevokeSlot c own n false) s = .next t ∧ t.cf 0 0xE000 11 8 = 3 ∧ t.sec.oem = s.sec.oem)) ∧
      (MayAccess s c .store own false 0 0xE018 true →
        ∃ t, exec (.svnBurn c own v) s = .next t ∧ t.cf 0 0xE018 5 0 = max (s.cf 0 0xE018 5 0) v.toNat) ∧
      (MayAccess s c .store own false 0 0xE008 true →
        ∃ t, exec (.coreRelease c own mask) s = .next t ∧ ∀ i, i < 8 * s.nslices →
          (mask.getLsbD i = true → s.cf 0 0xE008 i i = 0 → t.cf 0 0xE008 i i = 1 ∧ (t.core i).run = .running ∧
            (t.core i).level = .boot ∧ (t.core i).pc = BitVec.ofNat 64 (4 * s.cf 0 0xE010 39 2) ∧
            (t.core i).kickAt = s.time) ∧
          (mask.getLsbD i = false ∨ s.cf 0 0xE008 i i ≠ 0 → t.core i = u.core i)) ∧
      (∀ verified i off, (i, off) ∈ ([(.fuseBurnOemHash c own n verified, 0xE060), (.fuseRevokeSlot c own n verified, 0xE060),
          (.svnBurn c own v, 0xE018), (.coreRelease c own mask, 0xE008)] : List (Instr × Nat)) →
        Barred s c own false 0 off → ∃ t, exec i s = .next t ∧ RaisesProtected s t c (regAt own c false 0 off)))

/-- A tamper event sets its bits and locks or erases the key store by its class; a JTAG instruction is served when open and is
BYPASS, and after seal a tamper event, when not; a debug response opens its level or is a tamper event; Ensign records close
on request or in time and go to the flash history; the boot ROM boots the first valid slot or takes the link down (R522,
R523, R528, R532 to R535, R543 to R547). The form of the halt, resume, read and write instructions is the model's choice (log entry
142). -/
def Obligations.tamper_debug_records_and_boot : Prop :=
  ∀ (s : State),
    let tampered := fun (t : State) (src : Nat) => t.cf 0 0xE028 src src = 1 ∧ t.cf 0 0xE028 (8 + src) (8 + src) = 1 ∧
      (tamperClass s src = 0 → t.keys = s.keys) ∧ (tamperClass s src = 1 → t.keys = { s.keys with locked := true }) ∧
      (tamperClass s src = 2 → t.keys.keks = [] ∧ t.keys.media = [])
    let ring := fun (t : State) => t.sec.nextSeq = s.sec.nextSeq + 1 ∧ t.sec.ring.length = min 64 (s.sec.ring.length + 1)
    (∀ src, src ≤ 6 → s.down = false ∨ (src ≠ 3 ∧ src ≠ 4) → ∃ t, exec (.tamperEvent src) s = .next t ∧ tampered t src) ∧
    (∃ t, exec .meshTamper s = .next t ∧ tampered t 0) ∧
    (s.cf 0 0xE028 7 7 = 0 → ∃ t, exec (.lidTamper true) s = .next t ∧ tampered t 6 ∧ t.cf 0 0xE028 7 7 = 1) ∧
    (s.cf 0 0xE028 7 7 = 1 → exec (.lidTamper true) s = .next (s.setCf 0 0xE028 7 7 1)) ∧
    (exec (.lidTamper false) s = .next (s.setCf 0 0xE028 7 7 0)) ∧
    (s.down = false →
      (∀ die, dieExists s die = true →
        let x := Tbl.at s.therm die
        let gap := x.diode - (x.t.getD 1 0 + x.off)
        (16 ≤ x.cold ∨ 20 < gap ∨ gap < -20) → ∃ t, exec (.temperatureTamper die) s = .next t ∧ tampered t 4) ∧
      (∀ c, debugOpen s = true →
        (∃ t, exec (.jtagInstruction (.halt c)) s = .next t ∧ t.sec.jtag = .halt c ∧
          (s.hasCore c = true → (s.core c).run = .running ∨ (s.core c).run = .wfe → (t.core c).run = .halted)) ∧
        (∃ t, exec (.jtagInstruction (.resume c)) s = .next t ∧ t.sec.jtag = .resume c ∧
          (s.hasCore c = true → (s.core c).run = .halted → (t.core c).run = .running)) ∧
        (∀ a n key, debugReaches s c a n = true → placeOf s c a n false = some key →
          ∃ t, exec (.jtagInstruction (.read c a n)) s = .next t ∧ t.sec.tdo = s.bytes key n ∧ t.mem = s.mem) ∧
        (∀ a data key, debugReaches s c a data.length = true → placeOf s c a data.length false = some key →
          exec (.jtagInstruction (.write c a data)) s =
            .next (writeOperand c key data (s.setSec { s.sec with jtag := .write c a data })))) ∧
      (∀ j ∈ [Jtag.idcode, .bypass, .sample, .unlock], ∃ t, exec (.jtagInstruction j) s = .next t ∧ t.sec.jtag = j ∧
        (j = .unlock → t.sec.nonce.length = 32)) ∧
      (∀ c, debugOpen s = false →
        (s.sealed = false → ∃ t, exec (.jtagInstruction (.halt c)) s = .next t ∧ t.sec.jtag = .bypass ∧ t.cores = s.cores) ∧
        (s.sealed = true → ∃ t, exec (.jtagInstruction (.halt c)) s = .next t ∧ tampered t 5 ∧ t.cores = s.cores)) ∧
      (∀ (key sig : List Byte) (level : Nat), s.sec.nonce ≠ [] →
        let ok := Config.verify key (s.sec.nonce ++ deviceSerial ++ leBytes 1 level) sig = true ∧
          ((level = 2 ∧ keyAdmitted s key = true) ∨
            (level = 3 ∧ bitSet s.sec.policy 1 = true ∧ Config.sha384 key = Config.vendorHash))
        (ok → ∃ t, exec (.debugUnlock level key sig) s = .next t ∧ t.cf 0 0xE000 27 26 = level ∧ t.sec.debugHeld = true ∧
          t.sec.nonce = [] ∧ (level = 3 → t.keys.keks = [] ∧ t.keys.media = []) ∧ (level = 2 → t.keys = s.keys)) ∧
        (¬ ok → ∃ t, exec (.debugUnlock level key sig) s = .next t ∧ t.sec.nonce = [] ∧ tampered t 5)) ∧
      (∀ r, s.sec.act = some r → r.kind = 2 →
        (∃ t, exec .ensignClose s = .next t ∧ t.sec.act = none ∧ ring t ∧ t.sec.appends.length = s.sec.appends.length + 1) ∧
        (r.openedAt + 2000000000 ≤ s.time → ∃ t, exec .activationRecordTimeout s = .next t ∧ t.sec.act = none ∧ ring t)) ∧
      (∀ r, s.sec.boot = some r → r.kind = 1 → r.openedAt + 60000000000 ≤ s.time →
        ∃ t, exec .bootRecordTimeout s = .next t ∧ t.sec.boot = none ∧ ring t ∧ t.sealed = s.sealed) ∧
      (∀ b rest, s.sec.appends = b :: rest →
        (∃ t, exec (.ensignFlashAppend true) s = .next t ∧ t.sec.appends = rest ∧ t.sec.history =
          (if s.sec.history.length < 15360 then s.sec.history else s.sec.history.drop 64) ++ [b]) ∧
        exec (.ensignFlashAppend false) s = .next s) ∧
      (∀ r, s.stopped = false → s.sec.boot = some r → r.meas = [] → s.sealed = false → (s.core 0).run = .running →
        (∀ n, chooseSlot (romEntries s) = some n → ∃ t, exec .bootRomStart s = .next t ∧ (t.core 0).pc = 0x0010_0000 ∧
          t.sec.runSlot = n ∧ t.sec.running = slotImage s n) ∧
        (chooseSlot (romEntries s) = none → ∃ t, exec .bootRomStart s = .next t ∧ t.sec.noSlot = true ∧ t.sec.boot = none ∧
          t.host.linkUp = false ∧ ring t)) ∧
      (s.sec.noSlot = true → s.sec.triedAt + 10000000000 ≤ s.time →
        (∀ n, chooseSlot s = some n → ∃ t, exec .bootRetry s = .next t ∧ (t.core 0).pc = 0x0010_0000 ∧ t.sec.noSlot = false ∧
          t.sec.runSlot = n ∧ t.host.linkUp = !s.host.perst) ∧
        (chooseSlot s = none → exec .bootRetry s = .next (s.setSec { s.sec with triedAt := s.time }))))
/-- The ring forms: a package with block lock sends FORM, gives way to a lower position and marks its own, becomes root when its
own returns, and enters the formed state, or the refusal, on both parts of FORMED; TIME frames step or slew ring time and lock
it; a dead input wraps, a request wraps the other side, and a healed input forms the ring again (R554 to R565, R578). -/
def Obligations.ring_forms_keeps_time_and_wraps : Prop :=
  ∀ (s : State), s.bypassOpen = true →
    let wrapBit := fun (t : State) (input : Nat) => t.cf 0 0xF008 (18 + input) (18 + input)
    let sent := fun (t : State) (n : Nat) => t.ring.out.length = s.ring.out.length + n
    (s.ringState = 0 ∨ s.ringState = 1 → s.ring.form = none → s.ring.gaveWay = false →
      ∃ t, exec .ringBlockLock s = .next t ∧ t.ringState = 1 ∧ t.ring.form = some (s.ring.seq, s.time) ∧ sent t 1) ∧
    (∀ (port : Nat) (blocks : List Word) (f : RFrame), port ≤ 1 → parseFrame blocks = some f →
      (f.type = 2 →
        (∀ sentAt others, f.src = s.pos → s.ring.form = some (f.seq, sentAt) →
          ∃ t, exec (.formReceived port blocks others) s = .next t ∧ t.formed = true ∧ t.ring.map = mapOf f.data ∧
            t.cf 0 0xF008 40 32 = s.pos ∧ t.rot = (s.time - sentAt) % 2 ^ 32 ∧ t.ring.form = none ∧
            t.ring.formNum = s.ring.formNum + 1 ∧ t.ring.formedOnce = true) ∧
        (∀ others, f.src < s.pos → ∃ t, exec (.formReceived port blocks others) s = .next t ∧ t.ringState = 1 ∧
          t.ring.form = none ∧ t.ring.gaveWay = true ∧ t.ring.refuse =
            (if bitSet (mapOf f.data) s.pos then 2 else if mapOf f.data / 2 ^ (s.pos + 1) ≠ 0 then 3 else s.ring.refuse)) ∧
        (∀ others, s.pos < f.src → s.ring.form = none → s.ring.gaveWay = false →
          ∃ t, exec (.formReceived port blocks others) s = .next t ∧ t.ringState = 1 ∧
            t.ring.form = some (s.ring.seq, s.time) ∧ sent t 1) ∧
        (∀ others, s.pos < f.src → s.ring.form.isSome = true →
          exec (.formReceived port blocks others) s = .next (s.count 0 (416 + port) 1))) ∧
      (f.type = 3 → f.src ≠ s.pos → f.data.length = 8 →
        (s.ring.part1 = none → ∃ t, exec (.formedReceived port blocks) s = .next t ∧ t.ringState = s.ringState ∧
          t.ring.part0 = some { seq := f.seq, data := f.data, at_ := s.time }) ∧
        (∀ q, s.ring.part1 = some q → q.seq = f.seq →
          (s.ring.refuse = 0 → s.formed = false → ∃ t, exec (.formedReceived port blocks) s = .next t ∧ t.formed = true ∧
            t.ring.map = mapOf f.data ∧ t.cf 0 0xF008 40 32 = f.src ∧ t.rot = fld (q.data.getD 0 0) 31 0 ∧
            t.ring.part0 = none ∧ t.ring.part1 = none) ∧
          (s.ring.refuse ≠ 0 → ∃ t, exec (.formedReceived port blocks) s = .next t ∧ t.ringState = 4 ∧
            t.cf 0 0xF008 7 4 = s.ring.refuse % 16))) ∧
      (f.type = 9 → f.data.length = 1 → f.dst = s.pos → ∀ residence,
        ∃ t, exec (.probeReceived port blocks residence) s = .next t ∧ sent t 1) ∧
      (f.type = 9 → f.data.length = 2 → f.dst = s.pos → ∃ t, exec (.probeReplyReceived port blocks) s = .next t ∧
        t.ring.delay = ((s.ringTime - f.at_ 0) * 16 - f.at_ 1 % 2 ^ 32) / 2) ∧
      (f.type = 1 → s.formed = true → f.src ≠ s.pos → ∀ residence,
        let err : Int := (f.at_ 0 : Int) + ((f.at_ 1 + s.ring.delay) / 16 : Nat) - (s.ringTime : Int)
        let good := if err.natAbs < 20 then s.ring.good + 1 else 0
        ∃ t, exec (.timeReceived port blocks residence) s = .next t ∧ t.ring.good = good ∧ t.ring.lastTime = s.time ∧
          (10000 < err.natAbs → t.reg (cAddr 0 0xF020) = BitVec.ofInt 64 (s.toff + err) ∧ t.ring.slew = 0) ∧
          (err.natAbs ≤ 10000 → t.toff = s.toff ∧ t.ring.slew = err) ∧
          (1000 < err.natAbs → t.cf 0 0xF008 17 17 = 0) ∧ (8 ≤ good → t.cf 0 0xF008 17 17 = 1)) ∧
      (f.type = 4 → ∀ rot,
        let input := 1 - bitsOf (f.at_ 0) 9 9
        (bitSet (f.at_ 0) 10 = true → wrapBit s input = 0 → ∃ t, exec (.wrapReceived port blocks rot) s = .next t ∧
          wrapBit t input = 1 ∧ (s.formed = true → t.ringState = 3)) ∧
        (bitSet (f.at_ 0) 10 = false → f.src ≠ s.pos → s.formed = true →
          ∃ t, exec (.wrapReceived port blocks rot) s = .next t ∧ t.ringState = 3 ∧
            (s.cf 0 0xF008 40 32 = s.pos → t.rot = rot % 2 ^ 32))) ∧
      (f.src ≠ s.pos → f.bc = false → f.dst ≠ s.pos → f.hops < 1022 →
        ∃ t, exec (.ringFrameForward port blocks) s = .next t ∧
          t.ring.out = s.ring.out ++ [⟨outPort s f.ring, { f with hops := f.hops + 1 }.blocks⟩])) ∧
    (∀ p, s.ring.part0 = some p → p.at_ + s.rot ≤ s.time →
      ∃ t, exec .formedPartTimeout s = .next t ∧ t.ring.part0 = none) ∧
    (s.formed = true → s.cf 0 0xF008 40 32 = s.pos →
      s.ring.timeSent = none ∨ (∃ x, s.ring.timeSent = some x ∧ x + 1000000 ≤ s.time) →
      ∃ t, exec .timeSend s = .next t ∧ t.ring.timeSent = some s.time ∧ sent t 2) ∧
    (s.ring.lastTime + 8000000 ≤ s.time →
      ∃ t, exec .timeFramesMissed s = .next t ∧ t.cf 0 0xF008 17 17 = 0 ∧ t.ring.good = 0) ∧
    (∀ port rot, port ≤ 1 → wrapBit s port = 0 → ∃ t, exec (.ringInputDown port rot) s = .next t ∧ wrapBit t port = 1 ∧
      (s.formed = true → t.ringState = 3) ∧ sent t 3) ∧
    (∀ port, port ≤ 1 → wrapBit s port = 1 → ∃ t, exec (.wrapHealTest port true) s = .next t ∧ t.ringState = 1 ∧
      wrapBit t 0 = 0 ∧ wrapBit t 1 = 0 ∧ t.ring.form.isSome = true)

/-- RINGSEND queues a message under a sequence number, or delivers one to the own position; RINGRECV takes the oldest received;
a message that arrives is delivered while the queue of 32 has room and answered, an answer settles its message, and one not
answered in four rotations is counted lost; a SNAP frame arms or misses a ring snapshot (R141, R142, R573 to R576). That a message to
the own position is refused too while 32 wait to be sent is the model's reading (log entry 128). -/
def Obligations.ring_messages_and_snapshots : Prop :=
  (∀ (s : State) (c : Nat) (rd ra rb : BitVec 5) (xmod : BitVec 6) (key : Nat) (bs : List Byte) (u : State),
    let w := s.woken c
    let a := ((s.core c).r ra).toNat
    let b := ((s.core c).r rb).toNat
    let n := bitsOf b 21 16
    let own := bitSet b 9 = false ∧ b % 512 = s.pos
    (MayIssue s c 0x13 xmod.toNat [⟨a, n, true, false⟩] → a % 8 = 0 → 1 ≤ n → n ≤ 56 → bitsOf b 15 10 = 0 → b < 2 ^ 24 →
      bitsOf b 23 22 ≠ 3 → placeOf w c a n false = some key → readOperand c key n w = (some bs, u) →
      (s.formed = false → Fails s (.ringsend c rd ra rb xmod) c rd 0x23 0 u) ∧
      (s.formed = true → 32 ≤ s.ring.tx.length → Fails s (.ringsend c rd ra rb xmod) c rd 0x48 0 u) ∧
      (s.formed = true → s.ring.tx.length < 32 →
        ∃ t, Succeeds s (.ringsend c rd ra rb xmod) c rd s.ring.seq t ∧ t.ring.seq = (s.ring.seq + 1) % 65536 ∧
          (own → s.ring.rx.length < 32 → t.ring.rx = s.ring.rx ++ [⟨s.pos, s.ring.seq, bs⟩]) ∧
          (¬ own → t.ring.tx = s.ring.tx ++ [⟨b % 512, bitSet b 9, bitsOf b 23 22, s.ring.seq, bs⟩]))) ∧
    (MayIssue s c 0x14 xmod.toNat [⟨a, 64, false, true⟩] → a % 64 = 0 → b = 0 → placeOf w c a 64 true = some key →
      (s.ring.rx = [] → Fails s (.ringrecv c rd ra rb xmod) c rd 0x49 0 w) ∧
      (∀ m rest, s.ring.rx = m :: rest → ∃ t, Succeeds s (.ringrecv c rd ra rb xmod) c rd
        (m.data.length + m.src * 2 ^ 8) t ∧ t.ring.rx = rest ∧ t.ring.tx = s.ring.tx))) ∧
  (∀ (s : State) (port : Nat) (blocks : List Word) (f : RFrame), s.bypassOpen = true → port ≤ 1 →
    parseFrame blocks = some f →
    let msg : RingMsg := ⟨f.src, f.seq, ((f.data.drop 1).flatMap (fun w => leBytes 8 w.toNat)).take (f.at_ 0 % 64)⟩
    (f.type = 7 → f.src ≠ s.pos → f.bc = false → f.dst = s.pos → ∃ t, exec (.msgReceived port blocks) s = .next t ∧
      t.ring.rx = (if s.ring.rx.length < 32 then s.ring.rx ++ [msg] else s.ring.rx) ∧
      t.ring.out.length = s.ring.out.length + 1) ∧
    (f.type = 7 → f.src ≠ s.pos → f.bc = true → s.formed = true → s.ring.seen = [] → s.ring.rx.length < 32 →
      ∃ t, exec (.msgReceived port blocks) s = .next t ∧ t.ring.rx = s.ring.rx ++ [msg] ∧
        t.ring.seen = [(f.src, f.seq, s.time)]) ∧
    (f.type = 8 → f.dst = s.pos → f.bc = false → ∃ t, exec (.ackReceived port blocks) s = .next t ∧
      t.ring.unacked = s.ring.unacked.filter (fun e => e.1 != f.at_ 0 % 65536)) ∧
    (f.type = 6 → f.src ≠ s.pos → s.snap.ring = none →
      (f.at_ 1 ≤ s.ringTime → ∃ t, exec (.snapFrameReceived port blocks) s = .next t ∧ t.cf 0 0xF028 32 32 = 1 ∧
        t.snap.ring = none ∧ t.snap.epoch = s.snap.epoch) ∧
      (s.ringTime < f.at_ 1 → ∃ t, exec (.snapFrameReceived port blocks) s = .next t ∧
        t.snap.ring = some { time := f.at_ 1, n := f.at_ 0 % 2 ^ 31, src := f.src } ∧ t.cf 0 0xF028 31 31 = 1))) ∧
  (∀ (s : State) (q at_ : Nat), (q, at_) ∈ s.ring.unacked → at_ + 4 * s.rot ≤ s.time →
    ∃ t, exec (.msgAckTimeout q) s = .next t ∧ (∀ e ∈ t.ring.unacked, e.1 ≠ q) ∧
      Tbl.at t.snap.count 421 = Tbl.at s.snap.count 421 + 1)

/-- Lending: an offer leaves the lender's ledger before its frame and enters the borrower's before its answer; an acceptance
puts the loan in force, a refusal or a return gives the rate back, a recall makes the borrower return, a write-off ends a
loan out; hr.lstat shows each result; an unanswered step is sent again, and settlement keeps what was confirmed (R567 to
R571, R578). -/
def Obligations.supply_lending : Prop :=
  ∀ (s : State),
    let stat := fun (t : State) (loan result busy : Nat) => t.cf 0 0xF040 63 48 = loan ∧ t.cf 0 0xF040 7 4 = result ∧
      t.cf 0 0xF040 0 0 = busy
    let lent := fun (n : Nat) => findLoan s false (fun l => l.num == n)
    (lendBusy s = false → ∀ (peer : BitVec 9) (rate loan : BitVec 16),
      let p := peer.toNat
      let n := loan.toNat
      (rate ≠ 0 → s.formed = true → s.present p = true → p ≠ s.pos → s.keepsSupply = true → rate.toNat ≤ s.rateSupply →
        (∀ i, freeEntry s false = some i → ∃ t, exec (.lend peer rate) s = .next t ∧ stat t (loanNumber s) 1 1 ∧
          t.loan i = some { state := 1, peer := p, rate := rate.toNat, num := loanNumber s, sentAt := s.time } ∧
          t.ring.out.length = s.ring.out.length + 1) ∧
        (freeEntry s false = none → ∃ t, exec (.lend peer rate) s = .next t ∧ stat t 0 4 0 ∧ t.ring = s.ring)) ∧
      (rate ≠ 0 → s.formed = false → ∃ t, exec (.lend peer rate) s = .next t ∧ stat t 0 9 0 ∧ t.ring = s.ring) ∧
      (lent n = none → (∃ t, exec (.recall loan) s = .next t ∧ stat t n 7 0 ∧ t.ring = s.ring) ∧
        (∃ t, exec (.writeOff loan) s = .next t ∧ stat t n 7 0 ∧ t.ring = s.ring)) ∧
      (∀ i l, lent n = some (i, l) →
        (s.formed = true → s.present l.peer = true → ∃ t, exec (.recall loan) s = .next t ∧ stat t n 1 1 ∧
          t.loan i = some { l with state := 3, sentAt := s.time, tries := 0 } ∧ t.ring.out.length = s.ring.out.length + 1) ∧
        (∃ t, exec (.writeOff loan) s = .next t ∧ stat t n 2 0 ∧ t.loan i = none ∧ t.flt.head = s.flt.head + 1)) ∧
      (∀ i l, findLoan s true (fun l => l.num == n && l.peer == p) = some (i, l) → s.formed = true → s.present p = true →
        ∃ t, exec (.returnLoan peer loan) s = .next t ∧ stat t n 2 0 ∧ t.loan i = none ∧
          t.ring.out.length = s.ring.out.length + 1)) ∧
    (lendBusy s = true → ∀ (peer : BitVec 9) (rate : BitVec 16),
      ∀ i ∈ [Instr.lend peer rate, .recall rate, .returnLoan peer rate, .writeOff rate], exec i s = .next s) ∧
    (∀ (port : Nat) (blocks : List Word) (f : RFrame), s.bypassOpen = true → port ≤ 1 → parseFrame blocks = some f →
      let n := f.loanNum
      let held := findLoan s true (fun l => l.num == n && l.peer == f.src)
      let offered := findLoan s false (fun l => l.num == n && l.peer == f.src && (l.state == 1 || l.state == 4))
      (∀ i, isLoan s 1 f = true → held = none → freeEntry s true = some i → s.keepsSupply = true →
        ∃ t, exec (.loanOfferReceived port blocks) s = .next t ∧
          t.loan i = some { state := 2, peer := f.src, rate := f.rate, num := n } ∧
          t.ring.out.length = s.ring.out.length + 1) ∧
      (isLoan s 1 f = true → held = none → freeEntry s true = none ∨ s.keepsSupply = false →
        ∃ t, exec (.loanOfferReceived port blocks) s = .next t ∧ t.ring.loans = s.ring.loans ∧
          t.ring.out.length = s.ring.out.length + 1) ∧
      (∀ i l, isLoan s 2 f = true → offered = some (i, l) → ∃ t, exec (.loanAcceptReceived port blocks) s = .next t ∧
        t.loan i = some { l with state := 2 }) ∧
      (∀ i l, isLoan s 3 f = true → offered = some (i, l) → ∃ t, exec (.loanRefuseReceived port blocks) s = .next t ∧
        t.loan i = none ∧ t.ring.out = s.ring.out) ∧
      (∀ i l, isLoan s 4 f = true → held = some (i, l) → ∃ t, exec (.loanRecallReceived port blocks) s = .next t ∧
        t.loan i = none ∧ t.ring.out.length = s.ring.out.length + 1) ∧
      (∀ i l, isLoan s 5 f = true → findLoan s false (fun l => l.num == n && l.peer == f.src) = some (i, l) →
        ∃ t, exec (.loanReturnReceived port blocks) s = .next t ∧ t.loan i = none) ∧
      (∀ i l m, isLoan s 6 f = true → confirmNums f = [m] →
        findLoan s false (fun l => l.num == m && l.peer == f.src) = some (i, l) →
        ∃ t, exec (.loanConfirmReceived port blocks) s = .next t ∧ t.loan i = some { l with confirmed := true })) ∧
    (∀ e l, e < 16 → s.loan e = some l → l.state = 1 ∨ l.state = 3 → s.formed = true → l.sentAt + 8 * s.rot ≤ s.time →
      (l.tries < 3 → ∃ t, exec (.loanResend e) s = .next t ∧ t.loan e = some { l with sentAt := s.time, tries := l.tries + 1 } ∧
        t.ring.out.length = s.ring.out.length + 1) ∧
      (3 ≤ l.tries → ∃ t, exec (.loanResend e) s = .next t ∧ t.loan e = some { l with state := 4 } ∧
        t.ring.out = s.ring.out)) ∧
    (s.formed = true → s.ring.settled = false → s.ring.formedAt + 4 * s.rot ≤ s.time →
      ∃ t, exec .loanSettlement s = .next t ∧ t.ring.settled = true ∧ t.ring.ledgerLost = false ∧
        ∀ i l, (i, some l) ∈ s.ring.loans → i < 16 → s.present l.peer = true → l.confirmed = true →
          (i, some { l with state := if l.state = 3 then 3 else 2 }) ∈ t.ring.loans)
/-- Package resets: a brown-out, SYS_RST_N, rst.ctl and the ends of a controlled stop put the dies in reset, and when nothing
holds the reset the package comes out with core 0 alone released at Boot level in the boot ROM, the seal, the key lock and the
on-die memories cleared, the kind shown and the boot count raised; GDDR6 survives SYS_RST_N; what the AON domain held stands, but
after a lost VBAT (R44, R489, R490, R493, R523, R580 to R585, R607, R610). -/
def Obligations.package_resets : Prop :=
  ∀ (s : State),
    let fresh := fun (t : State) (kind : Nat) => t.down = false ∧ t.now = 0 ∧ t.sealed = false ∧ t.keys.locked = false ∧
      (∃ n, n ≤ t.flt.head ∧ t.flt.head ≤ n + 1 ∧ t.core 0 = { run := .running, fltAck := n } ∧
        ∀ c, 0 < c → c < 8 * s.nslices → t.core c = { fltAck := n }) ∧
      (kind ≠ 1 ∨ s.aon.vbatLost = false → t.cf 0 0xE018 5 0 = s.cf 0 0xE018 5 0 ∧
        t.reg (cAddr 0 0xD088) = s.reg (cAddr 0 0xD088) ∧ t.keys.keks = s.keys.keks) ∧
      t.cf 0 0x0200 15 0 = kind ∧ t.cf 0 0x0200 20 20 = 0 ∧ t.flt.boots = s.flt.boots + 1 ∧
      t.sec.boot = some { kind := 1, reset := kind } ∧ t.sec.key = none ∧ t.snap = {} ∧ t.adm.slots = [] ∧
      (∀ a, memKind a = 1 ∨ memKind a = 2 → t.byte a = 0) ∧ (kind ≤ 2 → ∀ a, memKind a = 3 → t.byte a = 0)
    let held := fun (t : State) (kind : Nat) => t.rst.held = some kind ∧ t.cores = [] ∧ t.host.linkUp = false ∧
      t.host.fetching = false ∧ ∀ k, (t.channel k).queue = []
    let idle := ∀ k, k < s.nslices → (s.seq k).run = false
    (∀ elapsed,
      (s.rst.held = some 2 → ∃ t, exec (.powerUp elapsed) s = .next t ∧ fresh t 2) ∧
      (s.rst.held = some 5 → ∃ t, exec (.powerUp elapsed) s = .next t ∧ fresh t 5) ∧
      (s.rst.held = none → s.rst.struck = none → ∃ t, exec (.powerUp elapsed) s = .next t ∧ fresh t 1 ∧
        (s.aon.vbatLost = true → t.cf 0 0xD0A0 2 2 = 1 ∧ t.cf 0 0x0200 31 24 = 0 ∧ t.cf 0 0xD088 10 0 = 0 ∧ t.keys.keks = [] ∧
          t.aon.vbatLost = false)) ∧
      (s.rst.held = some 3 ∨ s.rst.held = some 6 → exec (.powerUp elapsed) s = .next s) ∧
      (s.rst.held = none → s.rst.struck.isSome = true → exec (.powerUp elapsed) s = .next s)) ∧
    (s.down = false →
      (∀ powered, ∃ t, exec (.brownOut powered) s = .next t ∧ held t 2 ∧ t.cf 0 0xD0A0 3 3 = 1 ∧
        ∀ k, k < 4 → (k ∈ t.rst.fdie ↔ k < s.nslices ∧ powered.getLsbD k = true)) ∧
      (s.stopped = false → ∃ t, exec .pinReset s = .next t ∧ held t 3 ∧ t.rst.pinLow = true) ∧
      (s.stopped = true → idle → ∃ t, exec .pinReset s = .next t ∧ held t 6 ∧ t.rst.pinLow = true) ∧
      (s.stopped = true → ¬ idle → ∃ t, exec .pinReset s = .next t ∧ t.rst.pinLow = true ∧ t.rst.endWaits = true ∧
        t.stopped = true) ∧
      (∀ (own : Bool) (key : BitVec 16) (go : Bool),
        (MayAccess s 0 .store own false 0 0x0208 false →
          ((s.core 0).level ≠ .task → key = 0xA5C3 → go = true →
            ∃ t, exec (.firmwareReset 0 own key go) s = .next t ∧ fresh t 4) ∧
          ((s.core 0).level = .task ∨ key ≠ 0xA5C3 ∨ go = false → exec (.firmwareReset 0 own key go) s = .next (s.started 0))) ∧
        (∀ c, c ≠ 0 → MayAccess s c .store own false 0 0x0208 false →
          exec (.firmwareReset c own key go) s = .next (s.started c))) ∧
      (s.stopped = true →
        (idle → s.rst.pinLow = false → ∃ t, exec .stopRestart s = .next t ∧ fresh t 6) ∧
        (idle → s.rst.pinLow = true → ∃ t, exec .stopRestart s = .next t ∧ held t 6) ∧
        (¬ idle → ∃ t, exec .stopRestart s = .next t ∧ t.rst.endWaits = true ∧ t.stopped = true) ∧
        (idle → s.rst.pinLow = false → s.cf 0 0x0210 0 0 = 1 → s.rst.stopAt + 10000000000 ≤ s.time →
          ∃ t, exec .stopAutoRestart s = .next t ∧ fresh t 6)) ∧
      (s.cf 0 0x0210 0 0 = 0 ∨ s.time < s.rst.stopAt + 10000000000 → exec .stopAutoRestart s = .next s)) ∧
    (∀ kind, kind = 3 ∨ kind = 6 → s.rst.held = some kind → ∃ t, exec .sysRstNRelease s = .next t ∧ fresh t kind ∧
      ∀ a, memKind a = 3 → t.byte a = s.byte a)

/-- The safety sequence's stages, each not before it is due, end its currents, and at its end the outputs take their reset states;
a core watchdog that expires faults its core, which stops with its registers as they are and restarts at rst.cent, or before seal
stops the package with code 9; the package watchdog stops it with code 8 and a lost REFCLK with code 7 (R36, R76, R291, R292,
R509, R588, R600 to R606). That sleds which are not parked end their stage at once is the model's
reading (log entry 144). -/
def Obligations.safety_sequences_watchdogs_and_stops : Prop :=
  ∀ (s : State),
    let stops := fun (t : State) (code : Nat) => t.stopped = true ∧ t.cf 0 0x0200 31 24 = code ∧ t.rst.stopAt = s.time ∧
      (∀ k, k < s.nslices → (t.seq k).run = true) ∧ t.host.fetching = false ∧ bitSet t.host.csts.toNat 1 = true ∧
      ∀ i, (t.slot i).live = false
    (∀ k, k < s.nslices → (s.seq k).run = true →
      (∀ n, s.down = false → seqTime s k < stageDue s k n → exec (.safetySequenceStage k n) s = .next s) ∧
      (s.down = true ∨ stageDue s k 1 ≤ seqTime s k → ∃ t, exec (.safetySequenceStage k 1) s = .next t ∧
        (t.seq k).braking = (!(s.seq k).coast && !(s.seq k).gatesOff) ∧ t.regs = s.regs) ∧
      (s.down = true ∨ stageDue s k 2 ≤ seqTime s k → ∃ t, exec (.safetySequenceStage k 2) s = .next t ∧
        (t.seq k).coilsDown = true ∧ t.ff k 0x2020 5 0 = 0) ∧
      (s.down = true ∨ stageDue s k 3 ≤ seqTime s k → ∃ t, exec (.safetySequenceStage k 3) s = .next t ∧
        (t.seq k).parked = true ∧ t.ff k 0x2020 11 8 = 0) ∧
      (∃ t, exec (.safetySequenceStage k 4) s = .next t ∧ (t.seq k).gatesOff = true ∧ (t.seq k).braking = false) ∧
      ((s.seq k).gatesOff = false → s.down = true ∨ 10000000000 ≤ seqTime s k →
        ∃ t, exec (.safetySpindleTimeout k) s = .next t ∧ (t.seq k).gatesOff = true ∧ (t.seq k).braking = false ∧
          t.aon.spinTimeout = true ∧ (s.rst.struck.isSome = true → t.cf 0 0xD088 7 0 = 2)) ∧
      ((s.seq k).parked = true → (s.seq k).gatesOff = true → s.rst.endWaits = true → s.stopped = true → s.rst.pinLow = false →
        s.rst.fdie = [] → (∀ j, j < s.nslices → j ≠ k → (s.seq j).run = false) →
        ∃ t, exec (.safetySequenceEnd k) s = .next t ∧ t.down = false ∧ t.stopped = false ∧ t.cf 0 0x0200 15 0 = 6) ∧
      ((s.seq k).parked = true → (s.seq k).gatesOff = true → s.rst.endWaits = false →
        ∃ t, exec (.safetySequenceEnd k) s = .next t ∧ (t.seq k).run = false ∧ (∀ ch, ch < 0xC0 → t.out k ch = none) ∧
          (s.rst.fdie.contains k = true → s.down = false → t.cf 0 0x0200 (16 + k) (16 + k) = 1) ∧
          (s.rst.fdie.contains k = false → (t.seq k).ended = true ∧ t.regs = s.regs))) ∧
    (∀ c own, MayAccess s c .store own false (c / 8) 0x02C0 false → exec (.coreWatchdogKick c own) s =
      .next ((s.started c).modCore c (fun k => { k with kickAt := s.time }))) ∧
    (∀ c, s.hasCore c = true → s.down = false → s.stopped = false →
      let k := s.core c
      let per := s.cf (c / 8) (0x0280 + 8 * (c % 8)) 15 0
      (per = 0 ∨ s.time < k.kickAt + per * 10000 → exec (.coreWatchdogExpiry c) s = .next s) ∧
      (k.run = .running ∨ k.run = .wfe → per ≠ 0 → k.kickAt + per * 10000 ≤ s.time →
        (s.sealed = false → ∃ t, exec (.coreWatchdogExpiry c) s = .next t ∧ stops t 9 ∧ (t.core c).run = .stopped) ∧
        (∀ r, s.sealed = true → k.restartAt = some r → s.time < r + 1000000 →
          ∃ t, exec (.coreWatchdogExpiry c) s = .next t ∧ stops t 10) ∧
        (s.sealed = true → (∀ r, k.restartAt = some r → r + 1000000 ≤ s.time) →
          ∃ t, exec (.coreWatchdogExpiry c) s = .next t ∧ (t.core c).run = .stopped ∧ (t.core c).epc = k.epc ∧
            (t.core c).cause = k.cause ∧ (t.core c).eaddr = k.eaddr ∧ (t.core c).einfo = k.einfo ∧ (t.core c).pc = k.pc ∧
            (t.core c).status = k.status ∧ (t.core c).g = k.g ∧ (t.core c).stopSeq = t.flt.head ∧
            t.flt.head = s.flt.head + 1 ∧ t.stopped = false ∧ Tbl.at t.adm.accounts c = 0 ∧
            ∀ i, (t.slot i).phase = .taken → (t.slot i).takenBy = some c → (t.slot i).posting = true)) ∧
      (s.sealed = true → k.run = .stopped → ∃ t, exec (.deckCoreRestart c) s = .next t ∧
        (t.core c).run = .running ∧ (t.core c).level = .supervisor ∧ (∀ i, (t.core c).r i = 0) ∧ (t.core c).status = 0 ∧
        (t.core c).pc = BitVec.ofNat 64 (4 * s.cf (c / 8) (0x0240 + 8 * (c % 8)) 39 2) ∧
        (t.core c).epc = k.pc ∧ (t.core c).cause = 0x25 ∧ (t.core c).einfo = BitVec.ofNat 64 k.stopSeq ∧
        (t.core c).eaddr = 0 ∧ (t.core c).evmask = 0 ∧ (t.core c).broken = false ∧ t.icacheOf c = [] ∧
        (t.core c).restartAt = some s.time ∧ (t.core c).bar = k.bar ∧ (t.core c).rgnBase = k.rgnBase)) ∧
    (s.down = false →
      exec .packageWatchdogKick s = .next { s with rst := { s.rst with wdKick := s.time } } ∧
      (s.stopped = false → s.cf 0 0x0210 31 16 ≠ 0 → s.rst.wdKick + s.cf 0 0x0210 31 16 * 1000000 ≤ s.time →
        ∃ t, exec .packageWatchdogExpiry s = .next t ∧ stops t 8) ∧
      (s.stopped = false → ∃ t, exec .refclkLoss s = .next t ∧ stops t 7 ∧ t.host.linkUp = false ∧ t.cf 0 0xE028 3 3 = 1))

/-- Each die's model, its hardware copy, its diode and its references step by their rules; an evaluation sets the state, the
interval and the throttle; the copy above its shutdown threshold four times, or a hot diode at a restart, is STRUCK, which
ends when every copy is cool; supplies and die-link lanes that fail act and are recorded (R17 to R21, R36, R491, R493, R498 to
R513). The numbers of the lanes and directions are the model's choice (log entry 96). -/
def Obligations.thermal_supplies_and_die_links : Prop :=
  ∀ (s : State),
    (s.down = false → ∀ d, dieExists s d = true →
      let x := s.die d
      (∀ energy : List Nat,
        let e := (List.range 8).map (fun i => energy.getD i 0)
        ∃ t, exec (.thermalModelStep d energy) s = .next t ∧
          (t.die d).t = thermStep s d (1 / 10000) (heatPower d e) x.t ∧ (t.die d).energy.getLast? = some e ∧
          ∀ i, i < 8 → t.df d (0xD100 + 8 * i) 15 0 = min 65535 (energy.getD i 0) ∧ Tbl.at t.snap.count (1024 * d + 384 + i) =
            Tbl.at s.snap.count (1024 * d + 384 + i) + BitVec.ofNat 64 (energy.getD i 0)) ∧
      (x.evalAt ≤ s.time →
        let T := x.t.getD 0 0 + x.off
        let th := thresholds d
        let was := s.df d 0xD000 1 0
        let intv := if T < th.2.1 - 6 then 0 else if T < th.2.2.1 - 4 then 1 else 2
        ∃ t, exec (.thermalEvaluation d) s = .next t ∧ t.df d 0xD000 1 0 = (runs d T was x).1 ∧ t.df d 0xD000 5 4 = intv ∧
          (t.die d).evalAt = s.time + (if intv = 0 then 10000000 else if intv = 1 then 1000000 else 100000) ∧
          (was ≠ 2 → (runs d T was x).1 = 2 → s.adm.throttle = none →
            t.adm.throttle = some (throttleStart s) ∧ t.cf 0 0xC000 8 8 = 1)) ∧
      (let hw := thermStep s d (1 / 10000) (heatPower d (x.energy.getLastD [])) x.hw
       let hot := (thresholds d).2.2.1 < hw.getD 0 0 + x.hwOff
       (hot → 3 ≤ x.hwHi → ∃ t, exec (.hwModelEvaluation d) s = .next t ∧ t.rst.struck = some s.time ∧ t.rst.held = none ∧
          t.cf 0 0xD088 7 0 = 1 ∧ t.cf 0 0xD088 10 8 = d ∧ t.cores = [] ∧ t.host.linkUp = false) ∧
       (¬ hot → ∃ t, exec (.hwModelEvaluation d) s = .next t ∧ (t.die d).hw = hw ∧ (t.die d).hwHi = 0 ∧ t.rst = s.rst)) ∧
      (∀ v : Int, s.rst.held = none → ∃ t, exec (.diodeReading d v) s = .next t ∧ (t.die d).diode = (v : Rat) / 64 ∧
        (t.die d).off = moveOffset x.off (x.t.getD 1 0) ((v : Rat) / 64) ∧
        (t.die d).hwOff = moveOffset x.hwOff (x.hw.getD 1 0) ((v : Rat) / 64)) ∧
      (∃ t, exec (.referenceCompensation d) s = .next t ∧ ∀ i, i < (if d < 4 then 2 else 6) →
        let base := if d < 4 then 0xD060 else 0x1B00
        let have_ := Tbl.at x.refs i
        let gap := correction (s.df d (base + 8 * i) 15 0) (s.df d (base + 8 * i) 31 16) (x.t.getD 0 0 + x.off - 25) -
          (have_ : Rat)
        Tbl.at (t.die d).refs i = if 10 ≤ gap then have_ + 10 else if gap ≤ -10 then have_ - 10 else have_)) ∧
    (∀ (d : Nat) (v : Int), dieExists s d = true → s.rst.held = some 5 →
      ((thresholds d).2.2.2 ≤ (v : Rat) / 64 → ∃ t, exec (.diodeReading d v) s = .next t ∧ t.rst.struck = some s.time ∧
        t.rst.held = none ∧ t.regs = s.regs) ∧
      ((v : Rat) / 64 < (thresholds d).2.2.2 → exec (.diodeReading d v) s = .next s)) ∧
    (∀ t0, s.rst.struck = some t0 →
      let cooled := fun (d : Nat) =>
        let x := s.die d
        (thermStep s d (1 / 10) 0 [x.hw.getD 2 0, x.hw.getD 2 0, x.hw.getD 2 0, x.hw.getD 3 0]).getD 2 0 + x.hwOff
      ((∀ d, dieExists s d = true → cooled d < (thresholds d).2.2.2) → t0 + 5000000000 ≤ s.time →
        (∀ k, k < s.nslices → (s.seq k).run = false) →
        ∃ t, exec .struckModelStep s = .next t ∧ t.rst.struck = none ∧ t.rst.held = some 5) ∧
      (s.time < t0 + 5000000000 → ∃ t, exec .struckModelStep s = .next t ∧ t.rst = s.rst) ∧
      exec .vddqOutOfRange s = .next (s.setCf 0 0xD088 40 40 0)) ∧
    (∀ err : Int,
      let x := s.die 0
      let T := if s.rst.struck.isSome then x.hw.getD 0 0 + x.hwOff else x.t.getD 0 0 + x.off
      exec (.aonOscCorrection err) s = .next { s with aon := { s.aon with
        oscPpm := correction (s.cf 0 0xD090 15 0) (s.cf 0 0xD090 31 16) (T - 25) +
          (if s.stopped && s.cf 0 0x0200 31 24 == 7 then 0 else (err : Rat) / 1000) } }) ∧
    (s.down = false →
      (∀ k, k < s.nslices → ∃ t, exec (.vinUndervoltage k) s = .next t ∧ t.cf 0 0xD0A0 4 4 = 1 ∧ (t.seq k).run = true ∧
        ((s.seq k).run = false → t.ff k 0x2018 0 0 = 0 ∧ t.ff k (wiOff 0) 9 9 = 1 ∧ t.ff k (wiOff 1) 9 9 = 1)) ∧
      (∀ mv : BitVec 16, ∃ t, exec (.vbatLow mv) s = .next t ∧ t.cf 0 0xD0A0 1 1 = 1 ∧ t.cf 0 0xD0A0 47 32 = mv.toNat ∧
        t.flt.head = s.flt.head + 1) ∧
      (∀ link dir lane, dir < 2 → linkExists s link = true → lane ≤ laneCount link dir →
        ((∀ l, (2 * link + dir, l) ∉ s.rst.lanes) → ∃ t, exec (.laneFailure link dir lane) s = .next t ∧
          t.rst.lanes = (2 * link + dir, lane) :: s.rst.lanes ∧ t.flt.head = s.flt.head + 1 ∧ t.stopped = s.stopped ∧
          (link < 4 → dir = 0 → lane < 24 → (link, lane, s.time) ∈ t.rst.switching) ∧
          (link < 4 → dir = 1 → lane < 4 → t.ff link (wiOff (lane / 2)) 7 7 = 1)) ∧
        ((2 * link + dir, lane) ∈ s.rst.lanes → exec (.laneFailure link dir lane) s = .next s) ∧
        (∀ l, l ≠ lane → (2 * link + dir, l) ∈ s.rst.lanes → (2 * link + dir, lane) ∉ s.rst.lanes → s.stopped = false →
          ∃ t, exec (.laneFailure link dir lane) s = .next t ∧ t.stopped = true ∧ t.cf 0 0x0200 31 24 = 1))) ∧
    (∃ t, exec .vinGlitch s = .next t ∧ t.cf 0 0xE028 1 1 = 1) ∧ (∃ t, exec .vbatGlitch s = .next t ∧ t.cf 0 0xE028 2 2 = 1) ∧
    exec .vbatLost s = .next { s with aon := { s.aon with vbatLost := true } } ∧ exec .linkCrcReplay s = .next s
/-- A doorbell moves its queue's pointer and makes room for completions that wait; the controller is ready once enabled with
entry sizes 6 and 4 and firmware has started the port; the resets the host causes end every command, with its completion only at
a controller reset, and end a controlled stop in a reset of the package; PERST# moves the link; and a shutdown stops fetching and
reads 10b when the rest is done (R425 to R427, R455, R456, R606, R607). -/
def Obligations.host_doorbells_resets_and_shutdowns : Prop :=
  ∀ (s : State),
    (∀ (y v : Nat) (q : SubQ), Tbl.at s.host.sqs y = some q → s.host.linkUp = true →
      (v < q.size → exec (.sqTailDoorbell y v) s = .next { s with host := { s.host with
        sqs := Tbl.upd y (some { q with tail := v }) s.host.sqs } }) ∧
      (q.size ≤ v → exec (.sqTailDoorbell y v) s = .next s)) ∧
    (∀ (y v : Nat) (q : CompQ), Tbl.at s.host.cqs y = some q → s.host.linkUp = true → v < q.size →
      ((∀ e ∈ s.host.waiting, e.cqid ≠ y) → ∃ t, exec (.cqHeadDoorbell y v) s = .next t ∧
        Tbl.at t.host.cqs y = some { q with head := v } ∧ t.host.posted = s.host.posted ∧ t.host.waiting = s.host.waiting) ∧
      (∀ e, s.host.waiting = [e] → e.cqid = y → (q.tail + 1) % q.size ≠ v → ∃ t, exec (.cqHeadDoorbell y v) s = .next t ∧
        t.host.posted = s.host.posted ++ [{ e with phase := q.phase }] ∧ t.host.waiting = [])) ∧
    (s.down = false → s.host.linkUp = true →
      (∀ (cc : BitVec 32) (asqs acqs : BitVec 12) (started : Bool), s.stopped = false → s.host.csts = 0 →
        cc.getLsbD 0 = true →
        let sized := bitsOf cc.toNat 19 16 = 6 ∧ bitsOf cc.toNat 23 20 = 4
        ∃ t, exec (.controllerEnable cc asqs acqs started) s = .next t ∧ t.host.cc = cc ∧
          t.host.started = (s.host.started || started) ∧
          (¬ sized → t.host.csts = 2) ∧
          (sized → t.host.started = false → t.host.csts = 0 ∧ t.host.sqs = s.host.sqs) ∧
          (sized → t.host.started = true → t.host.csts = 1 ∧ t.host.fetching = true ∧
            Tbl.at t.host.sqs 0 = some { size := asqs.toNat + 1, cqid := 0 } ∧
            Tbl.at t.host.cqs 0 = some { size := acqs.toNat + 1, ien := true })) ∧
      (s.stopped = false → s.host.cc.getLsbD 0 = true → ∃ t, exec .controllerReset s = .next t ∧ t.host.cc = 0 ∧
        t.host.csts = 0 ∧ t.host.sqs = [] ∧ t.host.cqs = [] ∧ t.host.fetching = true ∧ s.host.posted <+: t.host.posted ∧
        (∀ i, (s.slot i).live = true → (s.slot i).job = false → (t.slot i).phase = .ended ∧ (t.slot i).ended = .aborted) ∧
        (∀ i, (∀ e ∈ s.adm.slots, e.1 = i → e.2.job = true) → (t.slot i).phase = (s.slot i).phase) ∧
        (∀ k, t.channel k = s.channel k)) ∧
      (s.stopped = false → ∃ t, exec .functionLevelReset s = .next t ∧ t.host.csts = 0 ∧ t.host.sqs = [] ∧ t.host.cqs = [] ∧
        t.host.posted = s.host.posted ∧ t.host.linkUp = true ∧
        (∀ i, (s.slot i).live = true → (s.slot i).job = false → (t.slot i).phase = .ended ∧ (t.slot i).ended = .aborted))) ∧
    (s.down = false → s.stopped = false → ∀ perst, ∃ t, exec (.hotReset perst) s = .next t ∧ t.host.csts = 0 ∧
      t.host.sqs = [] ∧ t.host.posted = s.host.posted ∧ t.host.perst = (s.host.perst || perst) ∧
      t.host.linkUp = (s.host.linkUp && !perst)) ∧
    (s.down = false → s.stopped = true → s.rst.pinLow = false →
      let row := fun (i : Instr) => (i = .controllerReset ∧ s.host.linkUp = true ∧ s.host.cc.getLsbD 0 = true) ∨
        (i = .functionLevelReset ∧ s.host.linkUp = true) ∨ ∃ perst, i = .hotReset perst
      let idle := ∀ k, k < s.nslices → (s.seq k).run = false
      ∀ i, row i →
        (idle → ∃ t, exec i s = .next t ∧ t.down = false ∧ t.stopped = false ∧ t.cf 0 0x0200 15 0 = 6 ∧ t.host.csts = 0 ∧
          t.host.sqs = [] ∧ t.host.posted = s.host.posted) ∧
        (¬ idle → ∃ t, exec i s = .next t ∧ t.stopped = true ∧ t.rst.endWaits = true)) ∧
    (∃ t, exec .perstDeassert s = .next t ∧ t.host.perst = false ∧
      (s.down = false → s.sec.noSlot = false → s.stopped = false ∨ s.cf 0 0x0200 31 24 ≠ 7 → t.host.linkUp = true) ∧
      (s.down = true ∨ s.sec.noSlot = true ∨ (s.stopped = true ∧ s.cf 0 0x0200 31 24 = 7) → t.host.linkUp = s.host.linkUp)) ∧
    (s.down = false → s.host.linkUp = true → s.host.csts.getLsbD 0 = true →
      (∃ t, exec .abruptShutdown s = .next t ∧ t.host.fetching = false ∧ bitsOf t.host.csts.toNat 3 2 = 2 ∧
        bitsOf t.host.cc.toNat 15 14 = 2 ∧ ∀ k, Tbl.at t.adm.stagedW k = 0) ∧
      (∃ t, exec .normalShutdown s = .next t ∧ t.host.fetching = false ∧ bitsOf t.host.cc.toNat 15 14 = 1 ∧ t.adm = s.adm ∧
        let done := (∀ e ∈ s.liveSlots, e.2.job = true) ∧ ∀ k, k < s.nslices → Tbl.at s.adm.stagedW k = 0
        (done → bitsOf t.host.csts.toNat 3 2 = 2) ∧ (¬ done → bitsOf t.host.csts.toNat 3 2 = 1)))
/-- A fetched I/O command that passes its field checks is accepted into a free slot with its class's deadline, cost and energy,
its urgency handed to the commands it overlaps, or refused with Not Admissible and its earliest deadline; one that fails them is
answered at once (R117, R428, R449, R463, R465, R466). -/
def Obligations.io_commands_are_accepted_refused_or_answered : Prop :=
  ∀ (s : State) (y i : Nat) (sqe data : List Byte) (q : SubQ) (cq : CompQ) (row : Instr),
    let op := sqeOpcode sqe
    let send := fun (act : Nat) => op = 0x79 ∧ cdw sqe 13 % 256 = act
    let rows : List (Instr × Prop) := [(.commandFetch y sqe data, True), (.flush y sqe, op = 0), (.write y sqe, op = 1),
      (.read y sqe, op = 2), (.verify y sqe, op = 0x0C), (.resetZone y sqe, send 4), (.finishZone y sqe, send 2),
      (.openZone y sqe, send 3), (.closeZone y sqe, send 1), (.zoneManagementReceive y sqe, op = 0x7A),
      (.zoneAppend y sqe, op = 0x7D), (.versionRead y sqe, op = 0x80)]
    (∃ p, (row, p) ∈ rows ∧ p) → y ≠ 0 → HostTurn s y q cq → freeSlot s = some i → s.ordered (s.classOf y) = false →
    let u := s.fetched y q
    let c := s.classOf y
    (∀ sct sc more, checkIo u y sqe = .done sct sc more →
      ∃ t, exec row s = .next t ∧ HostAnswer s t y q cq sqe sct sc more (versionDw s sqe) ∧ t.adm.slots = s.adm.slots ∧
        t.host.zones = s.host.zones ∧ t.host.errorCount = s.host.errorCount + (if sct = 0 ∧ sc = 0 then 0 else 1)) ∧
    (∀ a start v, checkIo u y sqe = .accept a start v →
      let d := (s.time + s.feat 0xC0 c * 100000) / 100000 * 100000
      (∀ n dw, decide6 u a d = .refuse n dw → ∃ t, exec row s = .next t ∧ HostAnswer s t y q cq sqe 7 0x80 0 dw ∧
        t.adm.slots = s.adm.slots ∧ t.host.zones = s.host.zones) ∧
      (decide6 u a d = .accept → ∃ t, exec row s = .next t ∧ t.host.posted = s.host.posted ∧ t.host.zones = v.host.zones ∧
        (t.stat c).accepted = (s.stat c).accepted + 1 ∧
        t.slot i = { sqe := sqe, sqid := y, opcode := a.op, drive := a.k, allDrives := a.allDrives, cls := c, fua := a.fua
                     d := d, key := d, accepted := s.time, cost := a.c, energy := a.e, policy := s.feat 0xC2 c
                     depth := s.feat 0xC3 c, slba := start, nblocks := a.n, hasRange := a.hasRange, phase := .queued
                     order := s.adm.nextOrder
                     gen := (s.slot i).gen + (if (s.slot i).phase = .free then 0 else 1) } ∧
        (∀ j, j ≠ i → t.slot j = { s.slot j with key := (t.slot j).key }) ∧
        ((s.adm.slots.map Prod.fst).Nodup → ∀ j, j ≠ i → (t.slot j).key ≤ (s.slot j).key ∧
          ((s.slot j).phase = .queued → (s.slot j).hasRange = true → a.hasRange = true → (s.slot j).drive = a.k →
            a.slba < (s.slot j).slba + (s.slot j).nblocks → (s.slot j).slba < a.slba + a.n → (t.slot j).key ≤ d))))

/-- Field checks of the I/O commands: namespace, disc, data pointer, transfer size, block range, write protection and the zoned
view's rules complete a command with their status; a zone command accepted leaves its zone as its action says (R429, R431, R433,
R436, R438 to R440, R450). The statuses that a zone action from a state it may not leave answers are the model's (log entry 25). -/
def Obligations.io_field_checks_and_zones : Prop :=
  ∀ (s : State) (y : Nat) (sqe : List Byte) (q : SubQ) (cq : CompQ), y ≠ 0 → HostTurn s y q cq →
    s.ordered (s.classOf y) = false → leAt sqe 1 1 % 4 = 0 →
    let ends := fun (row : Instr) (sct sc more dw0 : Nat) => ∃ t, exec row s = .next t ∧
      HostAnswer s t y q cq sqe sct sc more dw0 ∧ t.adm.slots = s.adm.slots ∧ t.host.zones = s.host.zones
    let answers := fun (row : Instr) (sct sc more : Nat) => ends row sct sc more 0
    let op := sqeOpcode sqe
    let k := sqeNsid sqe - 1
    let lba := sqeLba sqe
    let n := cdw sqe 12 % 65536 + 1
    let z := lba / 30720
    let named := 1 ≤ sqeNsid sqe ∧ k < s.nslices
    let loaded := named ∧ 2 ≤ (s.map k).mstate
    let zone := s.zone k z
    let pointer := pointerOk sqe = true
    (∀ row, (op = 1 ∧ row = .write y sqe) ∨ (op = 2 ∧ row = .read y sqe) →
      (¬ pointer → answers row 0 0x11 0) ∧
      (pointer → (¬ named → answers row 0 0x0B 0) ∧ (named → (s.map k).mstate < 2 → answers row 7 0x83 8) ∧
        (loaded → 512 < n → answers row 0 0x02 0) ∧
        (loaded → n ≤ 512 → lbnCount < lba + n → answers row 0 0x80 0))) ∧
    (pointer → loaded →
      (op = 1 → n ≤ 512 → lba + n ≤ lbnCount → (s.map k).mstate = 3 → answers (.write y sqe) 0 0x20 0) ∧
      (op = 1 → n ≤ 512 → lba + n ≤ lbnCount → (s.map k).mstate ≠ 3 → s.zoned = true →
        (zone.state = .full → answers (.write y sqe) 1 0xB9 0) ∧
        (zone.state ≠ .full → lba % 30720 + n ≤ zoneCap z → lba % 30720 ≠ zone.wp → answers (.write y sqe) 1 0xBC 0)) ∧
      (op = 0x80 → cdw sqe 12 ≠ 0 →
        let m := s.map k
        let v := if bitSet (cdw sqe 13) 8 then m.topEntry lba else cdw sqe 13 % 64
        (lbnCount ≤ lba → answers (.versionRead y sqe) 0 0x02 0) ∧
        (lba < lbnCount → ends (.versionRead y sqe) 0 0x02 0 (2 ^ 10 * b2n (m.homeState (lba / 30) == 3) +
          2 ^ 9 * b2n (m.flags.contains (lba, v)) + 2 ^ 8 * b2n (m.written lba) + m.topEntry lba))) ∧
      (s.zoned = false → (op = 0x7D → answers (.zoneAppend y sqe) 0 0x01 0) ∧
        (op = 0x7A → answers (.zoneManagementReceive y sqe) 0 0x01 0)) ∧
      (s.zoned = true → lba < lbnCount → op = 0x79 →
        let one := bitSet (cdw sqe 13) 8 = false ∧ lba % 30720 = 0
        (cdw sqe 13 % 256 = 2 → answers (.finishZone y sqe) 0 0x02 0) ∧
        (cdw sqe 13 % 256 = 4 → one → zone.state ≠ .empty → answers (.resetZone y sqe) 1 0xBF 0) ∧
        (cdw sqe 13 % 256 = 3 → one → zone.state = .full → answers (.openZone y sqe) 1 0xBF 0) ∧
        (cdw sqe 13 % 256 = 1 → one → zone.state = .empty → answers (.closeZone y sqe) 1 0xBF 0) ∧
        (one → zoneReadOnly s k zone = true → (cdw sqe 13 % 256 = 1 → answers (.closeZone y sqe) 1 0xBF 0) ∧
          (cdw sqe 13 % 256 = 3 → answers (.openZone y sqe) 1 0xBF 0)))) ∧
    (∀ a start v, checkIo s y sqe = .accept a start v →
      let one := bitSet (cdw sqe 13) 8 = false
      (op = 0x79 → one → cdw sqe 13 % 256 = 4 → zone.state = .empty ∧ v.zone k z = zone) ∧
      (op = 0x79 → one → cdw sqe 13 % 256 = 3 → v.zone k z = { zone with state := .explicitOpen }) ∧
      (op = 0x79 → one → cdw sqe 13 % 256 = 1 → v.zone k z = { zone with state := .closed }) ∧
      (op = 0x7D ∨ (op = 1 ∧ s.zoned = true) → start = 30720 * z + zone.wp ∧ (v.zone k z).wp = zone.wp + n ∧
        (zoneCap z = zone.wp + n → (v.zone k z).state = .full)) ∧
      (op = 0 ∨ op = 2 ∨ op = 0x0C ∨ op = 0x80 ∨ op = 0x7A → v = s ∧ start = lba))
/-- The admin commands act on queues, identify data, log pages and events: each is fetched and answered, and what it creates,
deletes, sends, aborts or holds is as its entry asks; an unsupported opcode is invalid (R428, R431, R432, R435, R447, R448, R454,
R455, R459). -/
def Obligations.admin_commands_act_and_answer : Prop :=
  ∀ (s : State) (sqe data : List Byte) (q : SubQ) (cq : CompQ), AdminTurn s q cq → leAt sqe 1 1 % 4 = 0 →
    let answers := fun (row : Instr) (sct sc dw0 : Nat) (p : State → Prop) => ∃ t, exec row s = .next t ∧
      HostAnswer s t 0 q cq sqe sct sc 0 dw0 ∧ t.adm.slots = s.adm.slots ∧ p t
    let op := sqeOpcode sqe
    let y := cdw sqe 10 % 65536
    let size := cdw sqe 10 / 65536
    let fits := 1 ≤ y ∧ y ≤ 128
    let same := fun (t : State) => (∀ z, z ≠ 0 → Tbl.at t.host.sqs z = Tbl.at s.host.sqs z) ∧ t.host.sent = s.host.sent
    let sends := fun (d : List Byte) (t : State) => t.host.sent = s.host.sent ++ [{ sqid := 0, cid := sqeCid sqe, data := d }]
    let noSend := fun (t : State) => t.host.sent = s.host.sent
    (op = 5 → fits →
      (Tbl.at s.host.cqs y ≠ none → answers (.createIoCq sqe) 1 0x01 0 same) ∧
      (Tbl.at s.host.cqs y = none → size = 0 ∨ 4095 < size → answers (.createIoCq sqe) 1 0x02 0 same) ∧
      (Tbl.at s.host.cqs y = none → 1 ≤ size → size ≤ 4095 → cdw sqe 11 % 2 = 1 → cdw sqe 11 / 65536 ≤ 128 →
        answers (.createIoCq sqe) 0 0 0 (fun t => Tbl.at t.host.cqs y =
          some { size := size + 1, ien := bitSet (cdw sqe 11) 1, iv := cdw sqe 11 / 65536 }))) ∧
    (op = 1 → fits → Tbl.at s.host.sqs y = none → 1 ≤ size → size ≤ 4095 → cdw sqe 11 % 2 = 1 →
      let x := cdw sqe 11 / 65536
      1 ≤ x → x ≤ 128 →
      (Tbl.at s.host.cqs x = none → answers (.createIoSq sqe) 1 0 0 same) ∧
      (Tbl.at s.host.cqs x ≠ none → answers (.createIoSq sqe) 0 0 0 (fun t => Tbl.at t.host.sqs y =
        some { size := size + 1, cqid := x }))) ∧
    (op = 4 → y ≠ 0 → Tbl.at s.host.cqs y ≠ none →
      ((∀ e ∈ (s.fetched 0 q).host.sqs, ∀ r, e.2 = some r → r.cqid ≠ y) → answers (.deleteIoCq sqe) 0 0 0 (fun t =>
        Tbl.at t.host.cqs y = none)) ∧
      (∀ z r, z ≠ 0 → Tbl.at s.host.sqs z = some r → r.cqid = y → answers (.deleteIoCq sqe) 1 0x0C 0 (fun t =>
        Tbl.at t.host.cqs y = Tbl.at s.host.cqs y))) ∧
    (op = 0 → y ≠ 0 → Tbl.at s.host.sqs y ≠ none →
      (∃ t, exec (.deleteIoSq sqe) s = .next t ∧ Tbl.at t.host.sqs y = none ∧ s.host.posted <+: t.host.posted ∧
        ∀ i, (s.slot i).live = true → (s.slot i).job = false → (s.slot i).sqid = y →
          (t.slot i).phase = .ended ∧ (t.slot i).ended = .aborted) ∧
      ((∀ e ∈ s.liveSlots, e.2.sqid ≠ y) → answers (.deleteIoSq sqe) 0 0 0 (fun t => Tbl.at t.host.sqs y = none))) ∧
    (op = 6 → pointerOk sqe = true →
      let r := identifyData s (cdw sqe 10 % 256) (sqeNsid sqe) (cdw sqe 11 / 2 ^ 24)
      (∀ d, r = .ok d → answers (.identify sqe) 0 0 0 (sends d)) ∧ (∀ sc, r = .error sc → answers (.identify sqe) 0 sc 0 noSend)) ∧
    (∃ d, identifyData s 1 0 0 = .ok d ∧ leAt d 77 1 = 9 ∧ leAt d 80 4 = 0x20000 ∧ leAt d 260 1 = 0x16 ∧ leAt d 516 4 = s.nslices) ∧
    (∀ k, k < s.nslices → ∃ d, identifyData s 0 (k + 1) 0 = .ok d ∧
      leAt d 0 8 = (if (s.map k).mstate < 2 then 0 else lbnCount) ∧ leAt d 99 1 = (if (s.map k).mstate = 3 then 1 else 0)) ∧
    (op = 2 → pointerOk sqe = true → bitSet (cdw sqe 10) 15 = true ∨ s.host.events = [] →
      (∀ d, logData (s.fetched 0 q) sqe = .ok d → answers (.getLogPage sqe) 0 0 0 (sends d)) ∧
      (∀ e, logData (s.fetched 0 q) sqe = .error e → answers (.getLogPage sqe) e.1 e.2 0 noSend)) ∧
    (op = 8 →
      let named := fun (e : Nat × Slot) => e.2.job = false ∧ e.2.sqid = y ∧ e.2.cid = size
      ((∀ e ∈ s.liveSlots, ¬ named e) → answers (.abort sqe) 0 0 1 same) ∧
      (∀ i x, s.liveSlots.find? (fun e => !e.2.job && e.2.sqid == y && e.2.cid == size) = some (i, x) → s.slot i = x →
        (x.phase = .taken → answers (.abort sqe) 0 0 1 same) ∧
        (∀ qx cx, x.phase = .queued → x.takenBy = none → x.ordered = false → s.host.ordered = [] → y ≠ 0 →
          Tbl.at s.host.sqs y = some qx → qx.cqid ≠ 0 → Tbl.at s.host.cqs qx.cqid = some cx →
          (cx.tail + 1) % cx.size ≠ cx.head →
          ∃ t, exec (.abort sqe) s = .next t ∧ (t.slot i).phase = .ended ∧ (t.slot i).ended = .aborted ∧
            t.host.posted = s.host.posted ++ [{ cqid := qx.cqid, sqid := y, cid := size, sqhd := qx.head, sct := 0, sc := 7
                                                dw0 := versionDw s x.sqe, dw1 := 0, phase := cx.phase }, answerTo 0 q cq sqe 0 0 0 0]))) ∧
    (op = 0x0C →
      (8 ≤ s.host.aers.length → answers (.asynchronousEventRequest sqe) 1 0x05 0 same) ∧
      (s.host.aers.length < 8 → s.host.events = [] → ∃ t, exec (.asynchronousEventRequest sqe) s = .next t ∧
        t.host.aers = s.host.aers ++ [sqeCid sqe] ∧ t.host.posted = s.host.posted) ∧
      (∀ e, s.host.aers = [] → s.host.events = [e] → (∀ m ∈ s.host.masked, m / 256 ≠ e.type) →
        answers (.asynchronousEventRequest sqe) 0 0 (e.type + e.info * 2 ^ 8 + e.log * 2 ^ 16) (fun t =>
          t.host.aers = [] ∧ t.host.events = []))) ∧
    (op ∉ [0, 1, 2, 4, 5, 6, 8, 9, 0x0A, 0x0C, 0x10, 0x11] → answers (.commandFetch 0 sqe data) 0 0x01 0 same)

/-- Set Features checks the value whole and then gives the feature its value, and Get Features reads it: service classes, power
mode, verify policy, ladder depth, beam count, command set profile, timestamp, write cache and the rest (R434, R435, R437, R441 to
R446, R484). -/
def Obligations.features_are_set_and_read : Prop :=
  ∀ (s : State) (sqe data : List Byte) (q : SubQ) (cq : CompQ), AdminTurn s q cq → leAt sqe 1 1 % 4 = 0 →
    let answers := fun (row : Instr) (sct sc dw0 : Nat) (p : State → Prop) => ∃ t, exec row s = .next t ∧
      HostAnswer s t 0 q cq sqe sct sc 0 dw0 ∧ p t
    let v := cdw sqe 11
    let fid := cdw sqe 10 % 256
    let save := bitSet (cdw sqe 10) 31
    let same := fun (t : State) => t.host.feat = s.host.feat ∧ t.regs = s.regs
    let only := fun (f i x : Nat) (t : State) => t.feat f i = x ∧ ∀ g j, f < 256 → g < 256 → i < 0x10000 → j < 0x10000 →
      g ≠ f ∨ j ≠ i → t.feat g j = s.feat g j
    (sqeOpcode sqe = 9 → save = false →
      (fid = 0xC0 → pointerOk sqe = true →
        (classesOk data = true → answers (.setServiceClasses sqe data) 0 0 0 (fun t =>
          (∀ c, c < 8 → t.feat 0xC0 c = leAt data (16 * c) 4 ∧ t.feat 0xC0 (8 + c) = leAt data (16 * c + 4) 1) ∧
          ∀ x, 1 ≤ x → x ≤ 128 → t.feat 0xC0 (16 + x) = leAt data (127 + x) 1)) ∧
        ((∃ c, c < 8 ∧ (leAt data (16 * c) 4 < 100 ∨ 144000000 < leAt data (16 * c) 4 ∨ 1 < leAt data (16 * c + 4) 1)) →
          answers (.setServiceClasses sqe data) 0 0x02 0 same)) ∧
      (fid = 0xC1 ∨ (fid = 2 ∧ v < 32) →
        (3 < v → answers (.setPowerMode sqe) 0 0x02 0 same) ∧
        (v ≤ 3 → answers (.setPowerMode sqe) 0 0 0 (fun t => t.modeSet = v ∧ t.cf 0 0xC000 10 10 = 0 ∧
          (v ≤ s.modeRow → t.modeRow = v) ∧
          (s.modeRow < v → (s.liveSlots = [] → t.modeRow = v) ∧
            ((∃ e ∈ s.liveSlots, e.2.order < s.adm.nextOrder) → t.modeRow = s.modeRow ∧ t.cf 0 0xC000 9 9 = 1))))) ∧
      (fid = 0xC2 → let x := bitsOf v 9 8
        (v < 2 ^ 10 → bitsOf v 7 3 = 0 → x ≤ 2 → answers (.setVerifyPolicy sqe) 0 0 0 (only 0xC2 (v % 8) x)) ∧
        (2 ^ 10 ≤ v ∨ bitsOf v 7 3 ≠ 0 ∨ x = 3 → answers (.setVerifyPolicy sqe) 0 0x02 0 same)) ∧
      (fid = 0xC3 → let x := bitsOf v 10 8
        (v < 2 ^ 11 → bitsOf v 7 3 = 0 → x ≤ 6 → answers (.setRetryDepth sqe) 0 0 0 (only 0xC3 (v % 8) x)) ∧
        (2 ^ 11 ≤ v ∨ bitsOf v 7 3 ≠ 0 ∨ x = 7 → answers (.setRetryDepth sqe) 0 0x02 0 same)) ∧
      (fid = 0xC4 → let x := bitsOf v 9 8
        (v < 2 ^ 10 → bitsOf v 7 2 = 0 → x ≤ 2 → v % 4 < s.nslices →
          answers (.setBeamCount sqe) 0 0 0 (only 0xC4 (v % 4) x)) ∧
        (s.nslices ≤ v % 4 ∨ x = 3 → answers (.setBeamCount sqe) 0 0x02 0 same)) ∧
      (fid = 0x19 →
        (ioQueues s = true → answers (.setIoCommandSetProfile sqe) 0 0x0C 0 same) ∧
        (ioQueues s = false → v % 512 ≤ 1 → answers (.setIoCommandSetProfile sqe) 0 0 0 (fun t => t.feat 0x19 0 = v % 512))) ∧
      (fid = 0x0E → pointerOk sqe = true → answers (.setTimestamp sqe data) 0 0 0 (fun t =>
        t.rtcMs = some (leAt data 0 6) ∧ t.host.feat = s.host.feat)) ∧
      (fid = 0x06 → answers (.setVolatileWriteCache sqe) 0 0 0 (only 6 0 (v % 2))) ∧
      (fid = 1 → answers (.setFeatures sqe) 0 0 0 (only 1 0 (v % 8))) ∧
      (fid = 7 → ioQueues s = true → answers (.setFeatures sqe) 0 0x0C 0 same) ∧
      (fid = 0x0B → answers (.setFeatures sqe) 0 0 0 (only 0x0B 0 v)) ∧
      (knownFeature fid = false → answers (.setFeatures sqe) 0 0x02 0 same)) ∧
    (sqeOpcode sqe = 9 → save = true → fid = 0x06 → answers (.setVolatileWriteCache sqe) 1 0x0D 0 same) ∧
    (sqeOpcode sqe = 0x0A → ∀ dw0,
      (getFeature s fid (bitsOf (cdw sqe 10) 10 8) v = .ok dw0 [] →
        answers (.getFeatures sqe) 0 0 dw0 (fun t => same t ∧ t.host.sent = s.host.sent)) ∧
      (∀ b d, getFeature s fid (bitsOf (cdw sqe 10) 10 8) v = .ok dw0 (b :: d) → pointerOk sqe = true →
        answers (.getFeatures sqe) 0 0 dw0 (fun t =>
          same t ∧ t.host.sent = s.host.sent ++ [{ sqid := 0, cid := sqeCid sqe, data := b :: d }])) ∧
      (∀ sct sc, getFeature s fid (bitsOf (cdw sqe 10) 10 8) v = .fail sct sc → answers (.getFeatures sqe) sct sc 0 same)) ∧
    (∀ c, c < 8 → getFeature s 0xC2 0 c = .ok (s.feat 0xC2 c) [] ∧ getFeature s 0xC3 0 c = .ok (s.feat 0xC3 c) [] ∧
      getFeature s 0xC2 1 c = .ok 0 [] ∧ getFeature s 0xC3 1 c = .ok 6 []) ∧
    getFeature s 0xC1 0 0 = .ok (s.modeSet + 2 ^ 8 * s.cf 0 0xC000 8 8 + 2 ^ 9 * s.cf 0 0xC000 10 10) [] ∧
    (∀ k, k < s.nslices → getFeature s 0xC4 0 k = .ok (s.feat 0xC4 k * 2 ^ 8 + s.beamMode k * 2 ^ 12) [])

/-- Firmware is downloaded in parts of 4 KiB that do not overlap, and a Commit puts a valid image into its slot, sets the slot to
try, or fixes the activation point; an invalid one changes nothing; at the point the cores restart on the new image and its
record opens, and the Commit completes (R457, R458, R520, R532). -/
def Obligations.firmware_download_commit_and_activation : Prop :=
  ∀ (s : State),
    (∀ (sqe data : List Byte) (q : SubQ) (cq : CompQ), AdminTurn s q cq → leAt sqe 1 1 % 4 = 0 →
      let answers := fun (row : Instr) (sct sc : Nat) (p : State → Prop) => ∃ t, exec row s = .next t ∧
        HostAnswer s t 0 q cq sqe sct sc 0 0 ∧ p t
      let same := fun (t : State) => t.sec = s.sec ∧ t.host.download = s.host.download ∧ t.host.activation = s.host.activation
      let n := 4 * (cdw sqe 10 + 1)
      let off := 4 * cdw sqe 11
      let clash := ∃ p ∈ s.host.download, p.off < off + n ∧ off < p.off + p.data.length
      let img := downloaded s
      let fs := cdw sqe 10 % 8
      let sec := fun (slot : Nat) (x : Secure) => { x with slots := Tbl.upd slot img x.slots }
      (sqeOpcode sqe = 0x11 → pointerOk sqe = true →
        (n % 4096 ≠ 0 ∨ off % 4096 ≠ 0 → answers (.firmwareImageDownload sqe data) 0 0x02 same) ∧
        (n % 4096 = 0 → off % 4096 = 0 → clash → answers (.firmwareImageDownload sqe data) 1 0x14 same) ∧
        (n % 4096 = 0 → off % 4096 = 0 → ¬ clash → answers (.firmwareImageDownload sqe data) 0 0 (fun t =>
          t.host.download = s.host.download ++ [{ off := off, data := padTo n data }]))) ∧
      (sqeOpcode sqe = 0x10 → 1 ≤ fs → fs ≤ 3 →
        let ca := sqeAction sqe
        (imageValid s img = false →
          (ca = 0 → answers (.fwCommitStore sqe) 1 0x07 same) ∧ (ca = 1 → answers (.fwCommitStoreActivate sqe) 1 0x07 same) ∧
          (ca = 3 → answers (.fwCommitActivateNow sqe) 1 0x07 same)) ∧
        (imageValid s img = true →
          (ca = 0 → answers (.fwCommitStore sqe) 0 0 (fun t => t.sec = sec (fs - 1) s.sec ∧ t.host.download = [])) ∧
          (ca = 1 → answers (.fwCommitStoreActivate sqe) 0 0 (fun t =>
            t.sec = { Secure.setControl s.sec.active (some (fs - 1)) (sec (fs - 1) s.sec) with tried := false } ∧
            t.sec.trial = some (fs - 1) ∧ t.sec.active = s.sec.active ∧ t.host.download = [])) ∧
          (ca = 3 → s.host.activation ≠ none → answers (.fwCommitActivateNow sqe) 1 0x13 same) ∧
          (ca = 3 → s.host.activation = none →
            (deckOnly s img = false → answers (.fwCommitActivateNow sqe) 1 0x0B (fun t => t.sec = sec (fs - 1) s.sec)) ∧
            (deckOnly s img = true → ∃ t v, exec (.fwCommitActivateNow sqe) s = .next t ∧ t.sec = sec (fs - 1) s.sec ∧
              t.host.posted = s.host.posted ∧ t.host.activation = some v ∧ v.cid = sqeCid sqe ∧ v.slot = fs - 1 ∧
              v.started = false ∧ v.upto = s.adm.nextOrder ∧ (v.waits = true ↔ ∃ e ∈ s.liveSlots, e.2.job = false) ∧
              s.time + 10000000 ≤ v.t ∧ (∀ e ∈ s.liveSlots, e.2.job = false → e.2.d ≤ v.t) ∧
              (v.t = s.time + 10000000 ∨ ∃ e ∈ s.liveSlots, e.2.job = false ∧ e.2.d = v.t)))) ∧
        (ca = 2 →
          (imageValid s (slotImage s (fs - 1)) = false → answers (.fwCommitActivateSlot sqe) 1 0x07 same) ∧
          (imageValid s (slotImage s (fs - 1)) = true → answers (.fwCommitActivateSlot sqe) 0 0 (fun t =>
            t.sec = { Secure.setControl s.sec.active (some (fs - 1)) s.sec with tried := false } ∧
            t.sec.trial = some (fs - 1) ∧ t.sec.active = s.sec.active ∧ t.host.download = s.host.download))))) ∧
    (∀ v, s.down = false → s.stopped = false → s.host.activation = some v → v.started = false →
      let stays := ∃ e ∈ s.liveSlots, e.2.job = false ∧ e.2.order < v.upto
      (s.time < v.t → v.waits = false ∨ stays → exec .firmwareActivationPoint s = .next s) ∧
      (v.t ≤ s.time ∨ (v.waits = true ∧ ¬ stays) → ∃ t, exec .firmwareActivationPoint s = .next t ∧
        t.host.activation = some { v with t := s.time, started := true } ∧ t.sec.running = slotImage s v.slot ∧
        t.sec.runSlot = v.slot ∧ (∃ b, t.sec.act = some b ∧ b.kind = 2 ∧ b.slot = v.slot ∧ b.openedAt = s.time ∧
          b.meas.length = 2) ∧
        (∀ c, c < 8 * s.nslices → (s.core c).run ≠ .inReset → (t.core c).run = .running ∧ (t.core c).level = .supervisor ∧
          (t.core c).pc = BitVec.ofNat 64 (4 * s.cf (c / 8) (0x0240 + 8 * (c % 8)) 39 2) ∧ ∀ i, (t.core c).r i = 0) ∧
        (∀ j, Tbl.at t.engines j = Tbl.at s.engines j) ∧
        ∀ i, (s.slot i).phase = .taken → (s.slot i).posting = false → (t.slot i).phase = .queued ∨
          ∀ c, c < 8 * s.nslices → (s.slot i).takenBy = some c → (s.core c).run = .inReset)) ∧
    (∀ v q cq, s.down = false → s.host.activation = some v → v.started = true → Tbl.at s.host.sqs 0 = some q → q.cqid = 0 →
      Tbl.at s.host.cqs 0 = some cq → (cq.tail + 1) % cq.size ≠ cq.head →
      ∃ t, exec .firmwareActivationComplete s = .next t ∧ t.host.activation = none ∧
        t.host.posted = s.host.posted ++ [{ cqid := 0, sqid := 0, cid := v.cid, sqhd := q.head, sct := 0, sc := 0, dw0 := 0
                                            dw1 := 0, phase := cq.phase }])
/-- The management transports answer while the package runs, link up or not: NVMe-MI data structures, polls, configuration, VPD
and tunnelled commands, with any other command refused; an endpoint identifier is taken; and SPDM's exchange goes step by step on
each transport on its own, its challenge and signed measurements signed by the Alias key (R460, R461, R525, R537). -/
def Obligations.management_transports_answer : Prop :=
  ∀ (s : State), s.down = false →
    let said := fun (u : State) (tr code : Nat) (d : List Byte) =>
      { u with host := { u.host with replies := u.host.replies ++ [⟨tr, code, d⟩] } }
    let tells := fun (row : Instr) (code : Nat) (d : List Byte) => exec row s = .next (said s 1 code d)
    (∀ dtyp port, ∃ d, tells (.readNvmeMiDataStructure dtyp port) 0 d ∧ d.length = 32) ∧
    (∃ d, tells .subsystemHealthStatusPoll 0 d ∧ d.length = 8 ∧ leAt d 0 1 = 0x30 + (if s.host.linkUp then 8 else 0) ∧
      leAt d 1 1 = 255 - criticalWarning s) ∧
    (∃ d, tells .controllerHealthStatusPoll 0 d ∧ d.length = 16 ∧ leAt d 2 2 = s.host.csts.toNat % 32 ∧
      leAt d 8 1 = criticalWarning s) ∧
    (∃ d, tells .basicManagementCommand 0 d ∧ d.length = 8 ∧ leAt d 2 1 = 255 - criticalWarning s) ∧
    tells (.configurationGet 1) 0 (leBytes 3 s.host.smbusFreq) ∧ tells (.configurationGet 3) 0 (leBytes 3 s.host.mctpUnit) ∧
    (∀ id, id ≠ 1 → id ≠ 3 → tells (.configurationGet id) 4 []) ∧
    (∀ v : BitVec 16,
      (1 ≤ v.toNat → v.toNat ≤ 2 → exec (.configurationSet 1 v) s =
        .next (said { s with host := { s.host with smbusFreq := v.toNat } } 1 0 [])) ∧
      (v.toNat = 0 ∨ 2 < v.toNat → tells (.configurationSet 1 v) 4 []) ∧
      (64 ≤ v.toNat → v.toNat ≤ 256 → exec (.configurationSet 3 v) s =
        .next (said { s with host := { s.host with mctpUnit := v.toNat } } 1 0 [])) ∧
      (v.toNat < 64 ∨ 256 < v.toNat → tells (.configurationSet 3 v) 4 []) ∧
      ∀ id, id ≠ 1 → id ≠ 3 → tells (.configurationSet id v) 4 []) ∧
    (∀ off len : BitVec 16, ∃ d, tells (.vpdRead off len) 0 d ∧ d.length = len.toNat) ∧
    (∀ sqe,
      (∀ d, sqeOpcode sqe = 6 → identifyData s (cdw sqe 10 % 256) (sqeNsid sqe) (cdw sqe 11 / 2 ^ 24) = .ok d →
        tells (.tunnelledAdminCommand sqe) 0 d) ∧
      (∀ d, sqeOpcode sqe = 2 → logData s sqe = .ok d → tells (.tunnelledAdminCommand sqe) 0 d) ∧
      (∀ dw0 d, sqeOpcode sqe = 0x0A → getFeature s (sqeFid sqe) (bitsOf (cdw sqe 10) 10 8) (cdw sqe 11) = .ok dw0 d →
        tells (.tunnelledAdminCommand sqe) 0 (leBytes 4 dw0 ++ d)) ∧
      (sqeOpcode sqe ∉ [2, 6, 0x0A] → tells (.tunnelledAdminCommand sqe) 3 [])) ∧
    (∀ eid : BitVec 8, exec (.setEndpointId eid) s = .next { s with host := { s.host with eid := eid.toNat } }) ∧
    (∀ tr, tr < 2 → ∀ req : List Byte,
      let x := s.conn tr
      let step := fun (row : Instr) (u : State) (code : Nat) (d : List Byte) (y : Spdm) => ∃ t, exec row s = .next t ∧
        t = said (u.setConn tr y) tr code d ∧ t.conn tr = y ∧ t.conn (1 - tr) = s.conn (1 - tr)
      let wrong := fun (row : Instr) => exec row s = .next (said s tr 0x7F [])
      let chain := Config.sha384 (certChain s)
      let nonce := (List.range 32).map (Config.drbg s.free)
      let drawn := { s with free := s.free + 1 }
      let alias_ := aliasPrivate s
      step (.getVersion tr req) s 0x04 [0x00#8, 0x11#8, 0x00#8, 0x12#8]
        { phase := 1, auth := req ++ [0x00#8, 0x11#8, 0x00#8, 0x12#8] } ∧
      (x.phase = 1 → step (.getCapabilities tr req) s 0x61 (leBytes 4 0x16)
        { x with phase := 2, auth := x.auth ++ req ++ leBytes 4 0x16 }) ∧
      (x.phase ≠ 1 → wrong (.getCapabilities tr req)) ∧
      (x.phase = 2 → ∃ d y, step (.negotiateAlgorithms tr req) s 0x63 d y ∧ y.phase = 3 ∧ y.auth = x.auth ++ req ++ d) ∧
      (x.phase ≠ 2 → wrong (.negotiateAlgorithms tr req)) ∧
      (x.phase < 3 → wrong (.getDigests tr req) ∧ (∀ slot off len, wrong (.getCertificate tr req slot off len)) ∧
        (∀ slot, wrong (.challenge tr req slot)) ∧ ∀ i b, wrong (.getMeasurements tr req i b)) ∧
      (3 ≤ x.phase →
        step (.getDigests tr req) s 0x01 chain { x with auth := x.auth ++ req ++ chain } ∧
        (∀ off len : BitVec 16, let d := ((certChain s).drop off.toNat).take len.toNat
          step (.getCertificate tr req 0 off len) s 0x02 d { x with auth := x.auth ++ req ++ d }) ∧
        (∀ slot off len, slot ≠ 0 → wrong (.getCertificate tr req slot off len)) ∧
        step (.challenge tr req 0) drawn 0x03
          (chain ++ nonce ++ Config.sign alias_ (x.auth ++ req ++ (chain ++ nonce))) { x with auth := [] } ∧
        (∀ slot, slot ≠ 0 → wrong (.challenge tr req slot)) ∧
        (∀ i : BitVec 8, 7 < i.toNat → i.toNat ≠ 0xFF → ∀ b, wrong (.getMeasurements tr req i b)) ∧
        (∀ i : BitVec 8, i.toNat ≤ 7 ∨ i.toNat = 0xFF →
          let each := fun (l : List Nat) => l.flatMap (fun n => leBytes 1 n ++ measBlock s n)
          let d := (if i.toNat = 0 then leBytes 1 7 else if i.toNat = 0xFF then leBytes 1 7 ++ each [1, 2, 3, 4, 5, 6, 7]
            else leBytes 1 1 ++ each [i.toNat]) ++ nonce
          step (.getMeasurements tr req i false) drawn 0x60 d { x with meas := x.meas ++ req ++ d } ∧
          step (.getMeasurements tr req i true) drawn 0x60 (d ++ Config.sign alias_ (x.meas ++ req ++ d))
            { x with meas := [] })))
/-- The block takes the command at the front of its queue, and its effect is that command's on the state with the queue's rest;
with no command waiting one LOOP tick of 2.5 ns passes (R34, R108). -/
def Obligations.a_step_takes_the_front_command : Prop :=
  ∀ (s : State),
    (∀ i rest, s.pending = i :: rest → step s = exec i { s with pending := rest }) ∧
    (s.pending = [] → ∃ t, step s = .next t ∧ t.now = s.now + 1 ∧ t.mem = s.mem ∧ t.cores = s.cores ∧ t.engines = s.engines ∧
      t.pending = [])

/-- After reset core 0 alone is released, at Boot level at pc 0, every core with s.status 0, registers and regions 0 and
predicates p1 to p7 0; no seal stands, no command waits or is live, every write inhibit is raised, no disc is loaded, no loop
program runs, no output is committed, the timebase is 0, and memory is in canonical form (R44, R194, R211, R349, R523, R582). -/
def Obligations.reset_leaves_the_state_the_spec_gives : Prop :=
  let s := State.reset
  (s.core 0).run = .running ∧ (∀ c, c ≠ 0 → (s.core c).run = .inReset) ∧
  (∀ c, (s.core c).level = .boot ∧ (s.core c).pc = 0 ∧ (s.core c).status = 0 ∧ (∀ i, (s.core c).r i = 0) ∧
    (s.core c).p &&& 0xFE = 0 ∧ ∀ n : Fin 64, (s.core c).rgnAttr[n] = 0) ∧
  s.sealed = false ∧ s.pending = [] ∧ s.time = 0 ∧ s.cycle = 0 ∧ s.frame = 0 ∧
  (∀ i, (s.slot i).phase = .free) ∧ (∀ k h, k < 4 → h < 2 → wiRaised s k h = true) ∧ (∀ k, (s.map k).mstate = 0) ∧
  (∀ k e, (s.engine k e).code = []) ∧ (∀ k ch, s.out k ch = none) ∧ s.host.linkUp = false ∧ s.host.csts = 0 ∧
  (∀ k i, k < 4 → i < 128 → s.costWord k i = BitVec.ofNat 64 (ctRef i)) ∧ MemoryCanonical s

/-- Every step keeps memory in its canonical form: each byte listed once, in rising order, and none that reads as an unlisted
one does. -/
def Obligations.every_step_keeps_memory_canonical : Prop :=
  ∀ (s t : State), MemoryCanonical s → step s = .next t → MemoryCanonical t

/-- Every step answers a next state, and what the part and revision hard-wire stays as it is: the identity register, the slice
count and the places of the dies read the same after every command and every tick (R1, R615, R620). -/
def Obligations.every_step_goes_on_and_keeps_the_identity : Prop :=
  ∀ (s : State), ∃ t, step s = .next t ∧ t.part = s.part ∧ t.rev = s.rev ∧ t.identity = s.identity ∧ t.nslices = s.nslices ∧
    ∀ fdie k, t.place fdie k = s.place fdie k
end

