-- ==== Sys2Proof/Laws/Table.lean ====
section
/-! SUPPORT. Sparse tables: a read after a write to the same key gives the value written, a write leaves every other key
alone, and every write keeps the canonical form. -/

namespace Sys2Proof

variable {α : Type}

theorem Tbl.get_put (dflt : Nat → α) (k : Nat) (v : α) (j : Nat) (t : Tbl α) :
    Tbl.get dflt (Tbl.put k v t) j = if j = k then v else Tbl.get dflt t j := by
  induction t with
  | nil => simp only [Tbl.put, Tbl.get, eq_comm]
  | cons e t ih =>
    unfold Tbl.put
    split
    · simp only [Tbl.get, eq_comm]
    · split
      · rename_i h
        simp only [Tbl.get, h]
        by_cases hj : j = k
        · simp [hj]
        · simp [hj, Ne.symm hj]
      · rename_i hlt hne
        simp only [Tbl.get, ih]
        by_cases hj : j = k
        · simp [hj, hne]
        · simp [hj]

theorem Tbl.get_drop (dflt : Nat → α) (k j : Nat) (t : Tbl α) :
    Tbl.get dflt (Tbl.drop k t) j = if j = k then dflt k else Tbl.get dflt t j := by
  induction t with
  | nil => by_cases h : j = k <;> simp [Tbl.drop, Tbl.get, h]
  | cons e t ih =>
    simp only [Tbl.drop] at ih ⊢
    by_cases he : e.1 = k
    · simp only [List.filter_cons, he, ne_eq, not_true_eq_false, decide_false, Bool.false_eq_true, if_false, ih]
      by_cases hj : j = k
      · simp [hj]
      · simp [Tbl.get, hj, he, Ne.symm hj]
    · simp only [List.filter_cons, he, ne_eq, not_false_eq_true, decide_true, if_true, Tbl.get, ih]
      by_cases hj : j = k
      · simp [hj, he]
      · simp [hj]

/-- A read after a write to a table. -/
theorem Tbl.get_set [DecidableEq α] (dflt : Nat → α) (k : Nat) (v : α) (j : Nat) (t : Tbl α) :
    Tbl.get dflt (Tbl.set dflt k v t) j = if j = k then v else Tbl.get dflt t j := by
  unfold Tbl.set
  split
  · rename_i h
    rw [Tbl.get_drop, ← h]
  · exact Tbl.get_put dflt k v j t

@[simp] theorem Tbl.at_upd_self [Inhabited α] [DecidableEq α] (k : Nat) (v : α) (t : Tbl α) :
    Tbl.at (Tbl.upd k v t) k = v := by
  simp [Tbl.at, Tbl.upd, Tbl.get_set]

theorem Tbl.at_upd_ne [Inhabited α] [DecidableEq α] {k j : Nat} (h : j ≠ k) (v : α) (t : Tbl α) :
    Tbl.at (Tbl.upd k v t) j = Tbl.at t j := by
  simp [Tbl.at, Tbl.upd, Tbl.get_set, h]

theorem Tbl.at_upd [Inhabited α] [DecidableEq α] (k j : Nat) (v : α) (t : Tbl α) :
    Tbl.at (Tbl.upd k v t) j = if j = k then v else Tbl.at t j := by
  simp [Tbl.at, Tbl.upd, Tbl.get_set]

/-! The canonical form. -/

theorem Tbl.put_mem (k : Nat) (v : α) (t : Tbl α) (e : Nat × α) (h : e ∈ Tbl.put k v t) : e = (k, v) ∨ e ∈ t := by
  induction t with
  | nil => simpa [Tbl.put] using h
  | cons d t ih =>
    unfold Tbl.put at h
    split at h
    · simpa using h
    · split at h
      · rcases List.mem_cons.1 h with h | h
        · exact .inl h
        · exact .inr (List.mem_cons_of_mem _ h)
      · rcases List.mem_cons.1 h with h | h
        · exact .inr (h ▸ List.mem_cons_self)
        · rcases ih h with h | h
          · exact .inl h
          · exact .inr (List.mem_cons_of_mem _ h)

theorem Tbl.put_rising (k : Nat) (v : α) (t : Tbl α) (h : t.Pairwise (fun a b => a.1 < b.1)) :
    (Tbl.put k v t).Pairwise (fun a b => a.1 < b.1) := by
  induction t with
  | nil => simp [Tbl.put]
  | cons d t ih =>
    obtain ⟨hd, ht⟩ := List.pairwise_cons.1 h
    unfold Tbl.put
    split
    · rename_i hk
      refine List.pairwise_cons.2 ⟨?_, h⟩
      intro e he
      rcases List.mem_cons.1 he with he | he
      · exact he ▸ hk
      · exact lt_trans hk (hd e he)
    · split
      · rename_i hk
        exact List.pairwise_cons.2 ⟨fun e he => hk ▸ hd e he, ht⟩
      · rename_i hlt hne
        refine List.pairwise_cons.2 ⟨?_, ih ht⟩
        intro e he
        rcases Tbl.put_mem k v t e he with he | he
        · subst he; simp only at hlt ⊢; omega
        · exact hd e he

theorem Tbl.drop_canon (dflt : Nat → α) (k : Nat) (t : Tbl α) (h : Tbl.Canon dflt t) : Tbl.Canon dflt (Tbl.drop k t) :=
  ⟨h.1.filter _, fun e he => h.2 e (List.mem_of_mem_filter he)⟩

/-- Any part of a canonical table is canonical. -/
theorem Tbl.filter_canon (dflt : Nat → α) (p : Nat × α → Bool) (t : Tbl α) (h : Tbl.Canon dflt t) :
    Tbl.Canon dflt (t.filter p) :=
  ⟨h.1.filter _, fun e he => h.2 e (List.mem_of_mem_filter he)⟩

theorem Tbl.set_canon [DecidableEq α] (dflt : Nat → α) (k : Nat) (v : α) (t : Tbl α) (h : Tbl.Canon dflt t) :
    Tbl.Canon dflt (Tbl.set dflt k v t) := by
  unfold Tbl.set
  split
  · exact Tbl.drop_canon dflt k t h
  · rename_i hv
    refine ⟨Tbl.put_rising k v t h.1, fun e he => ?_⟩
    rcases Tbl.put_mem k v t e he with he | he
    · subst he; exact hv
    · exact h.2 e he

theorem Tbl.upd_canon [Inhabited α] [DecidableEq α] (k : Nat) (v : α) (t : Tbl α)
    (h : Tbl.Canon (fun _ => default) t) : Tbl.Canon (fun _ => default) (Tbl.upd k v t) :=
  Tbl.set_canon _ k v t h

end Sys2Proof
end

