-- ==== Sys2Proof/Laws/State.lean ====
section
/-! SUPPORT. The named updates of State, field by field: what each leaves alone, true by rfl, and what it writes. -/

namespace Sys2Proof.Machine

variable (s : State)

@[simp] theorem State.setCore_part (c : Nat) (k : Core) : (s.setCore c k).part = s.part := rfl
@[simp] theorem State.setCore_rev (c : Nat) (k : Core) : (s.setCore c k).rev = s.rev := rfl
@[simp] theorem State.setCore_now (c : Nat) (k : Core) : (s.setCore c k).now = s.now := rfl
@[simp] theorem State.setCore_free (c : Nat) (k : Core) : (s.setCore c k).free = s.free := rfl
@[simp] theorem State.setCore_sealed (c : Nat) (k : Core) : (s.setCore c k).sealed = s.sealed := rfl
@[simp] theorem State.setCore_icache (c : Nat) (k : Core) : (s.setCore c k).icache = s.icache := rfl
@[simp] theorem State.setCore_regs (c : Nat) (k : Core) : (s.setCore c k).regs = s.regs := rfl
@[simp] theorem State.setCore_mem (c : Nat) (k : Core) : (s.setCore c k).mem = s.mem := rfl
@[simp] theorem State.setCore_ecc (c : Nat) (k : Core) : (s.setCore c k).ecc = s.ecc := rfl
@[simp] theorem State.setCore_cache (c : Nat) (k : Core) : (s.setCore c k).cache = s.cache := rfl
@[simp] theorem State.setCore_bufs (c : Nat) (k : Core) : (s.setCore c k).bufs = s.bufs := rfl
@[simp] theorem State.setCore_fifos (c : Nat) (k : Core) : (s.setCore c k).fifos = s.fifos := rfl
@[simp] theorem State.setCore_snap (c : Nat) (k : Core) : (s.setCore c k).snap = s.snap := rfl
@[simp] theorem State.setCore_adm (c : Nat) (k : Core) : (s.setCore c k).adm = s.adm := rfl
@[simp] theorem State.setCore_host (c : Nat) (k : Core) : (s.setCore c k).host = s.host := rfl
@[simp] theorem State.setCore_flt (c : Nat) (k : Core) : (s.setCore c k).flt = s.flt := rfl
@[simp] theorem State.setCore_ring (c : Nat) (k : Core) : (s.setCore c k).ring = s.ring := rfl
@[simp] theorem State.setCore_aon (c : Nat) (k : Core) : (s.setCore c k).aon = s.aon := rfl
@[simp] theorem State.setCore_sec (c : Nat) (k : Core) : (s.setCore c k).sec = s.sec := rfl
@[simp] theorem State.setCore_therm (c : Nat) (k : Core) : (s.setCore c k).therm = s.therm := rfl
@[simp] theorem State.setCore_chan (c : Nat) (k : Core) : (s.setCore c k).chan = s.chan := rfl
@[simp] theorem State.setCore_shock (c : Nat) (k : Core) : (s.setCore c k).shock = s.shock := rfl
@[simp] theorem State.setCore_tripped (c : Nat) (k : Core) : (s.setCore c k).tripped = s.tripped := rfl
@[simp] theorem State.setCore_polls (c : Nat) (k : Core) : (s.setCore c k).polls = s.polls := rfl
@[simp] theorem State.setCore_lit (c : Nat) (k : Core) : (s.setCore c k).lit = s.lit := rfl
@[simp] theorem State.setCore_trims (c : Nat) (k : Core) : (s.setCore c k).trims = s.trims := rfl
@[simp] theorem State.setCore_spins (c : Nat) (k : Core) : (s.setCore c k).spins = s.spins := rfl
@[simp] theorem State.setCore_axes (c : Nat) (k : Core) : (s.setCore c k).axes = s.axes := rfl
@[simp] theorem State.setCore_steps (c : Nat) (k : Core) : (s.setCore c k).steps = s.steps := rfl
@[simp] theorem State.setCore_progs (c : Nat) (k : Core) : (s.setCore c k).progs = s.progs := rfl
@[simp] theorem State.setCore_cal (c : Nat) (k : Core) : (s.setCore c k).cal = s.cal := rfl
@[simp] theorem State.setCore_safe (c : Nat) (k : Core) : (s.setCore c k).safe = s.safe := rfl
@[simp] theorem State.setCore_rst (c : Nat) (k : Core) : (s.setCore c k).rst = s.rst := rfl
@[simp] theorem State.setCore_engines (c : Nat) (k : Core) : (s.setCore c k).engines = s.engines := rfl
@[simp] theorem State.setCore_outs (c : Nat) (k : Core) : (s.setCore c k).outs = s.outs := rfl
@[simp] theorem State.setCore_published (c : Nat) (k : Core) : (s.setCore c k).published = s.published := rfl
@[simp] theorem State.setCore_maps (c : Nat) (k : Core) : (s.setCore c k).maps = s.maps := rfl
@[simp] theorem State.setCore_keys (c : Nat) (k : Core) : (s.setCore c k).keys = s.keys := rfl
@[simp] theorem State.setCore_pending (c : Nat) (k : Core) : (s.setCore c k).pending = s.pending := rfl

@[simp] theorem State.modCore_part (c : Nat) (f : Core → Core) : (s.modCore c f).part = s.part := rfl
@[simp] theorem State.modCore_rev (c : Nat) (f : Core → Core) : (s.modCore c f).rev = s.rev := rfl
@[simp] theorem State.modCore_now (c : Nat) (f : Core → Core) : (s.modCore c f).now = s.now := rfl
@[simp] theorem State.modCore_free (c : Nat) (f : Core → Core) : (s.modCore c f).free = s.free := rfl
@[simp] theorem State.modCore_sealed (c : Nat) (f : Core → Core) : (s.modCore c f).sealed = s.sealed := rfl
@[simp] theorem State.modCore_icache (c : Nat) (f : Core → Core) : (s.modCore c f).icache = s.icache := rfl
@[simp] theorem State.modCore_regs (c : Nat) (f : Core → Core) : (s.modCore c f).regs = s.regs := rfl
@[simp] theorem State.modCore_mem (c : Nat) (f : Core → Core) : (s.modCore c f).mem = s.mem := rfl
@[simp] theorem State.modCore_ecc (c : Nat) (f : Core → Core) : (s.modCore c f).ecc = s.ecc := rfl
@[simp] theorem State.modCore_cache (c : Nat) (f : Core → Core) : (s.modCore c f).cache = s.cache := rfl
@[simp] theorem State.modCore_bufs (c : Nat) (f : Core → Core) : (s.modCore c f).bufs = s.bufs := rfl
@[simp] theorem State.modCore_fifos (c : Nat) (f : Core → Core) : (s.modCore c f).fifos = s.fifos := rfl
@[simp] theorem State.modCore_snap (c : Nat) (f : Core → Core) : (s.modCore c f).snap = s.snap := rfl
@[simp] theorem State.modCore_adm (c : Nat) (f : Core → Core) : (s.modCore c f).adm = s.adm := rfl
@[simp] theorem State.modCore_host (c : Nat) (f : Core → Core) : (s.modCore c f).host = s.host := rfl
@[simp] theorem State.modCore_flt (c : Nat) (f : Core → Core) : (s.modCore c f).flt = s.flt := rfl
@[simp] theorem State.modCore_ring (c : Nat) (f : Core → Core) : (s.modCore c f).ring = s.ring := rfl
@[simp] theorem State.modCore_aon (c : Nat) (f : Core → Core) : (s.modCore c f).aon = s.aon := rfl
@[simp] theorem State.modCore_sec (c : Nat) (f : Core → Core) : (s.modCore c f).sec = s.sec := rfl
@[simp] theorem State.modCore_therm (c : Nat) (f : Core → Core) : (s.modCore c f).therm = s.therm := rfl
@[simp] theorem State.modCore_chan (c : Nat) (f : Core → Core) : (s.modCore c f).chan = s.chan := rfl
@[simp] theorem State.modCore_shock (c : Nat) (f : Core → Core) : (s.modCore c f).shock = s.shock := rfl
@[simp] theorem State.modCore_tripped (c : Nat) (f : Core → Core) : (s.modCore c f).tripped = s.tripped := rfl
@[simp] theorem State.modCore_polls (c : Nat) (f : Core → Core) : (s.modCore c f).polls = s.polls := rfl
@[simp] theorem State.modCore_lit (c : Nat) (f : Core → Core) : (s.modCore c f).lit = s.lit := rfl
@[simp] theorem State.modCore_trims (c : Nat) (f : Core → Core) : (s.modCore c f).trims = s.trims := rfl
@[simp] theorem State.modCore_spins (c : Nat) (f : Core → Core) : (s.modCore c f).spins = s.spins := rfl
@[simp] theorem State.modCore_axes (c : Nat) (f : Core → Core) : (s.modCore c f).axes = s.axes := rfl
@[simp] theorem State.modCore_steps (c : Nat) (f : Core → Core) : (s.modCore c f).steps = s.steps := rfl
@[simp] theorem State.modCore_progs (c : Nat) (f : Core → Core) : (s.modCore c f).progs = s.progs := rfl
@[simp] theorem State.modCore_cal (c : Nat) (f : Core → Core) : (s.modCore c f).cal = s.cal := rfl
@[simp] theorem State.modCore_safe (c : Nat) (f : Core → Core) : (s.modCore c f).safe = s.safe := rfl
@[simp] theorem State.modCore_rst (c : Nat) (f : Core → Core) : (s.modCore c f).rst = s.rst := rfl
@[simp] theorem State.modCore_engines (c : Nat) (f : Core → Core) : (s.modCore c f).engines = s.engines := rfl
@[simp] theorem State.modCore_outs (c : Nat) (f : Core → Core) : (s.modCore c f).outs = s.outs := rfl
@[simp] theorem State.modCore_published (c : Nat) (f : Core → Core) : (s.modCore c f).published = s.published := rfl
@[simp] theorem State.modCore_maps (c : Nat) (f : Core → Core) : (s.modCore c f).maps = s.maps := rfl
@[simp] theorem State.modCore_keys (c : Nat) (f : Core → Core) : (s.modCore c f).keys = s.keys := rfl
@[simp] theorem State.modCore_pending (c : Nat) (f : Core → Core) : (s.modCore c f).pending = s.pending := rfl

@[simp] theorem State.setReg_part (a : Nat) (w : Word) : (s.setReg a w).part = s.part := rfl
@[simp] theorem State.setReg_rev (a : Nat) (w : Word) : (s.setReg a w).rev = s.rev := rfl
@[simp] theorem State.setReg_now (a : Nat) (w : Word) : (s.setReg a w).now = s.now := rfl
@[simp] theorem State.setReg_free (a : Nat) (w : Word) : (s.setReg a w).free = s.free := rfl
@[simp] theorem State.setReg_sealed (a : Nat) (w : Word) : (s.setReg a w).sealed = s.sealed := rfl
@[simp] theorem State.setReg_cores (a : Nat) (w : Word) : (s.setReg a w).cores = s.cores := rfl
@[simp] theorem State.setReg_icache (a : Nat) (w : Word) : (s.setReg a w).icache = s.icache := rfl
@[simp] theorem State.setReg_mem (a : Nat) (w : Word) : (s.setReg a w).mem = s.mem := rfl
@[simp] theorem State.setReg_ecc (a : Nat) (w : Word) : (s.setReg a w).ecc = s.ecc := rfl
@[simp] theorem State.setReg_cache (a : Nat) (w : Word) : (s.setReg a w).cache = s.cache := rfl
@[simp] theorem State.setReg_bufs (a : Nat) (w : Word) : (s.setReg a w).bufs = s.bufs := rfl
@[simp] theorem State.setReg_fifos (a : Nat) (w : Word) : (s.setReg a w).fifos = s.fifos := rfl
@[simp] theorem State.setReg_snap (a : Nat) (w : Word) : (s.setReg a w).snap = s.snap := rfl
@[simp] theorem State.setReg_adm (a : Nat) (w : Word) : (s.setReg a w).adm = s.adm := rfl
@[simp] theorem State.setReg_host (a : Nat) (w : Word) : (s.setReg a w).host = s.host := rfl
@[simp] theorem State.setReg_flt (a : Nat) (w : Word) : (s.setReg a w).flt = s.flt := rfl
@[simp] theorem State.setReg_ring (a : Nat) (w : Word) : (s.setReg a w).ring = s.ring := rfl
@[simp] theorem State.setReg_aon (a : Nat) (w : Word) : (s.setReg a w).aon = s.aon := rfl
@[simp] theorem State.setReg_sec (a : Nat) (w : Word) : (s.setReg a w).sec = s.sec := rfl
@[simp] theorem State.setReg_therm (a : Nat) (w : Word) : (s.setReg a w).therm = s.therm := rfl
@[simp] theorem State.setReg_chan (a : Nat) (w : Word) : (s.setReg a w).chan = s.chan := rfl
@[simp] theorem State.setReg_shock (a : Nat) (w : Word) : (s.setReg a w).shock = s.shock := rfl
@[simp] theorem State.setReg_tripped (a : Nat) (w : Word) : (s.setReg a w).tripped = s.tripped := rfl
@[simp] theorem State.setReg_polls (a : Nat) (w : Word) : (s.setReg a w).polls = s.polls := rfl
@[simp] theorem State.setReg_lit (a : Nat) (w : Word) : (s.setReg a w).lit = s.lit := rfl
@[simp] theorem State.setReg_trims (a : Nat) (w : Word) : (s.setReg a w).trims = s.trims := rfl
@[simp] theorem State.setReg_spins (a : Nat) (w : Word) : (s.setReg a w).spins = s.spins := rfl
@[simp] theorem State.setReg_axes (a : Nat) (w : Word) : (s.setReg a w).axes = s.axes := rfl
@[simp] theorem State.setReg_steps (a : Nat) (w : Word) : (s.setReg a w).steps = s.steps := rfl
@[simp] theorem State.setReg_progs (a : Nat) (w : Word) : (s.setReg a w).progs = s.progs := rfl
@[simp] theorem State.setReg_cal (a : Nat) (w : Word) : (s.setReg a w).cal = s.cal := rfl
@[simp] theorem State.setReg_safe (a : Nat) (w : Word) : (s.setReg a w).safe = s.safe := rfl
@[simp] theorem State.setReg_rst (a : Nat) (w : Word) : (s.setReg a w).rst = s.rst := rfl
@[simp] theorem State.setReg_engines (a : Nat) (w : Word) : (s.setReg a w).engines = s.engines := rfl
@[simp] theorem State.setReg_outs (a : Nat) (w : Word) : (s.setReg a w).outs = s.outs := rfl
@[simp] theorem State.setReg_published (a : Nat) (w : Word) : (s.setReg a w).published = s.published := rfl
@[simp] theorem State.setReg_maps (a : Nat) (w : Word) : (s.setReg a w).maps = s.maps := rfl
@[simp] theorem State.setReg_keys (a : Nat) (w : Word) : (s.setReg a w).keys = s.keys := rfl
@[simp] theorem State.setReg_pending (a : Nat) (w : Word) : (s.setReg a w).pending = s.pending := rfl

@[simp] theorem State.setCf_part (d off hi lo x : Nat) : (s.setCf d off hi lo x).part = s.part := s.setReg_part _ _
@[simp] theorem State.setCf_rev (d off hi lo x : Nat) : (s.setCf d off hi lo x).rev = s.rev := s.setReg_rev _ _
@[simp] theorem State.setCf_now (d off hi lo x : Nat) : (s.setCf d off hi lo x).now = s.now := s.setReg_now _ _
@[simp] theorem State.setCf_free (d off hi lo x : Nat) : (s.setCf d off hi lo x).free = s.free := s.setReg_free _ _
@[simp] theorem State.setCf_sealed (d off hi lo x : Nat) : (s.setCf d off hi lo x).sealed = s.sealed := s.setReg_sealed _ _
@[simp] theorem State.setCf_cores (d off hi lo x : Nat) : (s.setCf d off hi lo x).cores = s.cores := s.setReg_cores _ _
@[simp] theorem State.setCf_icache (d off hi lo x : Nat) : (s.setCf d off hi lo x).icache = s.icache := s.setReg_icache _ _
@[simp] theorem State.setCf_mem (d off hi lo x : Nat) : (s.setCf d off hi lo x).mem = s.mem := s.setReg_mem _ _
@[simp] theorem State.setCf_ecc (d off hi lo x : Nat) : (s.setCf d off hi lo x).ecc = s.ecc := s.setReg_ecc _ _
@[simp] theorem State.setCf_cache (d off hi lo x : Nat) : (s.setCf d off hi lo x).cache = s.cache := s.setReg_cache _ _
@[simp] theorem State.setCf_bufs (d off hi lo x : Nat) : (s.setCf d off hi lo x).bufs = s.bufs := s.setReg_bufs _ _
@[simp] theorem State.setCf_fifos (d off hi lo x : Nat) : (s.setCf d off hi lo x).fifos = s.fifos := s.setReg_fifos _ _
@[simp] theorem State.setCf_snap (d off hi lo x : Nat) : (s.setCf d off hi lo x).snap = s.snap := s.setReg_snap _ _
@[simp] theorem State.setCf_adm (d off hi lo x : Nat) : (s.setCf d off hi lo x).adm = s.adm := s.setReg_adm _ _
@[simp] theorem State.setCf_host (d off hi lo x : Nat) : (s.setCf d off hi lo x).host = s.host := s.setReg_host _ _
@[simp] theorem State.setCf_flt (d off hi lo x : Nat) : (s.setCf d off hi lo x).flt = s.flt := s.setReg_flt _ _
@[simp] theorem State.setCf_ring (d off hi lo x : Nat) : (s.setCf d off hi lo x).ring = s.ring := s.setReg_ring _ _
@[simp] theorem State.setCf_aon (d off hi lo x : Nat) : (s.setCf d off hi lo x).aon = s.aon := s.setReg_aon _ _
@[simp] theorem State.setCf_sec (d off hi lo x : Nat) : (s.setCf d off hi lo x).sec = s.sec := s.setReg_sec _ _
@[simp] theorem State.setCf_therm (d off hi lo x : Nat) : (s.setCf d off hi lo x).therm = s.therm := s.setReg_therm _ _
@[simp] theorem State.setCf_chan (d off hi lo x : Nat) : (s.setCf d off hi lo x).chan = s.chan := s.setReg_chan _ _
@[simp] theorem State.setCf_shock (d off hi lo x : Nat) : (s.setCf d off hi lo x).shock = s.shock := s.setReg_shock _ _
@[simp] theorem State.setCf_tripped (d off hi lo x : Nat) : (s.setCf d off hi lo x).tripped = s.tripped := s.setReg_tripped _ _
@[simp] theorem State.setCf_polls (d off hi lo x : Nat) : (s.setCf d off hi lo x).polls = s.polls := s.setReg_polls _ _
@[simp] theorem State.setCf_lit (d off hi lo x : Nat) : (s.setCf d off hi lo x).lit = s.lit := s.setReg_lit _ _
@[simp] theorem State.setCf_trims (d off hi lo x : Nat) : (s.setCf d off hi lo x).trims = s.trims := s.setReg_trims _ _
@[simp] theorem State.setCf_spins (d off hi lo x : Nat) : (s.setCf d off hi lo x).spins = s.spins := s.setReg_spins _ _
@[simp] theorem State.setCf_axes (d off hi lo x : Nat) : (s.setCf d off hi lo x).axes = s.axes := s.setReg_axes _ _
@[simp] theorem State.setCf_steps (d off hi lo x : Nat) : (s.setCf d off hi lo x).steps = s.steps := s.setReg_steps _ _
@[simp] theorem State.setCf_progs (d off hi lo x : Nat) : (s.setCf d off hi lo x).progs = s.progs := s.setReg_progs _ _
@[simp] theorem State.setCf_cal (d off hi lo x : Nat) : (s.setCf d off hi lo x).cal = s.cal := s.setReg_cal _ _
@[simp] theorem State.setCf_safe (d off hi lo x : Nat) : (s.setCf d off hi lo x).safe = s.safe := s.setReg_safe _ _
@[simp] theorem State.setCf_rst (d off hi lo x : Nat) : (s.setCf d off hi lo x).rst = s.rst := s.setReg_rst _ _
@[simp] theorem State.setCf_engines (d off hi lo x : Nat) : (s.setCf d off hi lo x).engines = s.engines := s.setReg_engines _ _
@[simp] theorem State.setCf_outs (d off hi lo x : Nat) : (s.setCf d off hi lo x).outs = s.outs := s.setReg_outs _ _
@[simp] theorem State.setCf_published (d off hi lo x : Nat) : (s.setCf d off hi lo x).published = s.published := s.setReg_published _ _
@[simp] theorem State.setCf_maps (d off hi lo x : Nat) : (s.setCf d off hi lo x).maps = s.maps := s.setReg_maps _ _
@[simp] theorem State.setCf_keys (d off hi lo x : Nat) : (s.setCf d off hi lo x).keys = s.keys := s.setReg_keys _ _
@[simp] theorem State.setCf_pending (d off hi lo x : Nat) : (s.setCf d off hi lo x).pending = s.pending := s.setReg_pending _ _

@[simp] theorem State.setFf_part (d off hi lo x : Nat) : (s.setFf d off hi lo x).part = s.part := s.setReg_part _ _
@[simp] theorem State.setFf_rev (d off hi lo x : Nat) : (s.setFf d off hi lo x).rev = s.rev := s.setReg_rev _ _
@[simp] theorem State.setFf_now (d off hi lo x : Nat) : (s.setFf d off hi lo x).now = s.now := s.setReg_now _ _
@[simp] theorem State.setFf_free (d off hi lo x : Nat) : (s.setFf d off hi lo x).free = s.free := s.setReg_free _ _
@[simp] theorem State.setFf_sealed (d off hi lo x : Nat) : (s.setFf d off hi lo x).sealed = s.sealed := s.setReg_sealed _ _
@[simp] theorem State.setFf_cores (d off hi lo x : Nat) : (s.setFf d off hi lo x).cores = s.cores := s.setReg_cores _ _
@[simp] theorem State.setFf_icache (d off hi lo x : Nat) : (s.setFf d off hi lo x).icache = s.icache := s.setReg_icache _ _
@[simp] theorem State.setFf_mem (d off hi lo x : Nat) : (s.setFf d off hi lo x).mem = s.mem := s.setReg_mem _ _
@[simp] theorem State.setFf_ecc (d off hi lo x : Nat) : (s.setFf d off hi lo x).ecc = s.ecc := s.setReg_ecc _ _
@[simp] theorem State.setFf_cache (d off hi lo x : Nat) : (s.setFf d off hi lo x).cache = s.cache := s.setReg_cache _ _
@[simp] theorem State.setFf_bufs (d off hi lo x : Nat) : (s.setFf d off hi lo x).bufs = s.bufs := s.setReg_bufs _ _
@[simp] theorem State.setFf_fifos (d off hi lo x : Nat) : (s.setFf d off hi lo x).fifos = s.fifos := s.setReg_fifos _ _
@[simp] theorem State.setFf_snap (d off hi lo x : Nat) : (s.setFf d off hi lo x).snap = s.snap := s.setReg_snap _ _
@[simp] theorem State.setFf_adm (d off hi lo x : Nat) : (s.setFf d off hi lo x).adm = s.adm := s.setReg_adm _ _
@[simp] theorem State.setFf_host (d off hi lo x : Nat) : (s.setFf d off hi lo x).host = s.host := s.setReg_host _ _
@[simp] theorem State.setFf_flt (d off hi lo x : Nat) : (s.setFf d off hi lo x).flt = s.flt := s.setReg_flt _ _
@[simp] theorem State.setFf_ring (d off hi lo x : Nat) : (s.setFf d off hi lo x).ring = s.ring := s.setReg_ring _ _
@[simp] theorem State.setFf_aon (d off hi lo x : Nat) : (s.setFf d off hi lo x).aon = s.aon := s.setReg_aon _ _
@[simp] theorem State.setFf_sec (d off hi lo x : Nat) : (s.setFf d off hi lo x).sec = s.sec := s.setReg_sec _ _
@[simp] theorem State.setFf_therm (d off hi lo x : Nat) : (s.setFf d off hi lo x).therm = s.therm := s.setReg_therm _ _
@[simp] theorem State.setFf_chan (d off hi lo x : Nat) : (s.setFf d off hi lo x).chan = s.chan := s.setReg_chan _ _
@[simp] theorem State.setFf_shock (d off hi lo x : Nat) : (s.setFf d off hi lo x).shock = s.shock := s.setReg_shock _ _
@[simp] theorem State.setFf_tripped (d off hi lo x : Nat) : (s.setFf d off hi lo x).tripped = s.tripped := s.setReg_tripped _ _
@[simp] theorem State.setFf_polls (d off hi lo x : Nat) : (s.setFf d off hi lo x).polls = s.polls := s.setReg_polls _ _
@[simp] theorem State.setFf_lit (d off hi lo x : Nat) : (s.setFf d off hi lo x).lit = s.lit := s.setReg_lit _ _
@[simp] theorem State.setFf_trims (d off hi lo x : Nat) : (s.setFf d off hi lo x).trims = s.trims := s.setReg_trims _ _
@[simp] theorem State.setFf_spins (d off hi lo x : Nat) : (s.setFf d off hi lo x).spins = s.spins := s.setReg_spins _ _
@[simp] theorem State.setFf_axes (d off hi lo x : Nat) : (s.setFf d off hi lo x).axes = s.axes := s.setReg_axes _ _
@[simp] theorem State.setFf_steps (d off hi lo x : Nat) : (s.setFf d off hi lo x).steps = s.steps := s.setReg_steps _ _
@[simp] theorem State.setFf_progs (d off hi lo x : Nat) : (s.setFf d off hi lo x).progs = s.progs := s.setReg_progs _ _
@[simp] theorem State.setFf_cal (d off hi lo x : Nat) : (s.setFf d off hi lo x).cal = s.cal := s.setReg_cal _ _
@[simp] theorem State.setFf_safe (d off hi lo x : Nat) : (s.setFf d off hi lo x).safe = s.safe := s.setReg_safe _ _
@[simp] theorem State.setFf_rst (d off hi lo x : Nat) : (s.setFf d off hi lo x).rst = s.rst := s.setReg_rst _ _
@[simp] theorem State.setFf_engines (d off hi lo x : Nat) : (s.setFf d off hi lo x).engines = s.engines := s.setReg_engines _ _
@[simp] theorem State.setFf_outs (d off hi lo x : Nat) : (s.setFf d off hi lo x).outs = s.outs := s.setReg_outs _ _
@[simp] theorem State.setFf_published (d off hi lo x : Nat) : (s.setFf d off hi lo x).published = s.published := s.setReg_published _ _
@[simp] theorem State.setFf_maps (d off hi lo x : Nat) : (s.setFf d off hi lo x).maps = s.maps := s.setReg_maps _ _
@[simp] theorem State.setFf_keys (d off hi lo x : Nat) : (s.setFf d off hi lo x).keys = s.keys := s.setReg_keys _ _
@[simp] theorem State.setFf_pending (d off hi lo x : Nat) : (s.setFf d off hi lo x).pending = s.pending := s.setReg_pending _ _

@[simp] theorem State.count_part (die u n : Nat) : (s.count die u n).part = s.part := rfl
@[simp] theorem State.count_rev (die u n : Nat) : (s.count die u n).rev = s.rev := rfl
@[simp] theorem State.count_now (die u n : Nat) : (s.count die u n).now = s.now := rfl
@[simp] theorem State.count_free (die u n : Nat) : (s.count die u n).free = s.free := rfl
@[simp] theorem State.count_sealed (die u n : Nat) : (s.count die u n).sealed = s.sealed := rfl
@[simp] theorem State.count_cores (die u n : Nat) : (s.count die u n).cores = s.cores := rfl
@[simp] theorem State.count_icache (die u n : Nat) : (s.count die u n).icache = s.icache := rfl
@[simp] theorem State.count_regs (die u n : Nat) : (s.count die u n).regs = s.regs := rfl
@[simp] theorem State.count_mem (die u n : Nat) : (s.count die u n).mem = s.mem := rfl
@[simp] theorem State.count_ecc (die u n : Nat) : (s.count die u n).ecc = s.ecc := rfl
@[simp] theorem State.count_cache (die u n : Nat) : (s.count die u n).cache = s.cache := rfl
@[simp] theorem State.count_bufs (die u n : Nat) : (s.count die u n).bufs = s.bufs := rfl
@[simp] theorem State.count_fifos (die u n : Nat) : (s.count die u n).fifos = s.fifos := rfl
@[simp] theorem State.count_adm (die u n : Nat) : (s.count die u n).adm = s.adm := rfl
@[simp] theorem State.count_host (die u n : Nat) : (s.count die u n).host = s.host := rfl
@[simp] theorem State.count_flt (die u n : Nat) : (s.count die u n).flt = s.flt := rfl
@[simp] theorem State.count_ring (die u n : Nat) : (s.count die u n).ring = s.ring := rfl
@[simp] theorem State.count_aon (die u n : Nat) : (s.count die u n).aon = s.aon := rfl
@[simp] theorem State.count_sec (die u n : Nat) : (s.count die u n).sec = s.sec := rfl
@[simp] theorem State.count_therm (die u n : Nat) : (s.count die u n).therm = s.therm := rfl
@[simp] theorem State.count_chan (die u n : Nat) : (s.count die u n).chan = s.chan := rfl
@[simp] theorem State.count_shock (die u n : Nat) : (s.count die u n).shock = s.shock := rfl
@[simp] theorem State.count_tripped (die u n : Nat) : (s.count die u n).tripped = s.tripped := rfl
@[simp] theorem State.count_polls (die u n : Nat) : (s.count die u n).polls = s.polls := rfl
@[simp] theorem State.count_lit (die u n : Nat) : (s.count die u n).lit = s.lit := rfl
@[simp] theorem State.count_trims (die u n : Nat) : (s.count die u n).trims = s.trims := rfl
@[simp] theorem State.count_spins (die u n : Nat) : (s.count die u n).spins = s.spins := rfl
@[simp] theorem State.count_axes (die u n : Nat) : (s.count die u n).axes = s.axes := rfl
@[simp] theorem State.count_steps (die u n : Nat) : (s.count die u n).steps = s.steps := rfl
@[simp] theorem State.count_progs (die u n : Nat) : (s.count die u n).progs = s.progs := rfl
@[simp] theorem State.count_cal (die u n : Nat) : (s.count die u n).cal = s.cal := rfl
@[simp] theorem State.count_safe (die u n : Nat) : (s.count die u n).safe = s.safe := rfl
@[simp] theorem State.count_rst (die u n : Nat) : (s.count die u n).rst = s.rst := rfl
@[simp] theorem State.count_engines (die u n : Nat) : (s.count die u n).engines = s.engines := rfl
@[simp] theorem State.count_outs (die u n : Nat) : (s.count die u n).outs = s.outs := rfl
@[simp] theorem State.count_published (die u n : Nat) : (s.count die u n).published = s.published := rfl
@[simp] theorem State.count_maps (die u n : Nat) : (s.count die u n).maps = s.maps := rfl
@[simp] theorem State.count_keys (die u n : Nat) : (s.count die u n).keys = s.keys := rfl
@[simp] theorem State.count_pending (die u n : Nat) : (s.count die u n).pending = s.pending := rfl

@[simp] theorem State.setByte_part (a : Nat) (b : Byte) : (s.setByte a b).part = s.part := rfl
@[simp] theorem State.setByte_rev (a : Nat) (b : Byte) : (s.setByte a b).rev = s.rev := rfl
@[simp] theorem State.setByte_now (a : Nat) (b : Byte) : (s.setByte a b).now = s.now := rfl
@[simp] theorem State.setByte_free (a : Nat) (b : Byte) : (s.setByte a b).free = s.free := rfl
@[simp] theorem State.setByte_sealed (a : Nat) (b : Byte) : (s.setByte a b).sealed = s.sealed := rfl
@[simp] theorem State.setByte_cores (a : Nat) (b : Byte) : (s.setByte a b).cores = s.cores := rfl
@[simp] theorem State.setByte_icache (a : Nat) (b : Byte) : (s.setByte a b).icache = s.icache := rfl
@[simp] theorem State.setByte_regs (a : Nat) (b : Byte) : (s.setByte a b).regs = s.regs := rfl
@[simp] theorem State.setByte_ecc (a : Nat) (b : Byte) : (s.setByte a b).ecc = s.ecc := rfl
@[simp] theorem State.setByte_cache (a : Nat) (b : Byte) : (s.setByte a b).cache = s.cache := rfl
@[simp] theorem State.setByte_bufs (a : Nat) (b : Byte) : (s.setByte a b).bufs = s.bufs := rfl
@[simp] theorem State.setByte_fifos (a : Nat) (b : Byte) : (s.setByte a b).fifos = s.fifos := rfl
@[simp] theorem State.setByte_snap (a : Nat) (b : Byte) : (s.setByte a b).snap = s.snap := rfl
@[simp] theorem State.setByte_adm (a : Nat) (b : Byte) : (s.setByte a b).adm = s.adm := rfl
@[simp] theorem State.setByte_host (a : Nat) (b : Byte) : (s.setByte a b).host = s.host := rfl
@[simp] theorem State.setByte_flt (a : Nat) (b : Byte) : (s.setByte a b).flt = s.flt := rfl
@[simp] theorem State.setByte_ring (a : Nat) (b : Byte) : (s.setByte a b).ring = s.ring := rfl
@[simp] theorem State.setByte_aon (a : Nat) (b : Byte) : (s.setByte a b).aon = s.aon := rfl
@[simp] theorem State.setByte_sec (a : Nat) (b : Byte) : (s.setByte a b).sec = s.sec := rfl
@[simp] theorem State.setByte_therm (a : Nat) (b : Byte) : (s.setByte a b).therm = s.therm := rfl
@[simp] theorem State.setByte_chan (a : Nat) (b : Byte) : (s.setByte a b).chan = s.chan := rfl
@[simp] theorem State.setByte_shock (a : Nat) (b : Byte) : (s.setByte a b).shock = s.shock := rfl
@[simp] theorem State.setByte_tripped (a : Nat) (b : Byte) : (s.setByte a b).tripped = s.tripped := rfl
@[simp] theorem State.setByte_polls (a : Nat) (b : Byte) : (s.setByte a b).polls = s.polls := rfl
@[simp] theorem State.setByte_lit (a : Nat) (b : Byte) : (s.setByte a b).lit = s.lit := rfl
@[simp] theorem State.setByte_trims (a : Nat) (b : Byte) : (s.setByte a b).trims = s.trims := rfl
@[simp] theorem State.setByte_spins (a : Nat) (b : Byte) : (s.setByte a b).spins = s.spins := rfl
@[simp] theorem State.setByte_axes (a : Nat) (b : Byte) : (s.setByte a b).axes = s.axes := rfl
@[simp] theorem State.setByte_steps (a : Nat) (b : Byte) : (s.setByte a b).steps = s.steps := rfl
@[simp] theorem State.setByte_progs (a : Nat) (b : Byte) : (s.setByte a b).progs = s.progs := rfl
@[simp] theorem State.setByte_cal (a : Nat) (b : Byte) : (s.setByte a b).cal = s.cal := rfl
@[simp] theorem State.setByte_safe (a : Nat) (b : Byte) : (s.setByte a b).safe = s.safe := rfl
@[simp] theorem State.setByte_rst (a : Nat) (b : Byte) : (s.setByte a b).rst = s.rst := rfl
@[simp] theorem State.setByte_engines (a : Nat) (b : Byte) : (s.setByte a b).engines = s.engines := rfl
@[simp] theorem State.setByte_outs (a : Nat) (b : Byte) : (s.setByte a b).outs = s.outs := rfl
@[simp] theorem State.setByte_published (a : Nat) (b : Byte) : (s.setByte a b).published = s.published := rfl
@[simp] theorem State.setByte_maps (a : Nat) (b : Byte) : (s.setByte a b).maps = s.maps := rfl
@[simp] theorem State.setByte_keys (a : Nat) (b : Byte) : (s.setByte a b).keys = s.keys := rfl
@[simp] theorem State.setByte_pending (a : Nat) (b : Byte) : (s.setByte a b).pending = s.pending := rfl

@[simp] theorem State.setEcc_part (a : Nat) (e : Ecc) : (s.setEcc a e).part = s.part := rfl
@[simp] theorem State.setEcc_rev (a : Nat) (e : Ecc) : (s.setEcc a e).rev = s.rev := rfl
@[simp] theorem State.setEcc_now (a : Nat) (e : Ecc) : (s.setEcc a e).now = s.now := rfl
@[simp] theorem State.setEcc_free (a : Nat) (e : Ecc) : (s.setEcc a e).free = s.free := rfl
@[simp] theorem State.setEcc_sealed (a : Nat) (e : Ecc) : (s.setEcc a e).sealed = s.sealed := rfl
@[simp] theorem State.setEcc_cores (a : Nat) (e : Ecc) : (s.setEcc a e).cores = s.cores := rfl
@[simp] theorem State.setEcc_icache (a : Nat) (e : Ecc) : (s.setEcc a e).icache = s.icache := rfl
@[simp] theorem State.setEcc_regs (a : Nat) (e : Ecc) : (s.setEcc a e).regs = s.regs := rfl
@[simp] theorem State.setEcc_mem (a : Nat) (e : Ecc) : (s.setEcc a e).mem = s.mem := rfl
@[simp] theorem State.setEcc_cache (a : Nat) (e : Ecc) : (s.setEcc a e).cache = s.cache := rfl
@[simp] theorem State.setEcc_bufs (a : Nat) (e : Ecc) : (s.setEcc a e).bufs = s.bufs := rfl
@[simp] theorem State.setEcc_fifos (a : Nat) (e : Ecc) : (s.setEcc a e).fifos = s.fifos := rfl
@[simp] theorem State.setEcc_snap (a : Nat) (e : Ecc) : (s.setEcc a e).snap = s.snap := rfl
@[simp] theorem State.setEcc_adm (a : Nat) (e : Ecc) : (s.setEcc a e).adm = s.adm := rfl
@[simp] theorem State.setEcc_host (a : Nat) (e : Ecc) : (s.setEcc a e).host = s.host := rfl
@[simp] theorem State.setEcc_flt (a : Nat) (e : Ecc) : (s.setEcc a e).flt = s.flt := rfl
@[simp] theorem State.setEcc_ring (a : Nat) (e : Ecc) : (s.setEcc a e).ring = s.ring := rfl
@[simp] theorem State.setEcc_aon (a : Nat) (e : Ecc) : (s.setEcc a e).aon = s.aon := rfl
@[simp] theorem State.setEcc_sec (a : Nat) (e : Ecc) : (s.setEcc a e).sec = s.sec := rfl
@[simp] theorem State.setEcc_therm (a : Nat) (e : Ecc) : (s.setEcc a e).therm = s.therm := rfl
@[simp] theorem State.setEcc_chan (a : Nat) (e : Ecc) : (s.setEcc a e).chan = s.chan := rfl
@[simp] theorem State.setEcc_shock (a : Nat) (e : Ecc) : (s.setEcc a e).shock = s.shock := rfl
@[simp] theorem State.setEcc_tripped (a : Nat) (e : Ecc) : (s.setEcc a e).tripped = s.tripped := rfl
@[simp] theorem State.setEcc_polls (a : Nat) (e : Ecc) : (s.setEcc a e).polls = s.polls := rfl
@[simp] theorem State.setEcc_lit (a : Nat) (e : Ecc) : (s.setEcc a e).lit = s.lit := rfl
@[simp] theorem State.setEcc_trims (a : Nat) (e : Ecc) : (s.setEcc a e).trims = s.trims := rfl
@[simp] theorem State.setEcc_spins (a : Nat) (e : Ecc) : (s.setEcc a e).spins = s.spins := rfl
@[simp] theorem State.setEcc_axes (a : Nat) (e : Ecc) : (s.setEcc a e).axes = s.axes := rfl
@[simp] theorem State.setEcc_steps (a : Nat) (e : Ecc) : (s.setEcc a e).steps = s.steps := rfl
@[simp] theorem State.setEcc_progs (a : Nat) (e : Ecc) : (s.setEcc a e).progs = s.progs := rfl
@[simp] theorem State.setEcc_cal (a : Nat) (e : Ecc) : (s.setEcc a e).cal = s.cal := rfl
@[simp] theorem State.setEcc_safe (a : Nat) (e : Ecc) : (s.setEcc a e).safe = s.safe := rfl
@[simp] theorem State.setEcc_rst (a : Nat) (e : Ecc) : (s.setEcc a e).rst = s.rst := rfl
@[simp] theorem State.setEcc_engines (a : Nat) (e : Ecc) : (s.setEcc a e).engines = s.engines := rfl
@[simp] theorem State.setEcc_outs (a : Nat) (e : Ecc) : (s.setEcc a e).outs = s.outs := rfl
@[simp] theorem State.setEcc_published (a : Nat) (e : Ecc) : (s.setEcc a e).published = s.published := rfl
@[simp] theorem State.setEcc_maps (a : Nat) (e : Ecc) : (s.setEcc a e).maps = s.maps := rfl
@[simp] theorem State.setEcc_keys (a : Nat) (e : Ecc) : (s.setEcc a e).keys = s.keys := rfl
@[simp] theorem State.setEcc_pending (a : Nat) (e : Ecc) : (s.setEcc a e).pending = s.pending := rfl

@[simp] theorem State.setWay_part (d w : Nat) (x : Way) : (s.setWay d w x).part = s.part := rfl
@[simp] theorem State.setWay_rev (d w : Nat) (x : Way) : (s.setWay d w x).rev = s.rev := rfl
@[simp] theorem State.setWay_now (d w : Nat) (x : Way) : (s.setWay d w x).now = s.now := rfl
@[simp] theorem State.setWay_free (d w : Nat) (x : Way) : (s.setWay d w x).free = s.free := rfl
@[simp] theorem State.setWay_sealed (d w : Nat) (x : Way) : (s.setWay d w x).sealed = s.sealed := rfl
@[simp] theorem State.setWay_cores (d w : Nat) (x : Way) : (s.setWay d w x).cores = s.cores := rfl
@[simp] theorem State.setWay_icache (d w : Nat) (x : Way) : (s.setWay d w x).icache = s.icache := rfl
@[simp] theorem State.setWay_regs (d w : Nat) (x : Way) : (s.setWay d w x).regs = s.regs := rfl
@[simp] theorem State.setWay_mem (d w : Nat) (x : Way) : (s.setWay d w x).mem = s.mem := rfl
@[simp] theorem State.setWay_ecc (d w : Nat) (x : Way) : (s.setWay d w x).ecc = s.ecc := rfl
@[simp] theorem State.setWay_bufs (d w : Nat) (x : Way) : (s.setWay d w x).bufs = s.bufs := rfl
@[simp] theorem State.setWay_fifos (d w : Nat) (x : Way) : (s.setWay d w x).fifos = s.fifos := rfl
@[simp] theorem State.setWay_snap (d w : Nat) (x : Way) : (s.setWay d w x).snap = s.snap := rfl
@[simp] theorem State.setWay_adm (d w : Nat) (x : Way) : (s.setWay d w x).adm = s.adm := rfl
@[simp] theorem State.setWay_host (d w : Nat) (x : Way) : (s.setWay d w x).host = s.host := rfl
@[simp] theorem State.setWay_flt (d w : Nat) (x : Way) : (s.setWay d w x).flt = s.flt := rfl
@[simp] theorem State.setWay_ring (d w : Nat) (x : Way) : (s.setWay d w x).ring = s.ring := rfl
@[simp] theorem State.setWay_aon (d w : Nat) (x : Way) : (s.setWay d w x).aon = s.aon := rfl
@[simp] theorem State.setWay_sec (d w : Nat) (x : Way) : (s.setWay d w x).sec = s.sec := rfl
@[simp] theorem State.setWay_therm (d w : Nat) (x : Way) : (s.setWay d w x).therm = s.therm := rfl
@[simp] theorem State.setWay_chan (d w : Nat) (x : Way) : (s.setWay d w x).chan = s.chan := rfl
@[simp] theorem State.setWay_shock (d w : Nat) (x : Way) : (s.setWay d w x).shock = s.shock := rfl
@[simp] theorem State.setWay_tripped (d w : Nat) (x : Way) : (s.setWay d w x).tripped = s.tripped := rfl
@[simp] theorem State.setWay_polls (d w : Nat) (x : Way) : (s.setWay d w x).polls = s.polls := rfl
@[simp] theorem State.setWay_lit (d w : Nat) (x : Way) : (s.setWay d w x).lit = s.lit := rfl
@[simp] theorem State.setWay_trims (d w : Nat) (x : Way) : (s.setWay d w x).trims = s.trims := rfl
@[simp] theorem State.setWay_spins (d w : Nat) (x : Way) : (s.setWay d w x).spins = s.spins := rfl
@[simp] theorem State.setWay_axes (d w : Nat) (x : Way) : (s.setWay d w x).axes = s.axes := rfl
@[simp] theorem State.setWay_steps (d w : Nat) (x : Way) : (s.setWay d w x).steps = s.steps := rfl
@[simp] theorem State.setWay_progs (d w : Nat) (x : Way) : (s.setWay d w x).progs = s.progs := rfl
@[simp] theorem State.setWay_cal (d w : Nat) (x : Way) : (s.setWay d w x).cal = s.cal := rfl
@[simp] theorem State.setWay_safe (d w : Nat) (x : Way) : (s.setWay d w x).safe = s.safe := rfl
@[simp] theorem State.setWay_rst (d w : Nat) (x : Way) : (s.setWay d w x).rst = s.rst := rfl
@[simp] theorem State.setWay_engines (d w : Nat) (x : Way) : (s.setWay d w x).engines = s.engines := rfl
@[simp] theorem State.setWay_outs (d w : Nat) (x : Way) : (s.setWay d w x).outs = s.outs := rfl
@[simp] theorem State.setWay_published (d w : Nat) (x : Way) : (s.setWay d w x).published = s.published := rfl
@[simp] theorem State.setWay_maps (d w : Nat) (x : Way) : (s.setWay d w x).maps = s.maps := rfl
@[simp] theorem State.setWay_keys (d w : Nat) (x : Way) : (s.setWay d w x).keys = s.keys := rfl
@[simp] theorem State.setWay_pending (d w : Nat) (x : Way) : (s.setWay d w x).pending = s.pending := rfl

@[simp] theorem State.setLines_part (ls : List Line) : (s.setLines ls).part = s.part := rfl
@[simp] theorem State.setLines_rev (ls : List Line) : (s.setLines ls).rev = s.rev := rfl
@[simp] theorem State.setLines_now (ls : List Line) : (s.setLines ls).now = s.now := rfl
@[simp] theorem State.setLines_free (ls : List Line) : (s.setLines ls).free = s.free := rfl
@[simp] theorem State.setLines_sealed (ls : List Line) : (s.setLines ls).sealed = s.sealed := rfl
@[simp] theorem State.setLines_cores (ls : List Line) : (s.setLines ls).cores = s.cores := rfl
@[simp] theorem State.setLines_icache (ls : List Line) : (s.setLines ls).icache = s.icache := rfl
@[simp] theorem State.setLines_regs (ls : List Line) : (s.setLines ls).regs = s.regs := rfl
@[simp] theorem State.setLines_mem (ls : List Line) : (s.setLines ls).mem = s.mem := rfl
@[simp] theorem State.setLines_ecc (ls : List Line) : (s.setLines ls).ecc = s.ecc := rfl
@[simp] theorem State.setLines_bufs (ls : List Line) : (s.setLines ls).bufs = s.bufs := rfl
@[simp] theorem State.setLines_fifos (ls : List Line) : (s.setLines ls).fifos = s.fifos := rfl
@[simp] theorem State.setLines_snap (ls : List Line) : (s.setLines ls).snap = s.snap := rfl
@[simp] theorem State.setLines_adm (ls : List Line) : (s.setLines ls).adm = s.adm := rfl
@[simp] theorem State.setLines_host (ls : List Line) : (s.setLines ls).host = s.host := rfl
@[simp] theorem State.setLines_flt (ls : List Line) : (s.setLines ls).flt = s.flt := rfl
@[simp] theorem State.setLines_ring (ls : List Line) : (s.setLines ls).ring = s.ring := rfl
@[simp] theorem State.setLines_aon (ls : List Line) : (s.setLines ls).aon = s.aon := rfl
@[simp] theorem State.setLines_sec (ls : List Line) : (s.setLines ls).sec = s.sec := rfl
@[simp] theorem State.setLines_therm (ls : List Line) : (s.setLines ls).therm = s.therm := rfl
@[simp] theorem State.setLines_chan (ls : List Line) : (s.setLines ls).chan = s.chan := rfl
@[simp] theorem State.setLines_shock (ls : List Line) : (s.setLines ls).shock = s.shock := rfl
@[simp] theorem State.setLines_tripped (ls : List Line) : (s.setLines ls).tripped = s.tripped := rfl
@[simp] theorem State.setLines_polls (ls : List Line) : (s.setLines ls).polls = s.polls := rfl
@[simp] theorem State.setLines_lit (ls : List Line) : (s.setLines ls).lit = s.lit := rfl
@[simp] theorem State.setLines_trims (ls : List Line) : (s.setLines ls).trims = s.trims := rfl
@[simp] theorem State.setLines_spins (ls : List Line) : (s.setLines ls).spins = s.spins := rfl
@[simp] theorem State.setLines_axes (ls : List Line) : (s.setLines ls).axes = s.axes := rfl
@[simp] theorem State.setLines_steps (ls : List Line) : (s.setLines ls).steps = s.steps := rfl
@[simp] theorem State.setLines_progs (ls : List Line) : (s.setLines ls).progs = s.progs := rfl
@[simp] theorem State.setLines_cal (ls : List Line) : (s.setLines ls).cal = s.cal := rfl
@[simp] theorem State.setLines_safe (ls : List Line) : (s.setLines ls).safe = s.safe := rfl
@[simp] theorem State.setLines_rst (ls : List Line) : (s.setLines ls).rst = s.rst := rfl
@[simp] theorem State.setLines_engines (ls : List Line) : (s.setLines ls).engines = s.engines := rfl
@[simp] theorem State.setLines_outs (ls : List Line) : (s.setLines ls).outs = s.outs := rfl
@[simp] theorem State.setLines_published (ls : List Line) : (s.setLines ls).published = s.published := rfl
@[simp] theorem State.setLines_maps (ls : List Line) : (s.setLines ls).maps = s.maps := rfl
@[simp] theorem State.setLines_keys (ls : List Line) : (s.setLines ls).keys = s.keys := rfl
@[simp] theorem State.setLines_pending (ls : List Line) : (s.setLines ls).pending = s.pending := rfl

@[simp] theorem State.modLine_part (a : Nat) (f : Line → Line) : (s.modLine a f).part = s.part := rfl
@[simp] theorem State.modLine_rev (a : Nat) (f : Line → Line) : (s.modLine a f).rev = s.rev := rfl
@[simp] theorem State.modLine_now (a : Nat) (f : Line → Line) : (s.modLine a f).now = s.now := rfl
@[simp] theorem State.modLine_free (a : Nat) (f : Line → Line) : (s.modLine a f).free = s.free := rfl
@[simp] theorem State.modLine_sealed (a : Nat) (f : Line → Line) : (s.modLine a f).sealed = s.sealed := rfl
@[simp] theorem State.modLine_cores (a : Nat) (f : Line → Line) : (s.modLine a f).cores = s.cores := rfl
@[simp] theorem State.modLine_icache (a : Nat) (f : Line → Line) : (s.modLine a f).icache = s.icache := rfl
@[simp] theorem State.modLine_regs (a : Nat) (f : Line → Line) : (s.modLine a f).regs = s.regs := rfl
@[simp] theorem State.modLine_mem (a : Nat) (f : Line → Line) : (s.modLine a f).mem = s.mem := rfl
@[simp] theorem State.modLine_ecc (a : Nat) (f : Line → Line) : (s.modLine a f).ecc = s.ecc := rfl
@[simp] theorem State.modLine_bufs (a : Nat) (f : Line → Line) : (s.modLine a f).bufs = s.bufs := rfl
@[simp] theorem State.modLine_fifos (a : Nat) (f : Line → Line) : (s.modLine a f).fifos = s.fifos := rfl
@[simp] theorem State.modLine_snap (a : Nat) (f : Line → Line) : (s.modLine a f).snap = s.snap := rfl
@[simp] theorem State.modLine_adm (a : Nat) (f : Line → Line) : (s.modLine a f).adm = s.adm := rfl
@[simp] theorem State.modLine_host (a : Nat) (f : Line → Line) : (s.modLine a f).host = s.host := rfl
@[simp] theorem State.modLine_flt (a : Nat) (f : Line → Line) : (s.modLine a f).flt = s.flt := rfl
@[simp] theorem State.modLine_ring (a : Nat) (f : Line → Line) : (s.modLine a f).ring = s.ring := rfl
@[simp] theorem State.modLine_aon (a : Nat) (f : Line → Line) : (s.modLine a f).aon = s.aon := rfl
@[simp] theorem State.modLine_sec (a : Nat) (f : Line → Line) : (s.modLine a f).sec = s.sec := rfl
@[simp] theorem State.modLine_therm (a : Nat) (f : Line → Line) : (s.modLine a f).therm = s.therm := rfl
@[simp] theorem State.modLine_chan (a : Nat) (f : Line → Line) : (s.modLine a f).chan = s.chan := rfl
@[simp] theorem State.modLine_shock (a : Nat) (f : Line → Line) : (s.modLine a f).shock = s.shock := rfl
@[simp] theorem State.modLine_tripped (a : Nat) (f : Line → Line) : (s.modLine a f).tripped = s.tripped := rfl
@[simp] theorem State.modLine_polls (a : Nat) (f : Line → Line) : (s.modLine a f).polls = s.polls := rfl
@[simp] theorem State.modLine_lit (a : Nat) (f : Line → Line) : (s.modLine a f).lit = s.lit := rfl
@[simp] theorem State.modLine_trims (a : Nat) (f : Line → Line) : (s.modLine a f).trims = s.trims := rfl
@[simp] theorem State.modLine_spins (a : Nat) (f : Line → Line) : (s.modLine a f).spins = s.spins := rfl
@[simp] theorem State.modLine_axes (a : Nat) (f : Line → Line) : (s.modLine a f).axes = s.axes := rfl
@[simp] theorem State.modLine_steps (a : Nat) (f : Line → Line) : (s.modLine a f).steps = s.steps := rfl
@[simp] theorem State.modLine_progs (a : Nat) (f : Line → Line) : (s.modLine a f).progs = s.progs := rfl
@[simp] theorem State.modLine_cal (a : Nat) (f : Line → Line) : (s.modLine a f).cal = s.cal := rfl
@[simp] theorem State.modLine_safe (a : Nat) (f : Line → Line) : (s.modLine a f).safe = s.safe := rfl
@[simp] theorem State.modLine_rst (a : Nat) (f : Line → Line) : (s.modLine a f).rst = s.rst := rfl
@[simp] theorem State.modLine_engines (a : Nat) (f : Line → Line) : (s.modLine a f).engines = s.engines := rfl
@[simp] theorem State.modLine_outs (a : Nat) (f : Line → Line) : (s.modLine a f).outs = s.outs := rfl
@[simp] theorem State.modLine_published (a : Nat) (f : Line → Line) : (s.modLine a f).published = s.published := rfl
@[simp] theorem State.modLine_maps (a : Nat) (f : Line → Line) : (s.modLine a f).maps = s.maps := rfl
@[simp] theorem State.modLine_keys (a : Nat) (f : Line → Line) : (s.modLine a f).keys = s.keys := rfl
@[simp] theorem State.modLine_pending (a : Nat) (f : Line → Line) : (s.modLine a f).pending = s.pending := rfl

@[simp] theorem State.setBuf_part (d i : Nat) (b : Buf) : (s.setBuf d i b).part = s.part := rfl
@[simp] theorem State.setBuf_rev (d i : Nat) (b : Buf) : (s.setBuf d i b).rev = s.rev := rfl
@[simp] theorem State.setBuf_now (d i : Nat) (b : Buf) : (s.setBuf d i b).now = s.now := rfl
@[simp] theorem State.setBuf_free (d i : Nat) (b : Buf) : (s.setBuf d i b).free = s.free := rfl
@[simp] theorem State.setBuf_sealed (d i : Nat) (b : Buf) : (s.setBuf d i b).sealed = s.sealed := rfl
@[simp] theorem State.setBuf_cores (d i : Nat) (b : Buf) : (s.setBuf d i b).cores = s.cores := rfl
@[simp] theorem State.setBuf_icache (d i : Nat) (b : Buf) : (s.setBuf d i b).icache = s.icache := rfl
@[simp] theorem State.setBuf_regs (d i : Nat) (b : Buf) : (s.setBuf d i b).regs = s.regs := rfl
@[simp] theorem State.setBuf_mem (d i : Nat) (b : Buf) : (s.setBuf d i b).mem = s.mem := rfl
@[simp] theorem State.setBuf_ecc (d i : Nat) (b : Buf) : (s.setBuf d i b).ecc = s.ecc := rfl
@[simp] theorem State.setBuf_cache (d i : Nat) (b : Buf) : (s.setBuf d i b).cache = s.cache := rfl
@[simp] theorem State.setBuf_fifos (d i : Nat) (b : Buf) : (s.setBuf d i b).fifos = s.fifos := rfl
@[simp] theorem State.setBuf_snap (d i : Nat) (b : Buf) : (s.setBuf d i b).snap = s.snap := rfl
@[simp] theorem State.setBuf_adm (d i : Nat) (b : Buf) : (s.setBuf d i b).adm = s.adm := rfl
@[simp] theorem State.setBuf_host (d i : Nat) (b : Buf) : (s.setBuf d i b).host = s.host := rfl
@[simp] theorem State.setBuf_flt (d i : Nat) (b : Buf) : (s.setBuf d i b).flt = s.flt := rfl
@[simp] theorem State.setBuf_ring (d i : Nat) (b : Buf) : (s.setBuf d i b).ring = s.ring := rfl
@[simp] theorem State.setBuf_aon (d i : Nat) (b : Buf) : (s.setBuf d i b).aon = s.aon := rfl
@[simp] theorem State.setBuf_sec (d i : Nat) (b : Buf) : (s.setBuf d i b).sec = s.sec := rfl
@[simp] theorem State.setBuf_therm (d i : Nat) (b : Buf) : (s.setBuf d i b).therm = s.therm := rfl
@[simp] theorem State.setBuf_chan (d i : Nat) (b : Buf) : (s.setBuf d i b).chan = s.chan := rfl
@[simp] theorem State.setBuf_shock (d i : Nat) (b : Buf) : (s.setBuf d i b).shock = s.shock := rfl
@[simp] theorem State.setBuf_tripped (d i : Nat) (b : Buf) : (s.setBuf d i b).tripped = s.tripped := rfl
@[simp] theorem State.setBuf_polls (d i : Nat) (b : Buf) : (s.setBuf d i b).polls = s.polls := rfl
@[simp] theorem State.setBuf_lit (d i : Nat) (b : Buf) : (s.setBuf d i b).lit = s.lit := rfl
@[simp] theorem State.setBuf_trims (d i : Nat) (b : Buf) : (s.setBuf d i b).trims = s.trims := rfl
@[simp] theorem State.setBuf_spins (d i : Nat) (b : Buf) : (s.setBuf d i b).spins = s.spins := rfl
@[simp] theorem State.setBuf_axes (d i : Nat) (b : Buf) : (s.setBuf d i b).axes = s.axes := rfl
@[simp] theorem State.setBuf_steps (d i : Nat) (b : Buf) : (s.setBuf d i b).steps = s.steps := rfl
@[simp] theorem State.setBuf_progs (d i : Nat) (b : Buf) : (s.setBuf d i b).progs = s.progs := rfl
@[simp] theorem State.setBuf_cal (d i : Nat) (b : Buf) : (s.setBuf d i b).cal = s.cal := rfl
@[simp] theorem State.setBuf_safe (d i : Nat) (b : Buf) : (s.setBuf d i b).safe = s.safe := rfl
@[simp] theorem State.setBuf_rst (d i : Nat) (b : Buf) : (s.setBuf d i b).rst = s.rst := rfl
@[simp] theorem State.setBuf_engines (d i : Nat) (b : Buf) : (s.setBuf d i b).engines = s.engines := rfl
@[simp] theorem State.setBuf_outs (d i : Nat) (b : Buf) : (s.setBuf d i b).outs = s.outs := rfl
@[simp] theorem State.setBuf_published (d i : Nat) (b : Buf) : (s.setBuf d i b).published = s.published := rfl
@[simp] theorem State.setBuf_maps (d i : Nat) (b : Buf) : (s.setBuf d i b).maps = s.maps := rfl
@[simp] theorem State.setBuf_keys (d i : Nat) (b : Buf) : (s.setBuf d i b).keys = s.keys := rfl
@[simp] theorem State.setBuf_pending (d i : Nat) (b : Buf) : (s.setBuf d i b).pending = s.pending := rfl

@[simp] theorem State.setFifo_part (d n : Nat) (f : Fifo) : (s.setFifo d n f).part = s.part := rfl
@[simp] theorem State.setFifo_rev (d n : Nat) (f : Fifo) : (s.setFifo d n f).rev = s.rev := rfl
@[simp] theorem State.setFifo_now (d n : Nat) (f : Fifo) : (s.setFifo d n f).now = s.now := rfl
@[simp] theorem State.setFifo_free (d n : Nat) (f : Fifo) : (s.setFifo d n f).free = s.free := rfl
@[simp] theorem State.setFifo_sealed (d n : Nat) (f : Fifo) : (s.setFifo d n f).sealed = s.sealed := rfl
@[simp] theorem State.setFifo_cores (d n : Nat) (f : Fifo) : (s.setFifo d n f).cores = s.cores := rfl
@[simp] theorem State.setFifo_icache (d n : Nat) (f : Fifo) : (s.setFifo d n f).icache = s.icache := rfl
@[simp] theorem State.setFifo_regs (d n : Nat) (f : Fifo) : (s.setFifo d n f).regs = s.regs := rfl
@[simp] theorem State.setFifo_mem (d n : Nat) (f : Fifo) : (s.setFifo d n f).mem = s.mem := rfl
@[simp] theorem State.setFifo_ecc (d n : Nat) (f : Fifo) : (s.setFifo d n f).ecc = s.ecc := rfl
@[simp] theorem State.setFifo_cache (d n : Nat) (f : Fifo) : (s.setFifo d n f).cache = s.cache := rfl
@[simp] theorem State.setFifo_bufs (d n : Nat) (f : Fifo) : (s.setFifo d n f).bufs = s.bufs := rfl
@[simp] theorem State.setFifo_snap (d n : Nat) (f : Fifo) : (s.setFifo d n f).snap = s.snap := rfl
@[simp] theorem State.setFifo_adm (d n : Nat) (f : Fifo) : (s.setFifo d n f).adm = s.adm := rfl
@[simp] theorem State.setFifo_host (d n : Nat) (f : Fifo) : (s.setFifo d n f).host = s.host := rfl
@[simp] theorem State.setFifo_flt (d n : Nat) (f : Fifo) : (s.setFifo d n f).flt = s.flt := rfl
@[simp] theorem State.setFifo_ring (d n : Nat) (f : Fifo) : (s.setFifo d n f).ring = s.ring := rfl
@[simp] theorem State.setFifo_aon (d n : Nat) (f : Fifo) : (s.setFifo d n f).aon = s.aon := rfl
@[simp] theorem State.setFifo_sec (d n : Nat) (f : Fifo) : (s.setFifo d n f).sec = s.sec := rfl
@[simp] theorem State.setFifo_therm (d n : Nat) (f : Fifo) : (s.setFifo d n f).therm = s.therm := rfl
@[simp] theorem State.setFifo_chan (d n : Nat) (f : Fifo) : (s.setFifo d n f).chan = s.chan := rfl
@[simp] theorem State.setFifo_shock (d n : Nat) (f : Fifo) : (s.setFifo d n f).shock = s.shock := rfl
@[simp] theorem State.setFifo_tripped (d n : Nat) (f : Fifo) : (s.setFifo d n f).tripped = s.tripped := rfl
@[simp] theorem State.setFifo_polls (d n : Nat) (f : Fifo) : (s.setFifo d n f).polls = s.polls := rfl
@[simp] theorem State.setFifo_lit (d n : Nat) (f : Fifo) : (s.setFifo d n f).lit = s.lit := rfl
@[simp] theorem State.setFifo_trims (d n : Nat) (f : Fifo) : (s.setFifo d n f).trims = s.trims := rfl
@[simp] theorem State.setFifo_spins (d n : Nat) (f : Fifo) : (s.setFifo d n f).spins = s.spins := rfl
@[simp] theorem State.setFifo_axes (d n : Nat) (f : Fifo) : (s.setFifo d n f).axes = s.axes := rfl
@[simp] theorem State.setFifo_steps (d n : Nat) (f : Fifo) : (s.setFifo d n f).steps = s.steps := rfl
@[simp] theorem State.setFifo_progs (d n : Nat) (f : Fifo) : (s.setFifo d n f).progs = s.progs := rfl
@[simp] theorem State.setFifo_cal (d n : Nat) (f : Fifo) : (s.setFifo d n f).cal = s.cal := rfl
@[simp] theorem State.setFifo_safe (d n : Nat) (f : Fifo) : (s.setFifo d n f).safe = s.safe := rfl
@[simp] theorem State.setFifo_rst (d n : Nat) (f : Fifo) : (s.setFifo d n f).rst = s.rst := rfl
@[simp] theorem State.setFifo_engines (d n : Nat) (f : Fifo) : (s.setFifo d n f).engines = s.engines := rfl
@[simp] theorem State.setFifo_outs (d n : Nat) (f : Fifo) : (s.setFifo d n f).outs = s.outs := rfl
@[simp] theorem State.setFifo_published (d n : Nat) (f : Fifo) : (s.setFifo d n f).published = s.published := rfl
@[simp] theorem State.setFifo_maps (d n : Nat) (f : Fifo) : (s.setFifo d n f).maps = s.maps := rfl
@[simp] theorem State.setFifo_keys (d n : Nat) (f : Fifo) : (s.setFifo d n f).keys = s.keys := rfl
@[simp] theorem State.setFifo_pending (d n : Nat) (f : Fifo) : (s.setFifo d n f).pending = s.pending := rfl

@[simp] theorem State.setSlot_part (i : Nat) (x : Slot) : (s.setSlot i x).part = s.part := rfl
@[simp] theorem State.setSlot_rev (i : Nat) (x : Slot) : (s.setSlot i x).rev = s.rev := rfl
@[simp] theorem State.setSlot_now (i : Nat) (x : Slot) : (s.setSlot i x).now = s.now := rfl
@[simp] theorem State.setSlot_free (i : Nat) (x : Slot) : (s.setSlot i x).free = s.free := rfl
@[simp] theorem State.setSlot_sealed (i : Nat) (x : Slot) : (s.setSlot i x).sealed = s.sealed := rfl
@[simp] theorem State.setSlot_cores (i : Nat) (x : Slot) : (s.setSlot i x).cores = s.cores := rfl
@[simp] theorem State.setSlot_icache (i : Nat) (x : Slot) : (s.setSlot i x).icache = s.icache := rfl
@[simp] theorem State.setSlot_regs (i : Nat) (x : Slot) : (s.setSlot i x).regs = s.regs := rfl
@[simp] theorem State.setSlot_mem (i : Nat) (x : Slot) : (s.setSlot i x).mem = s.mem := rfl
@[simp] theorem State.setSlot_ecc (i : Nat) (x : Slot) : (s.setSlot i x).ecc = s.ecc := rfl
@[simp] theorem State.setSlot_cache (i : Nat) (x : Slot) : (s.setSlot i x).cache = s.cache := rfl
@[simp] theorem State.setSlot_bufs (i : Nat) (x : Slot) : (s.setSlot i x).bufs = s.bufs := rfl
@[simp] theorem State.setSlot_fifos (i : Nat) (x : Slot) : (s.setSlot i x).fifos = s.fifos := rfl
@[simp] theorem State.setSlot_snap (i : Nat) (x : Slot) : (s.setSlot i x).snap = s.snap := rfl
@[simp] theorem State.setSlot_host (i : Nat) (x : Slot) : (s.setSlot i x).host = s.host := rfl
@[simp] theorem State.setSlot_flt (i : Nat) (x : Slot) : (s.setSlot i x).flt = s.flt := rfl
@[simp] theorem State.setSlot_ring (i : Nat) (x : Slot) : (s.setSlot i x).ring = s.ring := rfl
@[simp] theorem State.setSlot_aon (i : Nat) (x : Slot) : (s.setSlot i x).aon = s.aon := rfl
@[simp] theorem State.setSlot_sec (i : Nat) (x : Slot) : (s.setSlot i x).sec = s.sec := rfl
@[simp] theorem State.setSlot_therm (i : Nat) (x : Slot) : (s.setSlot i x).therm = s.therm := rfl
@[simp] theorem State.setSlot_chan (i : Nat) (x : Slot) : (s.setSlot i x).chan = s.chan := rfl
@[simp] theorem State.setSlot_shock (i : Nat) (x : Slot) : (s.setSlot i x).shock = s.shock := rfl
@[simp] theorem State.setSlot_tripped (i : Nat) (x : Slot) : (s.setSlot i x).tripped = s.tripped := rfl
@[simp] theorem State.setSlot_polls (i : Nat) (x : Slot) : (s.setSlot i x).polls = s.polls := rfl
@[simp] theorem State.setSlot_lit (i : Nat) (x : Slot) : (s.setSlot i x).lit = s.lit := rfl
@[simp] theorem State.setSlot_trims (i : Nat) (x : Slot) : (s.setSlot i x).trims = s.trims := rfl
@[simp] theorem State.setSlot_spins (i : Nat) (x : Slot) : (s.setSlot i x).spins = s.spins := rfl
@[simp] theorem State.setSlot_axes (i : Nat) (x : Slot) : (s.setSlot i x).axes = s.axes := rfl
@[simp] theorem State.setSlot_steps (i : Nat) (x : Slot) : (s.setSlot i x).steps = s.steps := rfl
@[simp] theorem State.setSlot_progs (i : Nat) (x : Slot) : (s.setSlot i x).progs = s.progs := rfl
@[simp] theorem State.setSlot_cal (i : Nat) (x : Slot) : (s.setSlot i x).cal = s.cal := rfl
@[simp] theorem State.setSlot_safe (i : Nat) (x : Slot) : (s.setSlot i x).safe = s.safe := rfl
@[simp] theorem State.setSlot_rst (i : Nat) (x : Slot) : (s.setSlot i x).rst = s.rst := rfl
@[simp] theorem State.setSlot_engines (i : Nat) (x : Slot) : (s.setSlot i x).engines = s.engines := rfl
@[simp] theorem State.setSlot_outs (i : Nat) (x : Slot) : (s.setSlot i x).outs = s.outs := rfl
@[simp] theorem State.setSlot_published (i : Nat) (x : Slot) : (s.setSlot i x).published = s.published := rfl
@[simp] theorem State.setSlot_maps (i : Nat) (x : Slot) : (s.setSlot i x).maps = s.maps := rfl
@[simp] theorem State.setSlot_keys (i : Nat) (x : Slot) : (s.setSlot i x).keys = s.keys := rfl
@[simp] theorem State.setSlot_pending (i : Nat) (x : Slot) : (s.setSlot i x).pending = s.pending := rfl

@[simp] theorem State.modSlot_part (i : Nat) (f : Slot → Slot) : (s.modSlot i f).part = s.part := rfl
@[simp] theorem State.modSlot_rev (i : Nat) (f : Slot → Slot) : (s.modSlot i f).rev = s.rev := rfl
@[simp] theorem State.modSlot_now (i : Nat) (f : Slot → Slot) : (s.modSlot i f).now = s.now := rfl
@[simp] theorem State.modSlot_free (i : Nat) (f : Slot → Slot) : (s.modSlot i f).free = s.free := rfl
@[simp] theorem State.modSlot_sealed (i : Nat) (f : Slot → Slot) : (s.modSlot i f).sealed = s.sealed := rfl
@[simp] theorem State.modSlot_cores (i : Nat) (f : Slot → Slot) : (s.modSlot i f).cores = s.cores := rfl
@[simp] theorem State.modSlot_icache (i : Nat) (f : Slot → Slot) : (s.modSlot i f).icache = s.icache := rfl
@[simp] theorem State.modSlot_regs (i : Nat) (f : Slot → Slot) : (s.modSlot i f).regs = s.regs := rfl
@[simp] theorem State.modSlot_mem (i : Nat) (f : Slot → Slot) : (s.modSlot i f).mem = s.mem := rfl
@[simp] theorem State.modSlot_ecc (i : Nat) (f : Slot → Slot) : (s.modSlot i f).ecc = s.ecc := rfl
@[simp] theorem State.modSlot_cache (i : Nat) (f : Slot → Slot) : (s.modSlot i f).cache = s.cache := rfl
@[simp] theorem State.modSlot_bufs (i : Nat) (f : Slot → Slot) : (s.modSlot i f).bufs = s.bufs := rfl
@[simp] theorem State.modSlot_fifos (i : Nat) (f : Slot → Slot) : (s.modSlot i f).fifos = s.fifos := rfl
@[simp] theorem State.modSlot_snap (i : Nat) (f : Slot → Slot) : (s.modSlot i f).snap = s.snap := rfl
@[simp] theorem State.modSlot_host (i : Nat) (f : Slot → Slot) : (s.modSlot i f).host = s.host := rfl
@[simp] theorem State.modSlot_flt (i : Nat) (f : Slot → Slot) : (s.modSlot i f).flt = s.flt := rfl
@[simp] theorem State.modSlot_ring (i : Nat) (f : Slot → Slot) : (s.modSlot i f).ring = s.ring := rfl
@[simp] theorem State.modSlot_aon (i : Nat) (f : Slot → Slot) : (s.modSlot i f).aon = s.aon := rfl
@[simp] theorem State.modSlot_sec (i : Nat) (f : Slot → Slot) : (s.modSlot i f).sec = s.sec := rfl
@[simp] theorem State.modSlot_therm (i : Nat) (f : Slot → Slot) : (s.modSlot i f).therm = s.therm := rfl
@[simp] theorem State.modSlot_chan (i : Nat) (f : Slot → Slot) : (s.modSlot i f).chan = s.chan := rfl
@[simp] theorem State.modSlot_shock (i : Nat) (f : Slot → Slot) : (s.modSlot i f).shock = s.shock := rfl
@[simp] theorem State.modSlot_tripped (i : Nat) (f : Slot → Slot) : (s.modSlot i f).tripped = s.tripped := rfl
@[simp] theorem State.modSlot_polls (i : Nat) (f : Slot → Slot) : (s.modSlot i f).polls = s.polls := rfl
@[simp] theorem State.modSlot_lit (i : Nat) (f : Slot → Slot) : (s.modSlot i f).lit = s.lit := rfl
@[simp] theorem State.modSlot_trims (i : Nat) (f : Slot → Slot) : (s.modSlot i f).trims = s.trims := rfl
@[simp] theorem State.modSlot_spins (i : Nat) (f : Slot → Slot) : (s.modSlot i f).spins = s.spins := rfl
@[simp] theorem State.modSlot_axes (i : Nat) (f : Slot → Slot) : (s.modSlot i f).axes = s.axes := rfl
@[simp] theorem State.modSlot_steps (i : Nat) (f : Slot → Slot) : (s.modSlot i f).steps = s.steps := rfl
@[simp] theorem State.modSlot_progs (i : Nat) (f : Slot → Slot) : (s.modSlot i f).progs = s.progs := rfl
@[simp] theorem State.modSlot_cal (i : Nat) (f : Slot → Slot) : (s.modSlot i f).cal = s.cal := rfl
@[simp] theorem State.modSlot_safe (i : Nat) (f : Slot → Slot) : (s.modSlot i f).safe = s.safe := rfl
@[simp] theorem State.modSlot_rst (i : Nat) (f : Slot → Slot) : (s.modSlot i f).rst = s.rst := rfl
@[simp] theorem State.modSlot_engines (i : Nat) (f : Slot → Slot) : (s.modSlot i f).engines = s.engines := rfl
@[simp] theorem State.modSlot_outs (i : Nat) (f : Slot → Slot) : (s.modSlot i f).outs = s.outs := rfl
@[simp] theorem State.modSlot_published (i : Nat) (f : Slot → Slot) : (s.modSlot i f).published = s.published := rfl
@[simp] theorem State.modSlot_maps (i : Nat) (f : Slot → Slot) : (s.modSlot i f).maps = s.maps := rfl
@[simp] theorem State.modSlot_keys (i : Nat) (f : Slot → Slot) : (s.modSlot i f).keys = s.keys := rfl
@[simp] theorem State.modSlot_pending (i : Nat) (f : Slot → Slot) : (s.modSlot i f).pending = s.pending := rfl

@[simp] theorem State.modStat_part (c : Nat) (f : ClassStat → ClassStat) : (s.modStat c f).part = s.part := rfl
@[simp] theorem State.modStat_rev (c : Nat) (f : ClassStat → ClassStat) : (s.modStat c f).rev = s.rev := rfl
@[simp] theorem State.modStat_now (c : Nat) (f : ClassStat → ClassStat) : (s.modStat c f).now = s.now := rfl
@[simp] theorem State.modStat_free (c : Nat) (f : ClassStat → ClassStat) : (s.modStat c f).free = s.free := rfl
@[simp] theorem State.modStat_sealed (c : Nat) (f : ClassStat → ClassStat) : (s.modStat c f).sealed = s.sealed := rfl
@[simp] theorem State.modStat_cores (c : Nat) (f : ClassStat → ClassStat) : (s.modStat c f).cores = s.cores := rfl
@[simp] theorem State.modStat_icache (c : Nat) (f : ClassStat → ClassStat) : (s.modStat c f).icache = s.icache := rfl
@[simp] theorem State.modStat_regs (c : Nat) (f : ClassStat → ClassStat) : (s.modStat c f).regs = s.regs := rfl
@[simp] theorem State.modStat_mem (c : Nat) (f : ClassStat → ClassStat) : (s.modStat c f).mem = s.mem := rfl
@[simp] theorem State.modStat_ecc (c : Nat) (f : ClassStat → ClassStat) : (s.modStat c f).ecc = s.ecc := rfl
@[simp] theorem State.modStat_cache (c : Nat) (f : ClassStat → ClassStat) : (s.modStat c f).cache = s.cache := rfl
@[simp] theorem State.modStat_bufs (c : Nat) (f : ClassStat → ClassStat) : (s.modStat c f).bufs = s.bufs := rfl
@[simp] theorem State.modStat_fifos (c : Nat) (f : ClassStat → ClassStat) : (s.modStat c f).fifos = s.fifos := rfl
@[simp] theorem State.modStat_snap (c : Nat) (f : ClassStat → ClassStat) : (s.modStat c f).snap = s.snap := rfl
@[simp] theorem State.modStat_host (c : Nat) (f : ClassStat → ClassStat) : (s.modStat c f).host = s.host := rfl
@[simp] theorem State.modStat_flt (c : Nat) (f : ClassStat → ClassStat) : (s.modStat c f).flt = s.flt := rfl
@[simp] theorem State.modStat_ring (c : Nat) (f : ClassStat → ClassStat) : (s.modStat c f).ring = s.ring := rfl
@[simp] theorem State.modStat_aon (c : Nat) (f : ClassStat → ClassStat) : (s.modStat c f).aon = s.aon := rfl
@[simp] theorem State.modStat_sec (c : Nat) (f : ClassStat → ClassStat) : (s.modStat c f).sec = s.sec := rfl
@[simp] theorem State.modStat_therm (c : Nat) (f : ClassStat → ClassStat) : (s.modStat c f).therm = s.therm := rfl
@[simp] theorem State.modStat_chan (c : Nat) (f : ClassStat → ClassStat) : (s.modStat c f).chan = s.chan := rfl
@[simp] theorem State.modStat_shock (c : Nat) (f : ClassStat → ClassStat) : (s.modStat c f).shock = s.shock := rfl
@[simp] theorem State.modStat_tripped (c : Nat) (f : ClassStat → ClassStat) : (s.modStat c f).tripped = s.tripped := rfl
@[simp] theorem State.modStat_polls (c : Nat) (f : ClassStat → ClassStat) : (s.modStat c f).polls = s.polls := rfl
@[simp] theorem State.modStat_lit (c : Nat) (f : ClassStat → ClassStat) : (s.modStat c f).lit = s.lit := rfl
@[simp] theorem State.modStat_trims (c : Nat) (f : ClassStat → ClassStat) : (s.modStat c f).trims = s.trims := rfl
@[simp] theorem State.modStat_spins (c : Nat) (f : ClassStat → ClassStat) : (s.modStat c f).spins = s.spins := rfl
@[simp] theorem State.modStat_axes (c : Nat) (f : ClassStat → ClassStat) : (s.modStat c f).axes = s.axes := rfl
@[simp] theorem State.modStat_steps (c : Nat) (f : ClassStat → ClassStat) : (s.modStat c f).steps = s.steps := rfl
@[simp] theorem State.modStat_progs (c : Nat) (f : ClassStat → ClassStat) : (s.modStat c f).progs = s.progs := rfl
@[simp] theorem State.modStat_cal (c : Nat) (f : ClassStat → ClassStat) : (s.modStat c f).cal = s.cal := rfl
@[simp] theorem State.modStat_safe (c : Nat) (f : ClassStat → ClassStat) : (s.modStat c f).safe = s.safe := rfl
@[simp] theorem State.modStat_rst (c : Nat) (f : ClassStat → ClassStat) : (s.modStat c f).rst = s.rst := rfl
@[simp] theorem State.modStat_engines (c : Nat) (f : ClassStat → ClassStat) : (s.modStat c f).engines = s.engines := rfl
@[simp] theorem State.modStat_outs (c : Nat) (f : ClassStat → ClassStat) : (s.modStat c f).outs = s.outs := rfl
@[simp] theorem State.modStat_published (c : Nat) (f : ClassStat → ClassStat) : (s.modStat c f).published = s.published := rfl
@[simp] theorem State.modStat_maps (c : Nat) (f : ClassStat → ClassStat) : (s.modStat c f).maps = s.maps := rfl
@[simp] theorem State.modStat_keys (c : Nat) (f : ClassStat → ClassStat) : (s.modStat c f).keys = s.keys := rfl
@[simp] theorem State.modStat_pending (c : Nat) (f : ClassStat → ClassStat) : (s.modStat c f).pending = s.pending := rfl

@[simp] theorem State.setChannel_part (k : Nat) (x : Channel) : (s.setChannel k x).part = s.part := rfl
@[simp] theorem State.setChannel_rev (k : Nat) (x : Channel) : (s.setChannel k x).rev = s.rev := rfl
@[simp] theorem State.setChannel_now (k : Nat) (x : Channel) : (s.setChannel k x).now = s.now := rfl
@[simp] theorem State.setChannel_free (k : Nat) (x : Channel) : (s.setChannel k x).free = s.free := rfl
@[simp] theorem State.setChannel_sealed (k : Nat) (x : Channel) : (s.setChannel k x).sealed = s.sealed := rfl
@[simp] theorem State.setChannel_cores (k : Nat) (x : Channel) : (s.setChannel k x).cores = s.cores := rfl
@[simp] theorem State.setChannel_icache (k : Nat) (x : Channel) : (s.setChannel k x).icache = s.icache := rfl
@[simp] theorem State.setChannel_regs (k : Nat) (x : Channel) : (s.setChannel k x).regs = s.regs := rfl
@[simp] theorem State.setChannel_mem (k : Nat) (x : Channel) : (s.setChannel k x).mem = s.mem := rfl
@[simp] theorem State.setChannel_ecc (k : Nat) (x : Channel) : (s.setChannel k x).ecc = s.ecc := rfl
@[simp] theorem State.setChannel_cache (k : Nat) (x : Channel) : (s.setChannel k x).cache = s.cache := rfl
@[simp] theorem State.setChannel_bufs (k : Nat) (x : Channel) : (s.setChannel k x).bufs = s.bufs := rfl
@[simp] theorem State.setChannel_fifos (k : Nat) (x : Channel) : (s.setChannel k x).fifos = s.fifos := rfl
@[simp] theorem State.setChannel_snap (k : Nat) (x : Channel) : (s.setChannel k x).snap = s.snap := rfl
@[simp] theorem State.setChannel_adm (k : Nat) (x : Channel) : (s.setChannel k x).adm = s.adm := rfl
@[simp] theorem State.setChannel_host (k : Nat) (x : Channel) : (s.setChannel k x).host = s.host := rfl
@[simp] theorem State.setChannel_flt (k : Nat) (x : Channel) : (s.setChannel k x).flt = s.flt := rfl
@[simp] theorem State.setChannel_ring (k : Nat) (x : Channel) : (s.setChannel k x).ring = s.ring := rfl
@[simp] theorem State.setChannel_aon (k : Nat) (x : Channel) : (s.setChannel k x).aon = s.aon := rfl
@[simp] theorem State.setChannel_sec (k : Nat) (x : Channel) : (s.setChannel k x).sec = s.sec := rfl
@[simp] theorem State.setChannel_therm (k : Nat) (x : Channel) : (s.setChannel k x).therm = s.therm := rfl
@[simp] theorem State.setChannel_shock (k : Nat) (x : Channel) : (s.setChannel k x).shock = s.shock := rfl
@[simp] theorem State.setChannel_tripped (k : Nat) (x : Channel) : (s.setChannel k x).tripped = s.tripped := rfl
@[simp] theorem State.setChannel_polls (k : Nat) (x : Channel) : (s.setChannel k x).polls = s.polls := rfl
@[simp] theorem State.setChannel_lit (k : Nat) (x : Channel) : (s.setChannel k x).lit = s.lit := rfl
@[simp] theorem State.setChannel_trims (k : Nat) (x : Channel) : (s.setChannel k x).trims = s.trims := rfl
@[simp] theorem State.setChannel_spins (k : Nat) (x : Channel) : (s.setChannel k x).spins = s.spins := rfl
@[simp] theorem State.setChannel_axes (k : Nat) (x : Channel) : (s.setChannel k x).axes = s.axes := rfl
@[simp] theorem State.setChannel_steps (k : Nat) (x : Channel) : (s.setChannel k x).steps = s.steps := rfl
@[simp] theorem State.setChannel_progs (k : Nat) (x : Channel) : (s.setChannel k x).progs = s.progs := rfl
@[simp] theorem State.setChannel_cal (k : Nat) (x : Channel) : (s.setChannel k x).cal = s.cal := rfl
@[simp] theorem State.setChannel_safe (k : Nat) (x : Channel) : (s.setChannel k x).safe = s.safe := rfl
@[simp] theorem State.setChannel_rst (k : Nat) (x : Channel) : (s.setChannel k x).rst = s.rst := rfl
@[simp] theorem State.setChannel_engines (k : Nat) (x : Channel) : (s.setChannel k x).engines = s.engines := rfl
@[simp] theorem State.setChannel_outs (k : Nat) (x : Channel) : (s.setChannel k x).outs = s.outs := rfl
@[simp] theorem State.setChannel_published (k : Nat) (x : Channel) : (s.setChannel k x).published = s.published := rfl
@[simp] theorem State.setChannel_maps (k : Nat) (x : Channel) : (s.setChannel k x).maps = s.maps := rfl
@[simp] theorem State.setChannel_keys (k : Nat) (x : Channel) : (s.setChannel k x).keys = s.keys := rfl
@[simp] theorem State.setChannel_pending (k : Nat) (x : Channel) : (s.setChannel k x).pending = s.pending := rfl

@[simp] theorem State.setQueue_part (k : Nat) (q : List Chop) : (s.setQueue k q).part = s.part := rfl
@[simp] theorem State.setQueue_rev (k : Nat) (q : List Chop) : (s.setQueue k q).rev = s.rev := rfl
@[simp] theorem State.setQueue_now (k : Nat) (q : List Chop) : (s.setQueue k q).now = s.now := rfl
@[simp] theorem State.setQueue_free (k : Nat) (q : List Chop) : (s.setQueue k q).free = s.free := rfl
@[simp] theorem State.setQueue_sealed (k : Nat) (q : List Chop) : (s.setQueue k q).sealed = s.sealed := rfl
@[simp] theorem State.setQueue_cores (k : Nat) (q : List Chop) : (s.setQueue k q).cores = s.cores := rfl
@[simp] theorem State.setQueue_icache (k : Nat) (q : List Chop) : (s.setQueue k q).icache = s.icache := rfl
@[simp] theorem State.setQueue_regs (k : Nat) (q : List Chop) : (s.setQueue k q).regs = s.regs := rfl
@[simp] theorem State.setQueue_mem (k : Nat) (q : List Chop) : (s.setQueue k q).mem = s.mem := rfl
@[simp] theorem State.setQueue_ecc (k : Nat) (q : List Chop) : (s.setQueue k q).ecc = s.ecc := rfl
@[simp] theorem State.setQueue_cache (k : Nat) (q : List Chop) : (s.setQueue k q).cache = s.cache := rfl
@[simp] theorem State.setQueue_bufs (k : Nat) (q : List Chop) : (s.setQueue k q).bufs = s.bufs := rfl
@[simp] theorem State.setQueue_fifos (k : Nat) (q : List Chop) : (s.setQueue k q).fifos = s.fifos := rfl
@[simp] theorem State.setQueue_snap (k : Nat) (q : List Chop) : (s.setQueue k q).snap = s.snap := rfl
@[simp] theorem State.setQueue_adm (k : Nat) (q : List Chop) : (s.setQueue k q).adm = s.adm := rfl
@[simp] theorem State.setQueue_host (k : Nat) (q : List Chop) : (s.setQueue k q).host = s.host := rfl
@[simp] theorem State.setQueue_flt (k : Nat) (q : List Chop) : (s.setQueue k q).flt = s.flt := rfl
@[simp] theorem State.setQueue_ring (k : Nat) (q : List Chop) : (s.setQueue k q).ring = s.ring := rfl
@[simp] theorem State.setQueue_aon (k : Nat) (q : List Chop) : (s.setQueue k q).aon = s.aon := rfl
@[simp] theorem State.setQueue_sec (k : Nat) (q : List Chop) : (s.setQueue k q).sec = s.sec := rfl
@[simp] theorem State.setQueue_therm (k : Nat) (q : List Chop) : (s.setQueue k q).therm = s.therm := rfl
@[simp] theorem State.setQueue_shock (k : Nat) (q : List Chop) : (s.setQueue k q).shock = s.shock := rfl
@[simp] theorem State.setQueue_tripped (k : Nat) (q : List Chop) : (s.setQueue k q).tripped = s.tripped := rfl
@[simp] theorem State.setQueue_polls (k : Nat) (q : List Chop) : (s.setQueue k q).polls = s.polls := rfl
@[simp] theorem State.setQueue_lit (k : Nat) (q : List Chop) : (s.setQueue k q).lit = s.lit := rfl
@[simp] theorem State.setQueue_trims (k : Nat) (q : List Chop) : (s.setQueue k q).trims = s.trims := rfl
@[simp] theorem State.setQueue_spins (k : Nat) (q : List Chop) : (s.setQueue k q).spins = s.spins := rfl
@[simp] theorem State.setQueue_axes (k : Nat) (q : List Chop) : (s.setQueue k q).axes = s.axes := rfl
@[simp] theorem State.setQueue_steps (k : Nat) (q : List Chop) : (s.setQueue k q).steps = s.steps := rfl
@[simp] theorem State.setQueue_progs (k : Nat) (q : List Chop) : (s.setQueue k q).progs = s.progs := rfl
@[simp] theorem State.setQueue_cal (k : Nat) (q : List Chop) : (s.setQueue k q).cal = s.cal := rfl
@[simp] theorem State.setQueue_safe (k : Nat) (q : List Chop) : (s.setQueue k q).safe = s.safe := rfl
@[simp] theorem State.setQueue_rst (k : Nat) (q : List Chop) : (s.setQueue k q).rst = s.rst := rfl
@[simp] theorem State.setQueue_engines (k : Nat) (q : List Chop) : (s.setQueue k q).engines = s.engines := rfl
@[simp] theorem State.setQueue_outs (k : Nat) (q : List Chop) : (s.setQueue k q).outs = s.outs := rfl
@[simp] theorem State.setQueue_published (k : Nat) (q : List Chop) : (s.setQueue k q).published = s.published := rfl
@[simp] theorem State.setQueue_maps (k : Nat) (q : List Chop) : (s.setQueue k q).maps = s.maps := rfl
@[simp] theorem State.setQueue_keys (k : Nat) (q : List Chop) : (s.setQueue k q).keys = s.keys := rfl
@[simp] theorem State.setQueue_pending (k : Nat) (q : List Chop) : (s.setQueue k q).pending = s.pending := rfl

@[simp] theorem State.modHead_part (k h : Nat) (f : Head → Head) : (s.modHead k h f).part = s.part := rfl
@[simp] theorem State.modHead_rev (k h : Nat) (f : Head → Head) : (s.modHead k h f).rev = s.rev := rfl
@[simp] theorem State.modHead_now (k h : Nat) (f : Head → Head) : (s.modHead k h f).now = s.now := rfl
@[simp] theorem State.modHead_free (k h : Nat) (f : Head → Head) : (s.modHead k h f).free = s.free := rfl
@[simp] theorem State.modHead_sealed (k h : Nat) (f : Head → Head) : (s.modHead k h f).sealed = s.sealed := rfl
@[simp] theorem State.modHead_cores (k h : Nat) (f : Head → Head) : (s.modHead k h f).cores = s.cores := rfl
@[simp] theorem State.modHead_icache (k h : Nat) (f : Head → Head) : (s.modHead k h f).icache = s.icache := rfl
@[simp] theorem State.modHead_regs (k h : Nat) (f : Head → Head) : (s.modHead k h f).regs = s.regs := rfl
@[simp] theorem State.modHead_mem (k h : Nat) (f : Head → Head) : (s.modHead k h f).mem = s.mem := rfl
@[simp] theorem State.modHead_ecc (k h : Nat) (f : Head → Head) : (s.modHead k h f).ecc = s.ecc := rfl
@[simp] theorem State.modHead_cache (k h : Nat) (f : Head → Head) : (s.modHead k h f).cache = s.cache := rfl
@[simp] theorem State.modHead_bufs (k h : Nat) (f : Head → Head) : (s.modHead k h f).bufs = s.bufs := rfl
@[simp] theorem State.modHead_fifos (k h : Nat) (f : Head → Head) : (s.modHead k h f).fifos = s.fifos := rfl
@[simp] theorem State.modHead_snap (k h : Nat) (f : Head → Head) : (s.modHead k h f).snap = s.snap := rfl
@[simp] theorem State.modHead_adm (k h : Nat) (f : Head → Head) : (s.modHead k h f).adm = s.adm := rfl
@[simp] theorem State.modHead_host (k h : Nat) (f : Head → Head) : (s.modHead k h f).host = s.host := rfl
@[simp] theorem State.modHead_flt (k h : Nat) (f : Head → Head) : (s.modHead k h f).flt = s.flt := rfl
@[simp] theorem State.modHead_ring (k h : Nat) (f : Head → Head) : (s.modHead k h f).ring = s.ring := rfl
@[simp] theorem State.modHead_aon (k h : Nat) (f : Head → Head) : (s.modHead k h f).aon = s.aon := rfl
@[simp] theorem State.modHead_sec (k h : Nat) (f : Head → Head) : (s.modHead k h f).sec = s.sec := rfl
@[simp] theorem State.modHead_therm (k h : Nat) (f : Head → Head) : (s.modHead k h f).therm = s.therm := rfl
@[simp] theorem State.modHead_shock (k h : Nat) (f : Head → Head) : (s.modHead k h f).shock = s.shock := rfl
@[simp] theorem State.modHead_tripped (k h : Nat) (f : Head → Head) : (s.modHead k h f).tripped = s.tripped := rfl
@[simp] theorem State.modHead_polls (k h : Nat) (f : Head → Head) : (s.modHead k h f).polls = s.polls := rfl
@[simp] theorem State.modHead_lit (k h : Nat) (f : Head → Head) : (s.modHead k h f).lit = s.lit := rfl
@[simp] theorem State.modHead_trims (k h : Nat) (f : Head → Head) : (s.modHead k h f).trims = s.trims := rfl
@[simp] theorem State.modHead_spins (k h : Nat) (f : Head → Head) : (s.modHead k h f).spins = s.spins := rfl
@[simp] theorem State.modHead_axes (k h : Nat) (f : Head → Head) : (s.modHead k h f).axes = s.axes := rfl
@[simp] theorem State.modHead_steps (k h : Nat) (f : Head → Head) : (s.modHead k h f).steps = s.steps := rfl
@[simp] theorem State.modHead_progs (k h : Nat) (f : Head → Head) : (s.modHead k h f).progs = s.progs := rfl
@[simp] theorem State.modHead_cal (k h : Nat) (f : Head → Head) : (s.modHead k h f).cal = s.cal := rfl
@[simp] theorem State.modHead_safe (k h : Nat) (f : Head → Head) : (s.modHead k h f).safe = s.safe := rfl
@[simp] theorem State.modHead_rst (k h : Nat) (f : Head → Head) : (s.modHead k h f).rst = s.rst := rfl
@[simp] theorem State.modHead_engines (k h : Nat) (f : Head → Head) : (s.modHead k h f).engines = s.engines := rfl
@[simp] theorem State.modHead_outs (k h : Nat) (f : Head → Head) : (s.modHead k h f).outs = s.outs := rfl
@[simp] theorem State.modHead_published (k h : Nat) (f : Head → Head) : (s.modHead k h f).published = s.published := rfl
@[simp] theorem State.modHead_maps (k h : Nat) (f : Head → Head) : (s.modHead k h f).maps = s.maps := rfl
@[simp] theorem State.modHead_keys (k h : Nat) (f : Head → Head) : (s.modHead k h f).keys = s.keys := rfl
@[simp] theorem State.modHead_pending (k h : Nat) (f : Head → Head) : (s.modHead k h f).pending = s.pending := rfl

@[simp] theorem State.setSeq_part (k : Nat) (x : SafetySeq) : (s.setSeq k x).part = s.part := rfl
@[simp] theorem State.setSeq_rev (k : Nat) (x : SafetySeq) : (s.setSeq k x).rev = s.rev := rfl
@[simp] theorem State.setSeq_now (k : Nat) (x : SafetySeq) : (s.setSeq k x).now = s.now := rfl
@[simp] theorem State.setSeq_free (k : Nat) (x : SafetySeq) : (s.setSeq k x).free = s.free := rfl
@[simp] theorem State.setSeq_sealed (k : Nat) (x : SafetySeq) : (s.setSeq k x).sealed = s.sealed := rfl
@[simp] theorem State.setSeq_cores (k : Nat) (x : SafetySeq) : (s.setSeq k x).cores = s.cores := rfl
@[simp] theorem State.setSeq_icache (k : Nat) (x : SafetySeq) : (s.setSeq k x).icache = s.icache := rfl
@[simp] theorem State.setSeq_regs (k : Nat) (x : SafetySeq) : (s.setSeq k x).regs = s.regs := rfl
@[simp] theorem State.setSeq_mem (k : Nat) (x : SafetySeq) : (s.setSeq k x).mem = s.mem := rfl
@[simp] theorem State.setSeq_ecc (k : Nat) (x : SafetySeq) : (s.setSeq k x).ecc = s.ecc := rfl
@[simp] theorem State.setSeq_cache (k : Nat) (x : SafetySeq) : (s.setSeq k x).cache = s.cache := rfl
@[simp] theorem State.setSeq_bufs (k : Nat) (x : SafetySeq) : (s.setSeq k x).bufs = s.bufs := rfl
@[simp] theorem State.setSeq_fifos (k : Nat) (x : SafetySeq) : (s.setSeq k x).fifos = s.fifos := rfl
@[simp] theorem State.setSeq_snap (k : Nat) (x : SafetySeq) : (s.setSeq k x).snap = s.snap := rfl
@[simp] theorem State.setSeq_adm (k : Nat) (x : SafetySeq) : (s.setSeq k x).adm = s.adm := rfl
@[simp] theorem State.setSeq_host (k : Nat) (x : SafetySeq) : (s.setSeq k x).host = s.host := rfl
@[simp] theorem State.setSeq_flt (k : Nat) (x : SafetySeq) : (s.setSeq k x).flt = s.flt := rfl
@[simp] theorem State.setSeq_ring (k : Nat) (x : SafetySeq) : (s.setSeq k x).ring = s.ring := rfl
@[simp] theorem State.setSeq_aon (k : Nat) (x : SafetySeq) : (s.setSeq k x).aon = s.aon := rfl
@[simp] theorem State.setSeq_sec (k : Nat) (x : SafetySeq) : (s.setSeq k x).sec = s.sec := rfl
@[simp] theorem State.setSeq_therm (k : Nat) (x : SafetySeq) : (s.setSeq k x).therm = s.therm := rfl
@[simp] theorem State.setSeq_chan (k : Nat) (x : SafetySeq) : (s.setSeq k x).chan = s.chan := rfl
@[simp] theorem State.setSeq_shock (k : Nat) (x : SafetySeq) : (s.setSeq k x).shock = s.shock := rfl
@[simp] theorem State.setSeq_tripped (k : Nat) (x : SafetySeq) : (s.setSeq k x).tripped = s.tripped := rfl
@[simp] theorem State.setSeq_polls (k : Nat) (x : SafetySeq) : (s.setSeq k x).polls = s.polls := rfl
@[simp] theorem State.setSeq_lit (k : Nat) (x : SafetySeq) : (s.setSeq k x).lit = s.lit := rfl
@[simp] theorem State.setSeq_trims (k : Nat) (x : SafetySeq) : (s.setSeq k x).trims = s.trims := rfl
@[simp] theorem State.setSeq_spins (k : Nat) (x : SafetySeq) : (s.setSeq k x).spins = s.spins := rfl
@[simp] theorem State.setSeq_axes (k : Nat) (x : SafetySeq) : (s.setSeq k x).axes = s.axes := rfl
@[simp] theorem State.setSeq_steps (k : Nat) (x : SafetySeq) : (s.setSeq k x).steps = s.steps := rfl
@[simp] theorem State.setSeq_progs (k : Nat) (x : SafetySeq) : (s.setSeq k x).progs = s.progs := rfl
@[simp] theorem State.setSeq_cal (k : Nat) (x : SafetySeq) : (s.setSeq k x).cal = s.cal := rfl
@[simp] theorem State.setSeq_rst (k : Nat) (x : SafetySeq) : (s.setSeq k x).rst = s.rst := rfl
@[simp] theorem State.setSeq_engines (k : Nat) (x : SafetySeq) : (s.setSeq k x).engines = s.engines := rfl
@[simp] theorem State.setSeq_outs (k : Nat) (x : SafetySeq) : (s.setSeq k x).outs = s.outs := rfl
@[simp] theorem State.setSeq_published (k : Nat) (x : SafetySeq) : (s.setSeq k x).published = s.published := rfl
@[simp] theorem State.setSeq_maps (k : Nat) (x : SafetySeq) : (s.setSeq k x).maps = s.maps := rfl
@[simp] theorem State.setSeq_keys (k : Nat) (x : SafetySeq) : (s.setSeq k x).keys = s.keys := rfl
@[simp] theorem State.setSeq_pending (k : Nat) (x : SafetySeq) : (s.setSeq k x).pending = s.pending := rfl

@[simp] theorem State.setEngine_part (k e : Nat) (x : Engine) : (s.setEngine k e x).part = s.part := rfl
@[simp] theorem State.setEngine_rev (k e : Nat) (x : Engine) : (s.setEngine k e x).rev = s.rev := rfl
@[simp] theorem State.setEngine_now (k e : Nat) (x : Engine) : (s.setEngine k e x).now = s.now := rfl
@[simp] theorem State.setEngine_free (k e : Nat) (x : Engine) : (s.setEngine k e x).free = s.free := rfl
@[simp] theorem State.setEngine_sealed (k e : Nat) (x : Engine) : (s.setEngine k e x).sealed = s.sealed := rfl
@[simp] theorem State.setEngine_cores (k e : Nat) (x : Engine) : (s.setEngine k e x).cores = s.cores := rfl
@[simp] theorem State.setEngine_icache (k e : Nat) (x : Engine) : (s.setEngine k e x).icache = s.icache := rfl
@[simp] theorem State.setEngine_regs (k e : Nat) (x : Engine) : (s.setEngine k e x).regs = s.regs := rfl
@[simp] theorem State.setEngine_mem (k e : Nat) (x : Engine) : (s.setEngine k e x).mem = s.mem := rfl
@[simp] theorem State.setEngine_ecc (k e : Nat) (x : Engine) : (s.setEngine k e x).ecc = s.ecc := rfl
@[simp] theorem State.setEngine_cache (k e : Nat) (x : Engine) : (s.setEngine k e x).cache = s.cache := rfl
@[simp] theorem State.setEngine_bufs (k e : Nat) (x : Engine) : (s.setEngine k e x).bufs = s.bufs := rfl
@[simp] theorem State.setEngine_fifos (k e : Nat) (x : Engine) : (s.setEngine k e x).fifos = s.fifos := rfl
@[simp] theorem State.setEngine_snap (k e : Nat) (x : Engine) : (s.setEngine k e x).snap = s.snap := rfl
@[simp] theorem State.setEngine_adm (k e : Nat) (x : Engine) : (s.setEngine k e x).adm = s.adm := rfl
@[simp] theorem State.setEngine_host (k e : Nat) (x : Engine) : (s.setEngine k e x).host = s.host := rfl
@[simp] theorem State.setEngine_flt (k e : Nat) (x : Engine) : (s.setEngine k e x).flt = s.flt := rfl
@[simp] theorem State.setEngine_ring (k e : Nat) (x : Engine) : (s.setEngine k e x).ring = s.ring := rfl
@[simp] theorem State.setEngine_aon (k e : Nat) (x : Engine) : (s.setEngine k e x).aon = s.aon := rfl
@[simp] theorem State.setEngine_sec (k e : Nat) (x : Engine) : (s.setEngine k e x).sec = s.sec := rfl
@[simp] theorem State.setEngine_therm (k e : Nat) (x : Engine) : (s.setEngine k e x).therm = s.therm := rfl
@[simp] theorem State.setEngine_chan (k e : Nat) (x : Engine) : (s.setEngine k e x).chan = s.chan := rfl
@[simp] theorem State.setEngine_shock (k e : Nat) (x : Engine) : (s.setEngine k e x).shock = s.shock := rfl
@[simp] theorem State.setEngine_tripped (k e : Nat) (x : Engine) : (s.setEngine k e x).tripped = s.tripped := rfl
@[simp] theorem State.setEngine_polls (k e : Nat) (x : Engine) : (s.setEngine k e x).polls = s.polls := rfl
@[simp] theorem State.setEngine_lit (k e : Nat) (x : Engine) : (s.setEngine k e x).lit = s.lit := rfl
@[simp] theorem State.setEngine_trims (k e : Nat) (x : Engine) : (s.setEngine k e x).trims = s.trims := rfl
@[simp] theorem State.setEngine_spins (k e : Nat) (x : Engine) : (s.setEngine k e x).spins = s.spins := rfl
@[simp] theorem State.setEngine_axes (k e : Nat) (x : Engine) : (s.setEngine k e x).axes = s.axes := rfl
@[simp] theorem State.setEngine_steps (k e : Nat) (x : Engine) : (s.setEngine k e x).steps = s.steps := rfl
@[simp] theorem State.setEngine_progs (k e : Nat) (x : Engine) : (s.setEngine k e x).progs = s.progs := rfl
@[simp] theorem State.setEngine_cal (k e : Nat) (x : Engine) : (s.setEngine k e x).cal = s.cal := rfl
@[simp] theorem State.setEngine_safe (k e : Nat) (x : Engine) : (s.setEngine k e x).safe = s.safe := rfl
@[simp] theorem State.setEngine_rst (k e : Nat) (x : Engine) : (s.setEngine k e x).rst = s.rst := rfl
@[simp] theorem State.setEngine_outs (k e : Nat) (x : Engine) : (s.setEngine k e x).outs = s.outs := rfl
@[simp] theorem State.setEngine_published (k e : Nat) (x : Engine) : (s.setEngine k e x).published = s.published := rfl
@[simp] theorem State.setEngine_maps (k e : Nat) (x : Engine) : (s.setEngine k e x).maps = s.maps := rfl
@[simp] theorem State.setEngine_keys (k e : Nat) (x : Engine) : (s.setEngine k e x).keys = s.keys := rfl
@[simp] theorem State.setEngine_pending (k e : Nat) (x : Engine) : (s.setEngine k e x).pending = s.pending := rfl

@[simp] theorem State.modEngine_part (k e : Nat) (f : Engine → Engine) : (s.modEngine k e f).part = s.part := rfl
@[simp] theorem State.modEngine_rev (k e : Nat) (f : Engine → Engine) : (s.modEngine k e f).rev = s.rev := rfl
@[simp] theorem State.modEngine_now (k e : Nat) (f : Engine → Engine) : (s.modEngine k e f).now = s.now := rfl
@[simp] theorem State.modEngine_free (k e : Nat) (f : Engine → Engine) : (s.modEngine k e f).free = s.free := rfl
@[simp] theorem State.modEngine_sealed (k e : Nat) (f : Engine → Engine) : (s.modEngine k e f).sealed = s.sealed := rfl
@[simp] theorem State.modEngine_cores (k e : Nat) (f : Engine → Engine) : (s.modEngine k e f).cores = s.cores := rfl
@[simp] theorem State.modEngine_icache (k e : Nat) (f : Engine → Engine) : (s.modEngine k e f).icache = s.icache := rfl
@[simp] theorem State.modEngine_regs (k e : Nat) (f : Engine → Engine) : (s.modEngine k e f).regs = s.regs := rfl
@[simp] theorem State.modEngine_mem (k e : Nat) (f : Engine → Engine) : (s.modEngine k e f).mem = s.mem := rfl
@[simp] theorem State.modEngine_ecc (k e : Nat) (f : Engine → Engine) : (s.modEngine k e f).ecc = s.ecc := rfl
@[simp] theorem State.modEngine_cache (k e : Nat) (f : Engine → Engine) : (s.modEngine k e f).cache = s.cache := rfl
@[simp] theorem State.modEngine_bufs (k e : Nat) (f : Engine → Engine) : (s.modEngine k e f).bufs = s.bufs := rfl
@[simp] theorem State.modEngine_fifos (k e : Nat) (f : Engine → Engine) : (s.modEngine k e f).fifos = s.fifos := rfl
@[simp] theorem State.modEngine_snap (k e : Nat) (f : Engine → Engine) : (s.modEngine k e f).snap = s.snap := rfl
@[simp] theorem State.modEngine_adm (k e : Nat) (f : Engine → Engine) : (s.modEngine k e f).adm = s.adm := rfl
@[simp] theorem State.modEngine_host (k e : Nat) (f : Engine → Engine) : (s.modEngine k e f).host = s.host := rfl
@[simp] theorem State.modEngine_flt (k e : Nat) (f : Engine → Engine) : (s.modEngine k e f).flt = s.flt := rfl
@[simp] theorem State.modEngine_ring (k e : Nat) (f : Engine → Engine) : (s.modEngine k e f).ring = s.ring := rfl
@[simp] theorem State.modEngine_aon (k e : Nat) (f : Engine → Engine) : (s.modEngine k e f).aon = s.aon := rfl
@[simp] theorem State.modEngine_sec (k e : Nat) (f : Engine → Engine) : (s.modEngine k e f).sec = s.sec := rfl
@[simp] theorem State.modEngine_therm (k e : Nat) (f : Engine → Engine) : (s.modEngine k e f).therm = s.therm := rfl
@[simp] theorem State.modEngine_chan (k e : Nat) (f : Engine → Engine) : (s.modEngine k e f).chan = s.chan := rfl
@[simp] theorem State.modEngine_shock (k e : Nat) (f : Engine → Engine) : (s.modEngine k e f).shock = s.shock := rfl
@[simp] theorem State.modEngine_tripped (k e : Nat) (f : Engine → Engine) : (s.modEngine k e f).tripped = s.tripped := rfl
@[simp] theorem State.modEngine_polls (k e : Nat) (f : Engine → Engine) : (s.modEngine k e f).polls = s.polls := rfl
@[simp] theorem State.modEngine_lit (k e : Nat) (f : Engine → Engine) : (s.modEngine k e f).lit = s.lit := rfl
@[simp] theorem State.modEngine_trims (k e : Nat) (f : Engine → Engine) : (s.modEngine k e f).trims = s.trims := rfl
@[simp] theorem State.modEngine_spins (k e : Nat) (f : Engine → Engine) : (s.modEngine k e f).spins = s.spins := rfl
@[simp] theorem State.modEngine_axes (k e : Nat) (f : Engine → Engine) : (s.modEngine k e f).axes = s.axes := rfl
@[simp] theorem State.modEngine_steps (k e : Nat) (f : Engine → Engine) : (s.modEngine k e f).steps = s.steps := rfl
@[simp] theorem State.modEngine_progs (k e : Nat) (f : Engine → Engine) : (s.modEngine k e f).progs = s.progs := rfl
@[simp] theorem State.modEngine_cal (k e : Nat) (f : Engine → Engine) : (s.modEngine k e f).cal = s.cal := rfl
@[simp] theorem State.modEngine_safe (k e : Nat) (f : Engine → Engine) : (s.modEngine k e f).safe = s.safe := rfl
@[simp] theorem State.modEngine_rst (k e : Nat) (f : Engine → Engine) : (s.modEngine k e f).rst = s.rst := rfl
@[simp] theorem State.modEngine_outs (k e : Nat) (f : Engine → Engine) : (s.modEngine k e f).outs = s.outs := rfl
@[simp] theorem State.modEngine_published (k e : Nat) (f : Engine → Engine) : (s.modEngine k e f).published = s.published := rfl
@[simp] theorem State.modEngine_maps (k e : Nat) (f : Engine → Engine) : (s.modEngine k e f).maps = s.maps := rfl
@[simp] theorem State.modEngine_keys (k e : Nat) (f : Engine → Engine) : (s.modEngine k e f).keys = s.keys := rfl
@[simp] theorem State.modEngine_pending (k e : Nat) (f : Engine → Engine) : (s.modEngine k e f).pending = s.pending := rfl

@[simp] theorem State.setOut_part (k ch : Nat) (v : Word32) : (s.setOut k ch v).part = s.part := rfl
@[simp] theorem State.setOut_rev (k ch : Nat) (v : Word32) : (s.setOut k ch v).rev = s.rev := rfl
@[simp] theorem State.setOut_now (k ch : Nat) (v : Word32) : (s.setOut k ch v).now = s.now := rfl
@[simp] theorem State.setOut_free (k ch : Nat) (v : Word32) : (s.setOut k ch v).free = s.free := rfl
@[simp] theorem State.setOut_sealed (k ch : Nat) (v : Word32) : (s.setOut k ch v).sealed = s.sealed := rfl
@[simp] theorem State.setOut_cores (k ch : Nat) (v : Word32) : (s.setOut k ch v).cores = s.cores := rfl
@[simp] theorem State.setOut_icache (k ch : Nat) (v : Word32) : (s.setOut k ch v).icache = s.icache := rfl
@[simp] theorem State.setOut_regs (k ch : Nat) (v : Word32) : (s.setOut k ch v).regs = s.regs := rfl
@[simp] theorem State.setOut_mem (k ch : Nat) (v : Word32) : (s.setOut k ch v).mem = s.mem := rfl
@[simp] theorem State.setOut_ecc (k ch : Nat) (v : Word32) : (s.setOut k ch v).ecc = s.ecc := rfl
@[simp] theorem State.setOut_cache (k ch : Nat) (v : Word32) : (s.setOut k ch v).cache = s.cache := rfl
@[simp] theorem State.setOut_bufs (k ch : Nat) (v : Word32) : (s.setOut k ch v).bufs = s.bufs := rfl
@[simp] theorem State.setOut_fifos (k ch : Nat) (v : Word32) : (s.setOut k ch v).fifos = s.fifos := rfl
@[simp] theorem State.setOut_snap (k ch : Nat) (v : Word32) : (s.setOut k ch v).snap = s.snap := rfl
@[simp] theorem State.setOut_adm (k ch : Nat) (v : Word32) : (s.setOut k ch v).adm = s.adm := rfl
@[simp] theorem State.setOut_host (k ch : Nat) (v : Word32) : (s.setOut k ch v).host = s.host := rfl
@[simp] theorem State.setOut_flt (k ch : Nat) (v : Word32) : (s.setOut k ch v).flt = s.flt := rfl
@[simp] theorem State.setOut_ring (k ch : Nat) (v : Word32) : (s.setOut k ch v).ring = s.ring := rfl
@[simp] theorem State.setOut_aon (k ch : Nat) (v : Word32) : (s.setOut k ch v).aon = s.aon := rfl
@[simp] theorem State.setOut_sec (k ch : Nat) (v : Word32) : (s.setOut k ch v).sec = s.sec := rfl
@[simp] theorem State.setOut_therm (k ch : Nat) (v : Word32) : (s.setOut k ch v).therm = s.therm := rfl
@[simp] theorem State.setOut_chan (k ch : Nat) (v : Word32) : (s.setOut k ch v).chan = s.chan := rfl
@[simp] theorem State.setOut_shock (k ch : Nat) (v : Word32) : (s.setOut k ch v).shock = s.shock := rfl
@[simp] theorem State.setOut_tripped (k ch : Nat) (v : Word32) : (s.setOut k ch v).tripped = s.tripped := rfl
@[simp] theorem State.setOut_polls (k ch : Nat) (v : Word32) : (s.setOut k ch v).polls = s.polls := rfl
@[simp] theorem State.setOut_lit (k ch : Nat) (v : Word32) : (s.setOut k ch v).lit = s.lit := rfl
@[simp] theorem State.setOut_trims (k ch : Nat) (v : Word32) : (s.setOut k ch v).trims = s.trims := rfl
@[simp] theorem State.setOut_spins (k ch : Nat) (v : Word32) : (s.setOut k ch v).spins = s.spins := rfl
@[simp] theorem State.setOut_axes (k ch : Nat) (v : Word32) : (s.setOut k ch v).axes = s.axes := rfl
@[simp] theorem State.setOut_steps (k ch : Nat) (v : Word32) : (s.setOut k ch v).steps = s.steps := rfl
@[simp] theorem State.setOut_progs (k ch : Nat) (v : Word32) : (s.setOut k ch v).progs = s.progs := rfl
@[simp] theorem State.setOut_cal (k ch : Nat) (v : Word32) : (s.setOut k ch v).cal = s.cal := rfl
@[simp] theorem State.setOut_safe (k ch : Nat) (v : Word32) : (s.setOut k ch v).safe = s.safe := rfl
@[simp] theorem State.setOut_rst (k ch : Nat) (v : Word32) : (s.setOut k ch v).rst = s.rst := rfl
@[simp] theorem State.setOut_engines (k ch : Nat) (v : Word32) : (s.setOut k ch v).engines = s.engines := rfl
@[simp] theorem State.setOut_published (k ch : Nat) (v : Word32) : (s.setOut k ch v).published = s.published := rfl
@[simp] theorem State.setOut_maps (k ch : Nat) (v : Word32) : (s.setOut k ch v).maps = s.maps := rfl
@[simp] theorem State.setOut_keys (k ch : Nat) (v : Word32) : (s.setOut k ch v).keys = s.keys := rfl
@[simp] theorem State.setOut_pending (k ch : Nat) (v : Word32) : (s.setOut k ch v).pending = s.pending := rfl

@[simp] theorem State.setAxis_part (k a : Nat) (x : Axis) : (s.setAxis k a x).part = s.part := rfl
@[simp] theorem State.setAxis_rev (k a : Nat) (x : Axis) : (s.setAxis k a x).rev = s.rev := rfl
@[simp] theorem State.setAxis_now (k a : Nat) (x : Axis) : (s.setAxis k a x).now = s.now := rfl
@[simp] theorem State.setAxis_free (k a : Nat) (x : Axis) : (s.setAxis k a x).free = s.free := rfl
@[simp] theorem State.setAxis_sealed (k a : Nat) (x : Axis) : (s.setAxis k a x).sealed = s.sealed := rfl
@[simp] theorem State.setAxis_cores (k a : Nat) (x : Axis) : (s.setAxis k a x).cores = s.cores := rfl
@[simp] theorem State.setAxis_icache (k a : Nat) (x : Axis) : (s.setAxis k a x).icache = s.icache := rfl
@[simp] theorem State.setAxis_regs (k a : Nat) (x : Axis) : (s.setAxis k a x).regs = s.regs := rfl
@[simp] theorem State.setAxis_mem (k a : Nat) (x : Axis) : (s.setAxis k a x).mem = s.mem := rfl
@[simp] theorem State.setAxis_ecc (k a : Nat) (x : Axis) : (s.setAxis k a x).ecc = s.ecc := rfl
@[simp] theorem State.setAxis_cache (k a : Nat) (x : Axis) : (s.setAxis k a x).cache = s.cache := rfl
@[simp] theorem State.setAxis_bufs (k a : Nat) (x : Axis) : (s.setAxis k a x).bufs = s.bufs := rfl
@[simp] theorem State.setAxis_fifos (k a : Nat) (x : Axis) : (s.setAxis k a x).fifos = s.fifos := rfl
@[simp] theorem State.setAxis_snap (k a : Nat) (x : Axis) : (s.setAxis k a x).snap = s.snap := rfl
@[simp] theorem State.setAxis_adm (k a : Nat) (x : Axis) : (s.setAxis k a x).adm = s.adm := rfl
@[simp] theorem State.setAxis_host (k a : Nat) (x : Axis) : (s.setAxis k a x).host = s.host := rfl
@[simp] theorem State.setAxis_flt (k a : Nat) (x : Axis) : (s.setAxis k a x).flt = s.flt := rfl
@[simp] theorem State.setAxis_ring (k a : Nat) (x : Axis) : (s.setAxis k a x).ring = s.ring := rfl
@[simp] theorem State.setAxis_aon (k a : Nat) (x : Axis) : (s.setAxis k a x).aon = s.aon := rfl
@[simp] theorem State.setAxis_sec (k a : Nat) (x : Axis) : (s.setAxis k a x).sec = s.sec := rfl
@[simp] theorem State.setAxis_therm (k a : Nat) (x : Axis) : (s.setAxis k a x).therm = s.therm := rfl
@[simp] theorem State.setAxis_chan (k a : Nat) (x : Axis) : (s.setAxis k a x).chan = s.chan := rfl
@[simp] theorem State.setAxis_shock (k a : Nat) (x : Axis) : (s.setAxis k a x).shock = s.shock := rfl
@[simp] theorem State.setAxis_tripped (k a : Nat) (x : Axis) : (s.setAxis k a x).tripped = s.tripped := rfl
@[simp] theorem State.setAxis_polls (k a : Nat) (x : Axis) : (s.setAxis k a x).polls = s.polls := rfl
@[simp] theorem State.setAxis_lit (k a : Nat) (x : Axis) : (s.setAxis k a x).lit = s.lit := rfl
@[simp] theorem State.setAxis_trims (k a : Nat) (x : Axis) : (s.setAxis k a x).trims = s.trims := rfl
@[simp] theorem State.setAxis_spins (k a : Nat) (x : Axis) : (s.setAxis k a x).spins = s.spins := rfl
@[simp] theorem State.setAxis_steps (k a : Nat) (x : Axis) : (s.setAxis k a x).steps = s.steps := rfl
@[simp] theorem State.setAxis_progs (k a : Nat) (x : Axis) : (s.setAxis k a x).progs = s.progs := rfl
@[simp] theorem State.setAxis_cal (k a : Nat) (x : Axis) : (s.setAxis k a x).cal = s.cal := rfl
@[simp] theorem State.setAxis_safe (k a : Nat) (x : Axis) : (s.setAxis k a x).safe = s.safe := rfl
@[simp] theorem State.setAxis_rst (k a : Nat) (x : Axis) : (s.setAxis k a x).rst = s.rst := rfl
@[simp] theorem State.setAxis_outs (k a : Nat) (x : Axis) : (s.setAxis k a x).outs = s.outs := rfl
@[simp] theorem State.setAxis_published (k a : Nat) (x : Axis) : (s.setAxis k a x).published = s.published := rfl
@[simp] theorem State.setAxis_maps (k a : Nat) (x : Axis) : (s.setAxis k a x).maps = s.maps := rfl
@[simp] theorem State.setAxis_keys (k a : Nat) (x : Axis) : (s.setAxis k a x).keys = s.keys := rfl
@[simp] theorem State.setAxis_pending (k a : Nat) (x : Axis) : (s.setAxis k a x).pending = s.pending := rfl

@[simp] theorem State.setSpin_part (k : Nat) (x : Spin) : (s.setSpin k x).part = s.part := rfl
@[simp] theorem State.setSpin_rev (k : Nat) (x : Spin) : (s.setSpin k x).rev = s.rev := rfl
@[simp] theorem State.setSpin_now (k : Nat) (x : Spin) : (s.setSpin k x).now = s.now := rfl
@[simp] theorem State.setSpin_free (k : Nat) (x : Spin) : (s.setSpin k x).free = s.free := rfl
@[simp] theorem State.setSpin_sealed (k : Nat) (x : Spin) : (s.setSpin k x).sealed = s.sealed := rfl
@[simp] theorem State.setSpin_cores (k : Nat) (x : Spin) : (s.setSpin k x).cores = s.cores := rfl
@[simp] theorem State.setSpin_icache (k : Nat) (x : Spin) : (s.setSpin k x).icache = s.icache := rfl
@[simp] theorem State.setSpin_regs (k : Nat) (x : Spin) : (s.setSpin k x).regs = s.regs := rfl
@[simp] theorem State.setSpin_mem (k : Nat) (x : Spin) : (s.setSpin k x).mem = s.mem := rfl
@[simp] theorem State.setSpin_ecc (k : Nat) (x : Spin) : (s.setSpin k x).ecc = s.ecc := rfl
@[simp] theorem State.setSpin_cache (k : Nat) (x : Spin) : (s.setSpin k x).cache = s.cache := rfl
@[simp] theorem State.setSpin_bufs (k : Nat) (x : Spin) : (s.setSpin k x).bufs = s.bufs := rfl
@[simp] theorem State.setSpin_fifos (k : Nat) (x : Spin) : (s.setSpin k x).fifos = s.fifos := rfl
@[simp] theorem State.setSpin_snap (k : Nat) (x : Spin) : (s.setSpin k x).snap = s.snap := rfl
@[simp] theorem State.setSpin_adm (k : Nat) (x : Spin) : (s.setSpin k x).adm = s.adm := rfl
@[simp] theorem State.setSpin_host (k : Nat) (x : Spin) : (s.setSpin k x).host = s.host := rfl
@[simp] theorem State.setSpin_flt (k : Nat) (x : Spin) : (s.setSpin k x).flt = s.flt := rfl
@[simp] theorem State.setSpin_ring (k : Nat) (x : Spin) : (s.setSpin k x).ring = s.ring := rfl
@[simp] theorem State.setSpin_aon (k : Nat) (x : Spin) : (s.setSpin k x).aon = s.aon := rfl
@[simp] theorem State.setSpin_sec (k : Nat) (x : Spin) : (s.setSpin k x).sec = s.sec := rfl
@[simp] theorem State.setSpin_therm (k : Nat) (x : Spin) : (s.setSpin k x).therm = s.therm := rfl
@[simp] theorem State.setSpin_chan (k : Nat) (x : Spin) : (s.setSpin k x).chan = s.chan := rfl
@[simp] theorem State.setSpin_shock (k : Nat) (x : Spin) : (s.setSpin k x).shock = s.shock := rfl
@[simp] theorem State.setSpin_tripped (k : Nat) (x : Spin) : (s.setSpin k x).tripped = s.tripped := rfl
@[simp] theorem State.setSpin_polls (k : Nat) (x : Spin) : (s.setSpin k x).polls = s.polls := rfl
@[simp] theorem State.setSpin_lit (k : Nat) (x : Spin) : (s.setSpin k x).lit = s.lit := rfl
@[simp] theorem State.setSpin_trims (k : Nat) (x : Spin) : (s.setSpin k x).trims = s.trims := rfl
@[simp] theorem State.setSpin_axes (k : Nat) (x : Spin) : (s.setSpin k x).axes = s.axes := rfl
@[simp] theorem State.setSpin_steps (k : Nat) (x : Spin) : (s.setSpin k x).steps = s.steps := rfl
@[simp] theorem State.setSpin_progs (k : Nat) (x : Spin) : (s.setSpin k x).progs = s.progs := rfl
@[simp] theorem State.setSpin_cal (k : Nat) (x : Spin) : (s.setSpin k x).cal = s.cal := rfl
@[simp] theorem State.setSpin_safe (k : Nat) (x : Spin) : (s.setSpin k x).safe = s.safe := rfl
@[simp] theorem State.setSpin_rst (k : Nat) (x : Spin) : (s.setSpin k x).rst = s.rst := rfl
@[simp] theorem State.setSpin_outs (k : Nat) (x : Spin) : (s.setSpin k x).outs = s.outs := rfl
@[simp] theorem State.setSpin_published (k : Nat) (x : Spin) : (s.setSpin k x).published = s.published := rfl
@[simp] theorem State.setSpin_maps (k : Nat) (x : Spin) : (s.setSpin k x).maps = s.maps := rfl
@[simp] theorem State.setSpin_keys (k : Nat) (x : Spin) : (s.setSpin k x).keys = s.keys := rfl
@[simp] theorem State.setSpin_pending (k : Nat) (x : Spin) : (s.setSpin k x).pending = s.pending := rfl

@[simp] theorem State.setCal_part (k : Nat) (c : Option CalRun) : (s.setCal k c).part = s.part := rfl
@[simp] theorem State.setCal_rev (k : Nat) (c : Option CalRun) : (s.setCal k c).rev = s.rev := rfl
@[simp] theorem State.setCal_now (k : Nat) (c : Option CalRun) : (s.setCal k c).now = s.now := rfl
@[simp] theorem State.setCal_free (k : Nat) (c : Option CalRun) : (s.setCal k c).free = s.free := rfl
@[simp] theorem State.setCal_sealed (k : Nat) (c : Option CalRun) : (s.setCal k c).sealed = s.sealed := rfl
@[simp] theorem State.setCal_cores (k : Nat) (c : Option CalRun) : (s.setCal k c).cores = s.cores := rfl
@[simp] theorem State.setCal_icache (k : Nat) (c : Option CalRun) : (s.setCal k c).icache = s.icache := rfl
@[simp] theorem State.setCal_regs (k : Nat) (c : Option CalRun) : (s.setCal k c).regs = s.regs := rfl
@[simp] theorem State.setCal_mem (k : Nat) (c : Option CalRun) : (s.setCal k c).mem = s.mem := rfl
@[simp] theorem State.setCal_ecc (k : Nat) (c : Option CalRun) : (s.setCal k c).ecc = s.ecc := rfl
@[simp] theorem State.setCal_cache (k : Nat) (c : Option CalRun) : (s.setCal k c).cache = s.cache := rfl
@[simp] theorem State.setCal_bufs (k : Nat) (c : Option CalRun) : (s.setCal k c).bufs = s.bufs := rfl
@[simp] theorem State.setCal_fifos (k : Nat) (c : Option CalRun) : (s.setCal k c).fifos = s.fifos := rfl
@[simp] theorem State.setCal_snap (k : Nat) (c : Option CalRun) : (s.setCal k c).snap = s.snap := rfl
@[simp] theorem State.setCal_adm (k : Nat) (c : Option CalRun) : (s.setCal k c).adm = s.adm := rfl
@[simp] theorem State.setCal_host (k : Nat) (c : Option CalRun) : (s.setCal k c).host = s.host := rfl
@[simp] theorem State.setCal_flt (k : Nat) (c : Option CalRun) : (s.setCal k c).flt = s.flt := rfl
@[simp] theorem State.setCal_ring (k : Nat) (c : Option CalRun) : (s.setCal k c).ring = s.ring := rfl
@[simp] theorem State.setCal_aon (k : Nat) (c : Option CalRun) : (s.setCal k c).aon = s.aon := rfl
@[simp] theorem State.setCal_sec (k : Nat) (c : Option CalRun) : (s.setCal k c).sec = s.sec := rfl
@[simp] theorem State.setCal_therm (k : Nat) (c : Option CalRun) : (s.setCal k c).therm = s.therm := rfl
@[simp] theorem State.setCal_chan (k : Nat) (c : Option CalRun) : (s.setCal k c).chan = s.chan := rfl
@[simp] theorem State.setCal_shock (k : Nat) (c : Option CalRun) : (s.setCal k c).shock = s.shock := rfl
@[simp] theorem State.setCal_tripped (k : Nat) (c : Option CalRun) : (s.setCal k c).tripped = s.tripped := rfl
@[simp] theorem State.setCal_polls (k : Nat) (c : Option CalRun) : (s.setCal k c).polls = s.polls := rfl
@[simp] theorem State.setCal_lit (k : Nat) (c : Option CalRun) : (s.setCal k c).lit = s.lit := rfl
@[simp] theorem State.setCal_trims (k : Nat) (c : Option CalRun) : (s.setCal k c).trims = s.trims := rfl
@[simp] theorem State.setCal_spins (k : Nat) (c : Option CalRun) : (s.setCal k c).spins = s.spins := rfl
@[simp] theorem State.setCal_axes (k : Nat) (c : Option CalRun) : (s.setCal k c).axes = s.axes := rfl
@[simp] theorem State.setCal_steps (k : Nat) (c : Option CalRun) : (s.setCal k c).steps = s.steps := rfl
@[simp] theorem State.setCal_progs (k : Nat) (c : Option CalRun) : (s.setCal k c).progs = s.progs := rfl
@[simp] theorem State.setCal_safe (k : Nat) (c : Option CalRun) : (s.setCal k c).safe = s.safe := rfl
@[simp] theorem State.setCal_rst (k : Nat) (c : Option CalRun) : (s.setCal k c).rst = s.rst := rfl
@[simp] theorem State.setCal_engines (k : Nat) (c : Option CalRun) : (s.setCal k c).engines = s.engines := rfl
@[simp] theorem State.setCal_outs (k : Nat) (c : Option CalRun) : (s.setCal k c).outs = s.outs := rfl
@[simp] theorem State.setCal_published (k : Nat) (c : Option CalRun) : (s.setCal k c).published = s.published := rfl
@[simp] theorem State.setCal_maps (k : Nat) (c : Option CalRun) : (s.setCal k c).maps = s.maps := rfl
@[simp] theorem State.setCal_keys (k : Nat) (c : Option CalRun) : (s.setCal k c).keys = s.keys := rfl
@[simp] theorem State.setCal_pending (k : Nat) (c : Option CalRun) : (s.setCal k c).pending = s.pending := rfl

@[simp] theorem State.setMap_part (k : Nat) (m : MapEng) : (s.setMap k m).part = s.part := rfl
@[simp] theorem State.setMap_rev (k : Nat) (m : MapEng) : (s.setMap k m).rev = s.rev := rfl
@[simp] theorem State.setMap_now (k : Nat) (m : MapEng) : (s.setMap k m).now = s.now := rfl
@[simp] theorem State.setMap_free (k : Nat) (m : MapEng) : (s.setMap k m).free = s.free := rfl
@[simp] theorem State.setMap_sealed (k : Nat) (m : MapEng) : (s.setMap k m).sealed = s.sealed := rfl
@[simp] theorem State.setMap_cores (k : Nat) (m : MapEng) : (s.setMap k m).cores = s.cores := rfl
@[simp] theorem State.setMap_icache (k : Nat) (m : MapEng) : (s.setMap k m).icache = s.icache := rfl
@[simp] theorem State.setMap_regs (k : Nat) (m : MapEng) : (s.setMap k m).regs = s.regs := rfl
@[simp] theorem State.setMap_mem (k : Nat) (m : MapEng) : (s.setMap k m).mem = s.mem := rfl
@[simp] theorem State.setMap_ecc (k : Nat) (m : MapEng) : (s.setMap k m).ecc = s.ecc := rfl
@[simp] theorem State.setMap_cache (k : Nat) (m : MapEng) : (s.setMap k m).cache = s.cache := rfl
@[simp] theorem State.setMap_bufs (k : Nat) (m : MapEng) : (s.setMap k m).bufs = s.bufs := rfl
@[simp] theorem State.setMap_fifos (k : Nat) (m : MapEng) : (s.setMap k m).fifos = s.fifos := rfl
@[simp] theorem State.setMap_snap (k : Nat) (m : MapEng) : (s.setMap k m).snap = s.snap := rfl
@[simp] theorem State.setMap_adm (k : Nat) (m : MapEng) : (s.setMap k m).adm = s.adm := rfl
@[simp] theorem State.setMap_host (k : Nat) (m : MapEng) : (s.setMap k m).host = s.host := rfl
@[simp] theorem State.setMap_flt (k : Nat) (m : MapEng) : (s.setMap k m).flt = s.flt := rfl
@[simp] theorem State.setMap_ring (k : Nat) (m : MapEng) : (s.setMap k m).ring = s.ring := rfl
@[simp] theorem State.setMap_aon (k : Nat) (m : MapEng) : (s.setMap k m).aon = s.aon := rfl
@[simp] theorem State.setMap_sec (k : Nat) (m : MapEng) : (s.setMap k m).sec = s.sec := rfl
@[simp] theorem State.setMap_therm (k : Nat) (m : MapEng) : (s.setMap k m).therm = s.therm := rfl
@[simp] theorem State.setMap_chan (k : Nat) (m : MapEng) : (s.setMap k m).chan = s.chan := rfl
@[simp] theorem State.setMap_shock (k : Nat) (m : MapEng) : (s.setMap k m).shock = s.shock := rfl
@[simp] theorem State.setMap_tripped (k : Nat) (m : MapEng) : (s.setMap k m).tripped = s.tripped := rfl
@[simp] theorem State.setMap_polls (k : Nat) (m : MapEng) : (s.setMap k m).polls = s.polls := rfl
@[simp] theorem State.setMap_lit (k : Nat) (m : MapEng) : (s.setMap k m).lit = s.lit := rfl
@[simp] theorem State.setMap_trims (k : Nat) (m : MapEng) : (s.setMap k m).trims = s.trims := rfl
@[simp] theorem State.setMap_spins (k : Nat) (m : MapEng) : (s.setMap k m).spins = s.spins := rfl
@[simp] theorem State.setMap_axes (k : Nat) (m : MapEng) : (s.setMap k m).axes = s.axes := rfl
@[simp] theorem State.setMap_steps (k : Nat) (m : MapEng) : (s.setMap k m).steps = s.steps := rfl
@[simp] theorem State.setMap_progs (k : Nat) (m : MapEng) : (s.setMap k m).progs = s.progs := rfl
@[simp] theorem State.setMap_cal (k : Nat) (m : MapEng) : (s.setMap k m).cal = s.cal := rfl
@[simp] theorem State.setMap_safe (k : Nat) (m : MapEng) : (s.setMap k m).safe = s.safe := rfl
@[simp] theorem State.setMap_rst (k : Nat) (m : MapEng) : (s.setMap k m).rst = s.rst := rfl
@[simp] theorem State.setMap_engines (k : Nat) (m : MapEng) : (s.setMap k m).engines = s.engines := rfl
@[simp] theorem State.setMap_outs (k : Nat) (m : MapEng) : (s.setMap k m).outs = s.outs := rfl
@[simp] theorem State.setMap_published (k : Nat) (m : MapEng) : (s.setMap k m).published = s.published := rfl
@[simp] theorem State.setMap_keys (k : Nat) (m : MapEng) : (s.setMap k m).keys = s.keys := rfl
@[simp] theorem State.setMap_pending (k : Nat) (m : MapEng) : (s.setMap k m).pending = s.pending := rfl

@[simp] theorem State.setSec_part (x : Secure) : (s.setSec x).part = s.part := rfl
@[simp] theorem State.setSec_rev (x : Secure) : (s.setSec x).rev = s.rev := rfl
@[simp] theorem State.setSec_now (x : Secure) : (s.setSec x).now = s.now := rfl
@[simp] theorem State.setSec_free (x : Secure) : (s.setSec x).free = s.free := rfl
@[simp] theorem State.setSec_sealed (x : Secure) : (s.setSec x).sealed = s.sealed := rfl
@[simp] theorem State.setSec_cores (x : Secure) : (s.setSec x).cores = s.cores := rfl
@[simp] theorem State.setSec_icache (x : Secure) : (s.setSec x).icache = s.icache := rfl
@[simp] theorem State.setSec_regs (x : Secure) : (s.setSec x).regs = s.regs := rfl
@[simp] theorem State.setSec_mem (x : Secure) : (s.setSec x).mem = s.mem := rfl
@[simp] theorem State.setSec_ecc (x : Secure) : (s.setSec x).ecc = s.ecc := rfl
@[simp] theorem State.setSec_cache (x : Secure) : (s.setSec x).cache = s.cache := rfl
@[simp] theorem State.setSec_bufs (x : Secure) : (s.setSec x).bufs = s.bufs := rfl
@[simp] theorem State.setSec_fifos (x : Secure) : (s.setSec x).fifos = s.fifos := rfl
@[simp] theorem State.setSec_snap (x : Secure) : (s.setSec x).snap = s.snap := rfl
@[simp] theorem State.setSec_adm (x : Secure) : (s.setSec x).adm = s.adm := rfl
@[simp] theorem State.setSec_host (x : Secure) : (s.setSec x).host = s.host := rfl
@[simp] theorem State.setSec_flt (x : Secure) : (s.setSec x).flt = s.flt := rfl
@[simp] theorem State.setSec_ring (x : Secure) : (s.setSec x).ring = s.ring := rfl
@[simp] theorem State.setSec_aon (x : Secure) : (s.setSec x).aon = s.aon := rfl
@[simp] theorem State.setSec_therm (x : Secure) : (s.setSec x).therm = s.therm := rfl
@[simp] theorem State.setSec_chan (x : Secure) : (s.setSec x).chan = s.chan := rfl
@[simp] theorem State.setSec_shock (x : Secure) : (s.setSec x).shock = s.shock := rfl
@[simp] theorem State.setSec_tripped (x : Secure) : (s.setSec x).tripped = s.tripped := rfl
@[simp] theorem State.setSec_polls (x : Secure) : (s.setSec x).polls = s.polls := rfl
@[simp] theorem State.setSec_lit (x : Secure) : (s.setSec x).lit = s.lit := rfl
@[simp] theorem State.setSec_trims (x : Secure) : (s.setSec x).trims = s.trims := rfl
@[simp] theorem State.setSec_spins (x : Secure) : (s.setSec x).spins = s.spins := rfl
@[simp] theorem State.setSec_axes (x : Secure) : (s.setSec x).axes = s.axes := rfl
@[simp] theorem State.setSec_steps (x : Secure) : (s.setSec x).steps = s.steps := rfl
@[simp] theorem State.setSec_progs (x : Secure) : (s.setSec x).progs = s.progs := rfl
@[simp] theorem State.setSec_cal (x : Secure) : (s.setSec x).cal = s.cal := rfl
@[simp] theorem State.setSec_safe (x : Secure) : (s.setSec x).safe = s.safe := rfl
@[simp] theorem State.setSec_rst (x : Secure) : (s.setSec x).rst = s.rst := rfl
@[simp] theorem State.setSec_engines (x : Secure) : (s.setSec x).engines = s.engines := rfl
@[simp] theorem State.setSec_outs (x : Secure) : (s.setSec x).outs = s.outs := rfl
@[simp] theorem State.setSec_published (x : Secure) : (s.setSec x).published = s.published := rfl
@[simp] theorem State.setSec_maps (x : Secure) : (s.setSec x).maps = s.maps := rfl
@[simp] theorem State.setSec_keys (x : Secure) : (s.setSec x).keys = s.keys := rfl
@[simp] theorem State.setSec_pending (x : Secure) : (s.setSec x).pending = s.pending := rfl

@[simp] theorem State.dropIcache_part (c : Nat) : (s.dropIcache c).part = s.part := rfl
@[simp] theorem State.dropIcache_rev (c : Nat) : (s.dropIcache c).rev = s.rev := rfl
@[simp] theorem State.dropIcache_now (c : Nat) : (s.dropIcache c).now = s.now := rfl
@[simp] theorem State.dropIcache_free (c : Nat) : (s.dropIcache c).free = s.free := rfl
@[simp] theorem State.dropIcache_sealed (c : Nat) : (s.dropIcache c).sealed = s.sealed := rfl
@[simp] theorem State.dropIcache_cores (c : Nat) : (s.dropIcache c).cores = s.cores := rfl
@[simp] theorem State.dropIcache_regs (c : Nat) : (s.dropIcache c).regs = s.regs := rfl
@[simp] theorem State.dropIcache_mem (c : Nat) : (s.dropIcache c).mem = s.mem := rfl
@[simp] theorem State.dropIcache_ecc (c : Nat) : (s.dropIcache c).ecc = s.ecc := rfl
@[simp] theorem State.dropIcache_cache (c : Nat) : (s.dropIcache c).cache = s.cache := rfl
@[simp] theorem State.dropIcache_bufs (c : Nat) : (s.dropIcache c).bufs = s.bufs := rfl
@[simp] theorem State.dropIcache_fifos (c : Nat) : (s.dropIcache c).fifos = s.fifos := rfl
@[simp] theorem State.dropIcache_snap (c : Nat) : (s.dropIcache c).snap = s.snap := rfl
@[simp] theorem State.dropIcache_adm (c : Nat) : (s.dropIcache c).adm = s.adm := rfl
@[simp] theorem State.dropIcache_host (c : Nat) : (s.dropIcache c).host = s.host := rfl
@[simp] theorem State.dropIcache_flt (c : Nat) : (s.dropIcache c).flt = s.flt := rfl
@[simp] theorem State.dropIcache_ring (c : Nat) : (s.dropIcache c).ring = s.ring := rfl
@[simp] theorem State.dropIcache_aon (c : Nat) : (s.dropIcache c).aon = s.aon := rfl
@[simp] theorem State.dropIcache_sec (c : Nat) : (s.dropIcache c).sec = s.sec := rfl
@[simp] theorem State.dropIcache_therm (c : Nat) : (s.dropIcache c).therm = s.therm := rfl
@[simp] theorem State.dropIcache_chan (c : Nat) : (s.dropIcache c).chan = s.chan := rfl
@[simp] theorem State.dropIcache_shock (c : Nat) : (s.dropIcache c).shock = s.shock := rfl
@[simp] theorem State.dropIcache_tripped (c : Nat) : (s.dropIcache c).tripped = s.tripped := rfl
@[simp] theorem State.dropIcache_polls (c : Nat) : (s.dropIcache c).polls = s.polls := rfl
@[simp] theorem State.dropIcache_lit (c : Nat) : (s.dropIcache c).lit = s.lit := rfl
@[simp] theorem State.dropIcache_trims (c : Nat) : (s.dropIcache c).trims = s.trims := rfl
@[simp] theorem State.dropIcache_spins (c : Nat) : (s.dropIcache c).spins = s.spins := rfl
@[simp] theorem State.dropIcache_axes (c : Nat) : (s.dropIcache c).axes = s.axes := rfl
@[simp] theorem State.dropIcache_steps (c : Nat) : (s.dropIcache c).steps = s.steps := rfl
@[simp] theorem State.dropIcache_progs (c : Nat) : (s.dropIcache c).progs = s.progs := rfl
@[simp] theorem State.dropIcache_cal (c : Nat) : (s.dropIcache c).cal = s.cal := rfl
@[simp] theorem State.dropIcache_safe (c : Nat) : (s.dropIcache c).safe = s.safe := rfl
@[simp] theorem State.dropIcache_rst (c : Nat) : (s.dropIcache c).rst = s.rst := rfl
@[simp] theorem State.dropIcache_engines (c : Nat) : (s.dropIcache c).engines = s.engines := rfl
@[simp] theorem State.dropIcache_outs (c : Nat) : (s.dropIcache c).outs = s.outs := rfl
@[simp] theorem State.dropIcache_published (c : Nat) : (s.dropIcache c).published = s.published := rfl
@[simp] theorem State.dropIcache_maps (c : Nat) : (s.dropIcache c).maps = s.maps := rfl
@[simp] theorem State.dropIcache_keys (c : Nat) : (s.dropIcache c).keys = s.keys := rfl
@[simp] theorem State.dropIcache_pending (c : Nat) : (s.dropIcache c).pending = s.pending := rfl

@[simp] theorem State.setDie_part (d : Nat) (t : Therm) : (s.setDie d t).part = s.part := rfl
@[simp] theorem State.setDie_rev (d : Nat) (t : Therm) : (s.setDie d t).rev = s.rev := rfl
@[simp] theorem State.setDie_now (d : Nat) (t : Therm) : (s.setDie d t).now = s.now := rfl
@[simp] theorem State.setDie_free (d : Nat) (t : Therm) : (s.setDie d t).free = s.free := rfl
@[simp] theorem State.setDie_sealed (d : Nat) (t : Therm) : (s.setDie d t).sealed = s.sealed := rfl
@[simp] theorem State.setDie_cores (d : Nat) (t : Therm) : (s.setDie d t).cores = s.cores := rfl
@[simp] theorem State.setDie_icache (d : Nat) (t : Therm) : (s.setDie d t).icache = s.icache := rfl
@[simp] theorem State.setDie_regs (d : Nat) (t : Therm) : (s.setDie d t).regs = s.regs := rfl
@[simp] theorem State.setDie_mem (d : Nat) (t : Therm) : (s.setDie d t).mem = s.mem := rfl
@[simp] theorem State.setDie_ecc (d : Nat) (t : Therm) : (s.setDie d t).ecc = s.ecc := rfl
@[simp] theorem State.setDie_cache (d : Nat) (t : Therm) : (s.setDie d t).cache = s.cache := rfl
@[simp] theorem State.setDie_bufs (d : Nat) (t : Therm) : (s.setDie d t).bufs = s.bufs := rfl
@[simp] theorem State.setDie_fifos (d : Nat) (t : Therm) : (s.setDie d t).fifos = s.fifos := rfl
@[simp] theorem State.setDie_snap (d : Nat) (t : Therm) : (s.setDie d t).snap = s.snap := rfl
@[simp] theorem State.setDie_adm (d : Nat) (t : Therm) : (s.setDie d t).adm = s.adm := rfl
@[simp] theorem State.setDie_host (d : Nat) (t : Therm) : (s.setDie d t).host = s.host := rfl
@[simp] theorem State.setDie_flt (d : Nat) (t : Therm) : (s.setDie d t).flt = s.flt := rfl
@[simp] theorem State.setDie_ring (d : Nat) (t : Therm) : (s.setDie d t).ring = s.ring := rfl
@[simp] theorem State.setDie_aon (d : Nat) (t : Therm) : (s.setDie d t).aon = s.aon := rfl
@[simp] theorem State.setDie_sec (d : Nat) (t : Therm) : (s.setDie d t).sec = s.sec := rfl
@[simp] theorem State.setDie_chan (d : Nat) (t : Therm) : (s.setDie d t).chan = s.chan := rfl
@[simp] theorem State.setDie_shock (d : Nat) (t : Therm) : (s.setDie d t).shock = s.shock := rfl
@[simp] theorem State.setDie_tripped (d : Nat) (t : Therm) : (s.setDie d t).tripped = s.tripped := rfl
@[simp] theorem State.setDie_polls (d : Nat) (t : Therm) : (s.setDie d t).polls = s.polls := rfl
@[simp] theorem State.setDie_lit (d : Nat) (t : Therm) : (s.setDie d t).lit = s.lit := rfl
@[simp] theorem State.setDie_trims (d : Nat) (t : Therm) : (s.setDie d t).trims = s.trims := rfl
@[simp] theorem State.setDie_spins (d : Nat) (t : Therm) : (s.setDie d t).spins = s.spins := rfl
@[simp] theorem State.setDie_axes (d : Nat) (t : Therm) : (s.setDie d t).axes = s.axes := rfl
@[simp] theorem State.setDie_steps (d : Nat) (t : Therm) : (s.setDie d t).steps = s.steps := rfl
@[simp] theorem State.setDie_progs (d : Nat) (t : Therm) : (s.setDie d t).progs = s.progs := rfl
@[simp] theorem State.setDie_cal (d : Nat) (t : Therm) : (s.setDie d t).cal = s.cal := rfl
@[simp] theorem State.setDie_safe (d : Nat) (t : Therm) : (s.setDie d t).safe = s.safe := rfl
@[simp] theorem State.setDie_rst (d : Nat) (t : Therm) : (s.setDie d t).rst = s.rst := rfl
@[simp] theorem State.setDie_engines (d : Nat) (t : Therm) : (s.setDie d t).engines = s.engines := rfl
@[simp] theorem State.setDie_outs (d : Nat) (t : Therm) : (s.setDie d t).outs = s.outs := rfl
@[simp] theorem State.setDie_published (d : Nat) (t : Therm) : (s.setDie d t).published = s.published := rfl
@[simp] theorem State.setDie_maps (d : Nat) (t : Therm) : (s.setDie d t).maps = s.maps := rfl
@[simp] theorem State.setDie_keys (d : Nat) (t : Therm) : (s.setDie d t).keys = s.keys := rfl
@[simp] theorem State.setDie_pending (d : Nat) (t : Therm) : (s.setDie d t).pending = s.pending := rfl

@[simp] theorem State.setRing_part (r : Ring) : (s.setRing r).part = s.part := rfl
@[simp] theorem State.setRing_rev (r : Ring) : (s.setRing r).rev = s.rev := rfl
@[simp] theorem State.setRing_now (r : Ring) : (s.setRing r).now = s.now := rfl
@[simp] theorem State.setRing_free (r : Ring) : (s.setRing r).free = s.free := rfl
@[simp] theorem State.setRing_sealed (r : Ring) : (s.setRing r).sealed = s.sealed := rfl
@[simp] theorem State.setRing_cores (r : Ring) : (s.setRing r).cores = s.cores := rfl
@[simp] theorem State.setRing_icache (r : Ring) : (s.setRing r).icache = s.icache := rfl
@[simp] theorem State.setRing_regs (r : Ring) : (s.setRing r).regs = s.regs := rfl
@[simp] theorem State.setRing_mem (r : Ring) : (s.setRing r).mem = s.mem := rfl
@[simp] theorem State.setRing_ecc (r : Ring) : (s.setRing r).ecc = s.ecc := rfl
@[simp] theorem State.setRing_cache (r : Ring) : (s.setRing r).cache = s.cache := rfl
@[simp] theorem State.setRing_bufs (r : Ring) : (s.setRing r).bufs = s.bufs := rfl
@[simp] theorem State.setRing_fifos (r : Ring) : (s.setRing r).fifos = s.fifos := rfl
@[simp] theorem State.setRing_snap (r : Ring) : (s.setRing r).snap = s.snap := rfl
@[simp] theorem State.setRing_adm (r : Ring) : (s.setRing r).adm = s.adm := rfl
@[simp] theorem State.setRing_host (r : Ring) : (s.setRing r).host = s.host := rfl
@[simp] theorem State.setRing_flt (r : Ring) : (s.setRing r).flt = s.flt := rfl
@[simp] theorem State.setRing_aon (r : Ring) : (s.setRing r).aon = s.aon := rfl
@[simp] theorem State.setRing_sec (r : Ring) : (s.setRing r).sec = s.sec := rfl
@[simp] theorem State.setRing_therm (r : Ring) : (s.setRing r).therm = s.therm := rfl
@[simp] theorem State.setRing_chan (r : Ring) : (s.setRing r).chan = s.chan := rfl
@[simp] theorem State.setRing_shock (r : Ring) : (s.setRing r).shock = s.shock := rfl
@[simp] theorem State.setRing_tripped (r : Ring) : (s.setRing r).tripped = s.tripped := rfl
@[simp] theorem State.setRing_polls (r : Ring) : (s.setRing r).polls = s.polls := rfl
@[simp] theorem State.setRing_lit (r : Ring) : (s.setRing r).lit = s.lit := rfl
@[simp] theorem State.setRing_trims (r : Ring) : (s.setRing r).trims = s.trims := rfl
@[simp] theorem State.setRing_spins (r : Ring) : (s.setRing r).spins = s.spins := rfl
@[simp] theorem State.setRing_axes (r : Ring) : (s.setRing r).axes = s.axes := rfl
@[simp] theorem State.setRing_steps (r : Ring) : (s.setRing r).steps = s.steps := rfl
@[simp] theorem State.setRing_progs (r : Ring) : (s.setRing r).progs = s.progs := rfl
@[simp] theorem State.setRing_cal (r : Ring) : (s.setRing r).cal = s.cal := rfl
@[simp] theorem State.setRing_safe (r : Ring) : (s.setRing r).safe = s.safe := rfl
@[simp] theorem State.setRing_rst (r : Ring) : (s.setRing r).rst = s.rst := rfl
@[simp] theorem State.setRing_engines (r : Ring) : (s.setRing r).engines = s.engines := rfl
@[simp] theorem State.setRing_outs (r : Ring) : (s.setRing r).outs = s.outs := rfl
@[simp] theorem State.setRing_published (r : Ring) : (s.setRing r).published = s.published := rfl
@[simp] theorem State.setRing_maps (r : Ring) : (s.setRing r).maps = s.maps := rfl
@[simp] theorem State.setRing_keys (r : Ring) : (s.setRing r).keys = s.keys := rfl
@[simp] theorem State.setRing_pending (r : Ring) : (s.setRing r).pending = s.pending := rfl

@[simp] theorem State.setLoan_part (i : Nat) (l : Option Loan) : (s.setLoan i l).part = s.part := rfl
@[simp] theorem State.setLoan_rev (i : Nat) (l : Option Loan) : (s.setLoan i l).rev = s.rev := rfl
@[simp] theorem State.setLoan_now (i : Nat) (l : Option Loan) : (s.setLoan i l).now = s.now := rfl
@[simp] theorem State.setLoan_free (i : Nat) (l : Option Loan) : (s.setLoan i l).free = s.free := rfl
@[simp] theorem State.setLoan_sealed (i : Nat) (l : Option Loan) : (s.setLoan i l).sealed = s.sealed := rfl
@[simp] theorem State.setLoan_cores (i : Nat) (l : Option Loan) : (s.setLoan i l).cores = s.cores := rfl
@[simp] theorem State.setLoan_icache (i : Nat) (l : Option Loan) : (s.setLoan i l).icache = s.icache := rfl
@[simp] theorem State.setLoan_regs (i : Nat) (l : Option Loan) : (s.setLoan i l).regs = s.regs := rfl
@[simp] theorem State.setLoan_mem (i : Nat) (l : Option Loan) : (s.setLoan i l).mem = s.mem := rfl
@[simp] theorem State.setLoan_ecc (i : Nat) (l : Option Loan) : (s.setLoan i l).ecc = s.ecc := rfl
@[simp] theorem State.setLoan_cache (i : Nat) (l : Option Loan) : (s.setLoan i l).cache = s.cache := rfl
@[simp] theorem State.setLoan_bufs (i : Nat) (l : Option Loan) : (s.setLoan i l).bufs = s.bufs := rfl
@[simp] theorem State.setLoan_fifos (i : Nat) (l : Option Loan) : (s.setLoan i l).fifos = s.fifos := rfl
@[simp] theorem State.setLoan_snap (i : Nat) (l : Option Loan) : (s.setLoan i l).snap = s.snap := rfl
@[simp] theorem State.setLoan_adm (i : Nat) (l : Option Loan) : (s.setLoan i l).adm = s.adm := rfl
@[simp] theorem State.setLoan_host (i : Nat) (l : Option Loan) : (s.setLoan i l).host = s.host := rfl
@[simp] theorem State.setLoan_flt (i : Nat) (l : Option Loan) : (s.setLoan i l).flt = s.flt := rfl
@[simp] theorem State.setLoan_aon (i : Nat) (l : Option Loan) : (s.setLoan i l).aon = s.aon := rfl
@[simp] theorem State.setLoan_sec (i : Nat) (l : Option Loan) : (s.setLoan i l).sec = s.sec := rfl
@[simp] theorem State.setLoan_therm (i : Nat) (l : Option Loan) : (s.setLoan i l).therm = s.therm := rfl
@[simp] theorem State.setLoan_chan (i : Nat) (l : Option Loan) : (s.setLoan i l).chan = s.chan := rfl
@[simp] theorem State.setLoan_shock (i : Nat) (l : Option Loan) : (s.setLoan i l).shock = s.shock := rfl
@[simp] theorem State.setLoan_tripped (i : Nat) (l : Option Loan) : (s.setLoan i l).tripped = s.tripped := rfl
@[simp] theorem State.setLoan_polls (i : Nat) (l : Option Loan) : (s.setLoan i l).polls = s.polls := rfl
@[simp] theorem State.setLoan_lit (i : Nat) (l : Option Loan) : (s.setLoan i l).lit = s.lit := rfl
@[simp] theorem State.setLoan_trims (i : Nat) (l : Option Loan) : (s.setLoan i l).trims = s.trims := rfl
@[simp] theorem State.setLoan_spins (i : Nat) (l : Option Loan) : (s.setLoan i l).spins = s.spins := rfl
@[simp] theorem State.setLoan_axes (i : Nat) (l : Option Loan) : (s.setLoan i l).axes = s.axes := rfl
@[simp] theorem State.setLoan_steps (i : Nat) (l : Option Loan) : (s.setLoan i l).steps = s.steps := rfl
@[simp] theorem State.setLoan_progs (i : Nat) (l : Option Loan) : (s.setLoan i l).progs = s.progs := rfl
@[simp] theorem State.setLoan_cal (i : Nat) (l : Option Loan) : (s.setLoan i l).cal = s.cal := rfl
@[simp] theorem State.setLoan_safe (i : Nat) (l : Option Loan) : (s.setLoan i l).safe = s.safe := rfl
@[simp] theorem State.setLoan_rst (i : Nat) (l : Option Loan) : (s.setLoan i l).rst = s.rst := rfl
@[simp] theorem State.setLoan_engines (i : Nat) (l : Option Loan) : (s.setLoan i l).engines = s.engines := rfl
@[simp] theorem State.setLoan_outs (i : Nat) (l : Option Loan) : (s.setLoan i l).outs = s.outs := rfl
@[simp] theorem State.setLoan_published (i : Nat) (l : Option Loan) : (s.setLoan i l).published = s.published := rfl
@[simp] theorem State.setLoan_maps (i : Nat) (l : Option Loan) : (s.setLoan i l).maps = s.maps := rfl
@[simp] theorem State.setLoan_keys (i : Nat) (l : Option Loan) : (s.setLoan i l).keys = s.keys := rfl
@[simp] theorem State.setLoan_pending (i : Nat) (l : Option Loan) : (s.setLoan i l).pending = s.pending := rfl

@[simp] theorem State.setSqs_part (q : Tbl (Option SubQ)) : (s.setSqs q).part = s.part := rfl
@[simp] theorem State.setSqs_rev (q : Tbl (Option SubQ)) : (s.setSqs q).rev = s.rev := rfl
@[simp] theorem State.setSqs_now (q : Tbl (Option SubQ)) : (s.setSqs q).now = s.now := rfl
@[simp] theorem State.setSqs_free (q : Tbl (Option SubQ)) : (s.setSqs q).free = s.free := rfl
@[simp] theorem State.setSqs_sealed (q : Tbl (Option SubQ)) : (s.setSqs q).sealed = s.sealed := rfl
@[simp] theorem State.setSqs_cores (q : Tbl (Option SubQ)) : (s.setSqs q).cores = s.cores := rfl
@[simp] theorem State.setSqs_icache (q : Tbl (Option SubQ)) : (s.setSqs q).icache = s.icache := rfl
@[simp] theorem State.setSqs_regs (q : Tbl (Option SubQ)) : (s.setSqs q).regs = s.regs := rfl
@[simp] theorem State.setSqs_mem (q : Tbl (Option SubQ)) : (s.setSqs q).mem = s.mem := rfl
@[simp] theorem State.setSqs_ecc (q : Tbl (Option SubQ)) : (s.setSqs q).ecc = s.ecc := rfl
@[simp] theorem State.setSqs_cache (q : Tbl (Option SubQ)) : (s.setSqs q).cache = s.cache := rfl
@[simp] theorem State.setSqs_bufs (q : Tbl (Option SubQ)) : (s.setSqs q).bufs = s.bufs := rfl
@[simp] theorem State.setSqs_fifos (q : Tbl (Option SubQ)) : (s.setSqs q).fifos = s.fifos := rfl
@[simp] theorem State.setSqs_snap (q : Tbl (Option SubQ)) : (s.setSqs q).snap = s.snap := rfl
@[simp] theorem State.setSqs_adm (q : Tbl (Option SubQ)) : (s.setSqs q).adm = s.adm := rfl
@[simp] theorem State.setSqs_flt (q : Tbl (Option SubQ)) : (s.setSqs q).flt = s.flt := rfl
@[simp] theorem State.setSqs_ring (q : Tbl (Option SubQ)) : (s.setSqs q).ring = s.ring := rfl
@[simp] theorem State.setSqs_aon (q : Tbl (Option SubQ)) : (s.setSqs q).aon = s.aon := rfl
@[simp] theorem State.setSqs_sec (q : Tbl (Option SubQ)) : (s.setSqs q).sec = s.sec := rfl
@[simp] theorem State.setSqs_therm (q : Tbl (Option SubQ)) : (s.setSqs q).therm = s.therm := rfl
@[simp] theorem State.setSqs_chan (q : Tbl (Option SubQ)) : (s.setSqs q).chan = s.chan := rfl
@[simp] theorem State.setSqs_shock (q : Tbl (Option SubQ)) : (s.setSqs q).shock = s.shock := rfl
@[simp] theorem State.setSqs_tripped (q : Tbl (Option SubQ)) : (s.setSqs q).tripped = s.tripped := rfl
@[simp] theorem State.setSqs_polls (q : Tbl (Option SubQ)) : (s.setSqs q).polls = s.polls := rfl
@[simp] theorem State.setSqs_lit (q : Tbl (Option SubQ)) : (s.setSqs q).lit = s.lit := rfl
@[simp] theorem State.setSqs_trims (q : Tbl (Option SubQ)) : (s.setSqs q).trims = s.trims := rfl
@[simp] theorem State.setSqs_spins (q : Tbl (Option SubQ)) : (s.setSqs q).spins = s.spins := rfl
@[simp] theorem State.setSqs_axes (q : Tbl (Option SubQ)) : (s.setSqs q).axes = s.axes := rfl
@[simp] theorem State.setSqs_steps (q : Tbl (Option SubQ)) : (s.setSqs q).steps = s.steps := rfl
@[simp] theorem State.setSqs_progs (q : Tbl (Option SubQ)) : (s.setSqs q).progs = s.progs := rfl
@[simp] theorem State.setSqs_cal (q : Tbl (Option SubQ)) : (s.setSqs q).cal = s.cal := rfl
@[simp] theorem State.setSqs_safe (q : Tbl (Option SubQ)) : (s.setSqs q).safe = s.safe := rfl
@[simp] theorem State.setSqs_rst (q : Tbl (Option SubQ)) : (s.setSqs q).rst = s.rst := rfl
@[simp] theorem State.setSqs_engines (q : Tbl (Option SubQ)) : (s.setSqs q).engines = s.engines := rfl
@[simp] theorem State.setSqs_outs (q : Tbl (Option SubQ)) : (s.setSqs q).outs = s.outs := rfl
@[simp] theorem State.setSqs_published (q : Tbl (Option SubQ)) : (s.setSqs q).published = s.published := rfl
@[simp] theorem State.setSqs_maps (q : Tbl (Option SubQ)) : (s.setSqs q).maps = s.maps := rfl
@[simp] theorem State.setSqs_keys (q : Tbl (Option SubQ)) : (s.setSqs q).keys = s.keys := rfl
@[simp] theorem State.setSqs_pending (q : Tbl (Option SubQ)) : (s.setSqs q).pending = s.pending := rfl

@[simp] theorem State.setCqs_part (q : Tbl (Option CompQ)) : (s.setCqs q).part = s.part := rfl
@[simp] theorem State.setCqs_rev (q : Tbl (Option CompQ)) : (s.setCqs q).rev = s.rev := rfl
@[simp] theorem State.setCqs_now (q : Tbl (Option CompQ)) : (s.setCqs q).now = s.now := rfl
@[simp] theorem State.setCqs_free (q : Tbl (Option CompQ)) : (s.setCqs q).free = s.free := rfl
@[simp] theorem State.setCqs_sealed (q : Tbl (Option CompQ)) : (s.setCqs q).sealed = s.sealed := rfl
@[simp] theorem State.setCqs_cores (q : Tbl (Option CompQ)) : (s.setCqs q).cores = s.cores := rfl
@[simp] theorem State.setCqs_icache (q : Tbl (Option CompQ)) : (s.setCqs q).icache = s.icache := rfl
@[simp] theorem State.setCqs_regs (q : Tbl (Option CompQ)) : (s.setCqs q).regs = s.regs := rfl
@[simp] theorem State.setCqs_mem (q : Tbl (Option CompQ)) : (s.setCqs q).mem = s.mem := rfl
@[simp] theorem State.setCqs_ecc (q : Tbl (Option CompQ)) : (s.setCqs q).ecc = s.ecc := rfl
@[simp] theorem State.setCqs_cache (q : Tbl (Option CompQ)) : (s.setCqs q).cache = s.cache := rfl
@[simp] theorem State.setCqs_bufs (q : Tbl (Option CompQ)) : (s.setCqs q).bufs = s.bufs := rfl
@[simp] theorem State.setCqs_fifos (q : Tbl (Option CompQ)) : (s.setCqs q).fifos = s.fifos := rfl
@[simp] theorem State.setCqs_snap (q : Tbl (Option CompQ)) : (s.setCqs q).snap = s.snap := rfl
@[simp] theorem State.setCqs_adm (q : Tbl (Option CompQ)) : (s.setCqs q).adm = s.adm := rfl
@[simp] theorem State.setCqs_flt (q : Tbl (Option CompQ)) : (s.setCqs q).flt = s.flt := rfl
@[simp] theorem State.setCqs_ring (q : Tbl (Option CompQ)) : (s.setCqs q).ring = s.ring := rfl
@[simp] theorem State.setCqs_aon (q : Tbl (Option CompQ)) : (s.setCqs q).aon = s.aon := rfl
@[simp] theorem State.setCqs_sec (q : Tbl (Option CompQ)) : (s.setCqs q).sec = s.sec := rfl
@[simp] theorem State.setCqs_therm (q : Tbl (Option CompQ)) : (s.setCqs q).therm = s.therm := rfl
@[simp] theorem State.setCqs_chan (q : Tbl (Option CompQ)) : (s.setCqs q).chan = s.chan := rfl
@[simp] theorem State.setCqs_shock (q : Tbl (Option CompQ)) : (s.setCqs q).shock = s.shock := rfl
@[simp] theorem State.setCqs_tripped (q : Tbl (Option CompQ)) : (s.setCqs q).tripped = s.tripped := rfl
@[simp] theorem State.setCqs_polls (q : Tbl (Option CompQ)) : (s.setCqs q).polls = s.polls := rfl
@[simp] theorem State.setCqs_lit (q : Tbl (Option CompQ)) : (s.setCqs q).lit = s.lit := rfl
@[simp] theorem State.setCqs_trims (q : Tbl (Option CompQ)) : (s.setCqs q).trims = s.trims := rfl
@[simp] theorem State.setCqs_spins (q : Tbl (Option CompQ)) : (s.setCqs q).spins = s.spins := rfl
@[simp] theorem State.setCqs_axes (q : Tbl (Option CompQ)) : (s.setCqs q).axes = s.axes := rfl
@[simp] theorem State.setCqs_steps (q : Tbl (Option CompQ)) : (s.setCqs q).steps = s.steps := rfl
@[simp] theorem State.setCqs_progs (q : Tbl (Option CompQ)) : (s.setCqs q).progs = s.progs := rfl
@[simp] theorem State.setCqs_cal (q : Tbl (Option CompQ)) : (s.setCqs q).cal = s.cal := rfl
@[simp] theorem State.setCqs_safe (q : Tbl (Option CompQ)) : (s.setCqs q).safe = s.safe := rfl
@[simp] theorem State.setCqs_rst (q : Tbl (Option CompQ)) : (s.setCqs q).rst = s.rst := rfl
@[simp] theorem State.setCqs_engines (q : Tbl (Option CompQ)) : (s.setCqs q).engines = s.engines := rfl
@[simp] theorem State.setCqs_outs (q : Tbl (Option CompQ)) : (s.setCqs q).outs = s.outs := rfl
@[simp] theorem State.setCqs_published (q : Tbl (Option CompQ)) : (s.setCqs q).published = s.published := rfl
@[simp] theorem State.setCqs_maps (q : Tbl (Option CompQ)) : (s.setCqs q).maps = s.maps := rfl
@[simp] theorem State.setCqs_keys (q : Tbl (Option CompQ)) : (s.setCqs q).keys = s.keys := rfl
@[simp] theorem State.setCqs_pending (q : Tbl (Option CompQ)) : (s.setCqs q).pending = s.pending := rfl

@[simp] theorem State.setFeat_part (f i v : Nat) : (s.setFeat f i v).part = s.part := rfl
@[simp] theorem State.setFeat_rev (f i v : Nat) : (s.setFeat f i v).rev = s.rev := rfl
@[simp] theorem State.setFeat_now (f i v : Nat) : (s.setFeat f i v).now = s.now := rfl
@[simp] theorem State.setFeat_free (f i v : Nat) : (s.setFeat f i v).free = s.free := rfl
@[simp] theorem State.setFeat_sealed (f i v : Nat) : (s.setFeat f i v).sealed = s.sealed := rfl
@[simp] theorem State.setFeat_cores (f i v : Nat) : (s.setFeat f i v).cores = s.cores := rfl
@[simp] theorem State.setFeat_icache (f i v : Nat) : (s.setFeat f i v).icache = s.icache := rfl
@[simp] theorem State.setFeat_regs (f i v : Nat) : (s.setFeat f i v).regs = s.regs := rfl
@[simp] theorem State.setFeat_mem (f i v : Nat) : (s.setFeat f i v).mem = s.mem := rfl
@[simp] theorem State.setFeat_ecc (f i v : Nat) : (s.setFeat f i v).ecc = s.ecc := rfl
@[simp] theorem State.setFeat_cache (f i v : Nat) : (s.setFeat f i v).cache = s.cache := rfl
@[simp] theorem State.setFeat_bufs (f i v : Nat) : (s.setFeat f i v).bufs = s.bufs := rfl
@[simp] theorem State.setFeat_fifos (f i v : Nat) : (s.setFeat f i v).fifos = s.fifos := rfl
@[simp] theorem State.setFeat_snap (f i v : Nat) : (s.setFeat f i v).snap = s.snap := rfl
@[simp] theorem State.setFeat_adm (f i v : Nat) : (s.setFeat f i v).adm = s.adm := rfl
@[simp] theorem State.setFeat_flt (f i v : Nat) : (s.setFeat f i v).flt = s.flt := rfl
@[simp] theorem State.setFeat_ring (f i v : Nat) : (s.setFeat f i v).ring = s.ring := rfl
@[simp] theorem State.setFeat_aon (f i v : Nat) : (s.setFeat f i v).aon = s.aon := rfl
@[simp] theorem State.setFeat_sec (f i v : Nat) : (s.setFeat f i v).sec = s.sec := rfl
@[simp] theorem State.setFeat_therm (f i v : Nat) : (s.setFeat f i v).therm = s.therm := rfl
@[simp] theorem State.setFeat_chan (f i v : Nat) : (s.setFeat f i v).chan = s.chan := rfl
@[simp] theorem State.setFeat_shock (f i v : Nat) : (s.setFeat f i v).shock = s.shock := rfl
@[simp] theorem State.setFeat_tripped (f i v : Nat) : (s.setFeat f i v).tripped = s.tripped := rfl
@[simp] theorem State.setFeat_polls (f i v : Nat) : (s.setFeat f i v).polls = s.polls := rfl
@[simp] theorem State.setFeat_lit (f i v : Nat) : (s.setFeat f i v).lit = s.lit := rfl
@[simp] theorem State.setFeat_trims (f i v : Nat) : (s.setFeat f i v).trims = s.trims := rfl
@[simp] theorem State.setFeat_spins (f i v : Nat) : (s.setFeat f i v).spins = s.spins := rfl
@[simp] theorem State.setFeat_axes (f i v : Nat) : (s.setFeat f i v).axes = s.axes := rfl
@[simp] theorem State.setFeat_steps (f i v : Nat) : (s.setFeat f i v).steps = s.steps := rfl
@[simp] theorem State.setFeat_progs (f i v : Nat) : (s.setFeat f i v).progs = s.progs := rfl
@[simp] theorem State.setFeat_cal (f i v : Nat) : (s.setFeat f i v).cal = s.cal := rfl
@[simp] theorem State.setFeat_safe (f i v : Nat) : (s.setFeat f i v).safe = s.safe := rfl
@[simp] theorem State.setFeat_rst (f i v : Nat) : (s.setFeat f i v).rst = s.rst := rfl
@[simp] theorem State.setFeat_engines (f i v : Nat) : (s.setFeat f i v).engines = s.engines := rfl
@[simp] theorem State.setFeat_outs (f i v : Nat) : (s.setFeat f i v).outs = s.outs := rfl
@[simp] theorem State.setFeat_published (f i v : Nat) : (s.setFeat f i v).published = s.published := rfl
@[simp] theorem State.setFeat_maps (f i v : Nat) : (s.setFeat f i v).maps = s.maps := rfl
@[simp] theorem State.setFeat_keys (f i v : Nat) : (s.setFeat f i v).keys = s.keys := rfl
@[simp] theorem State.setFeat_pending (f i v : Nat) : (s.setFeat f i v).pending = s.pending := rfl

@[simp] theorem State.setZone_part (k z : Nat) (x : Zone) : (s.setZone k z x).part = s.part := rfl
@[simp] theorem State.setZone_rev (k z : Nat) (x : Zone) : (s.setZone k z x).rev = s.rev := rfl
@[simp] theorem State.setZone_now (k z : Nat) (x : Zone) : (s.setZone k z x).now = s.now := rfl
@[simp] theorem State.setZone_free (k z : Nat) (x : Zone) : (s.setZone k z x).free = s.free := rfl
@[simp] theorem State.setZone_sealed (k z : Nat) (x : Zone) : (s.setZone k z x).sealed = s.sealed := rfl
@[simp] theorem State.setZone_cores (k z : Nat) (x : Zone) : (s.setZone k z x).cores = s.cores := rfl
@[simp] theorem State.setZone_icache (k z : Nat) (x : Zone) : (s.setZone k z x).icache = s.icache := rfl
@[simp] theorem State.setZone_regs (k z : Nat) (x : Zone) : (s.setZone k z x).regs = s.regs := rfl
@[simp] theorem State.setZone_mem (k z : Nat) (x : Zone) : (s.setZone k z x).mem = s.mem := rfl
@[simp] theorem State.setZone_ecc (k z : Nat) (x : Zone) : (s.setZone k z x).ecc = s.ecc := rfl
@[simp] theorem State.setZone_cache (k z : Nat) (x : Zone) : (s.setZone k z x).cache = s.cache := rfl
@[simp] theorem State.setZone_bufs (k z : Nat) (x : Zone) : (s.setZone k z x).bufs = s.bufs := rfl
@[simp] theorem State.setZone_fifos (k z : Nat) (x : Zone) : (s.setZone k z x).fifos = s.fifos := rfl
@[simp] theorem State.setZone_snap (k z : Nat) (x : Zone) : (s.setZone k z x).snap = s.snap := rfl
@[simp] theorem State.setZone_adm (k z : Nat) (x : Zone) : (s.setZone k z x).adm = s.adm := rfl
@[simp] theorem State.setZone_flt (k z : Nat) (x : Zone) : (s.setZone k z x).flt = s.flt := rfl
@[simp] theorem State.setZone_ring (k z : Nat) (x : Zone) : (s.setZone k z x).ring = s.ring := rfl
@[simp] theorem State.setZone_aon (k z : Nat) (x : Zone) : (s.setZone k z x).aon = s.aon := rfl
@[simp] theorem State.setZone_sec (k z : Nat) (x : Zone) : (s.setZone k z x).sec = s.sec := rfl
@[simp] theorem State.setZone_therm (k z : Nat) (x : Zone) : (s.setZone k z x).therm = s.therm := rfl
@[simp] theorem State.setZone_chan (k z : Nat) (x : Zone) : (s.setZone k z x).chan = s.chan := rfl
@[simp] theorem State.setZone_shock (k z : Nat) (x : Zone) : (s.setZone k z x).shock = s.shock := rfl
@[simp] theorem State.setZone_tripped (k z : Nat) (x : Zone) : (s.setZone k z x).tripped = s.tripped := rfl
@[simp] theorem State.setZone_polls (k z : Nat) (x : Zone) : (s.setZone k z x).polls = s.polls := rfl
@[simp] theorem State.setZone_lit (k z : Nat) (x : Zone) : (s.setZone k z x).lit = s.lit := rfl
@[simp] theorem State.setZone_trims (k z : Nat) (x : Zone) : (s.setZone k z x).trims = s.trims := rfl
@[simp] theorem State.setZone_spins (k z : Nat) (x : Zone) : (s.setZone k z x).spins = s.spins := rfl
@[simp] theorem State.setZone_axes (k z : Nat) (x : Zone) : (s.setZone k z x).axes = s.axes := rfl
@[simp] theorem State.setZone_steps (k z : Nat) (x : Zone) : (s.setZone k z x).steps = s.steps := rfl
@[simp] theorem State.setZone_progs (k z : Nat) (x : Zone) : (s.setZone k z x).progs = s.progs := rfl
@[simp] theorem State.setZone_cal (k z : Nat) (x : Zone) : (s.setZone k z x).cal = s.cal := rfl
@[simp] theorem State.setZone_safe (k z : Nat) (x : Zone) : (s.setZone k z x).safe = s.safe := rfl
@[simp] theorem State.setZone_rst (k z : Nat) (x : Zone) : (s.setZone k z x).rst = s.rst := rfl
@[simp] theorem State.setZone_engines (k z : Nat) (x : Zone) : (s.setZone k z x).engines = s.engines := rfl
@[simp] theorem State.setZone_outs (k z : Nat) (x : Zone) : (s.setZone k z x).outs = s.outs := rfl
@[simp] theorem State.setZone_published (k z : Nat) (x : Zone) : (s.setZone k z x).published = s.published := rfl
@[simp] theorem State.setZone_maps (k z : Nat) (x : Zone) : (s.setZone k z x).maps = s.maps := rfl
@[simp] theorem State.setZone_keys (k z : Nat) (x : Zone) : (s.setZone k z x).keys = s.keys := rfl
@[simp] theorem State.setZone_pending (k z : Nat) (x : Zone) : (s.setZone k z x).pending = s.pending := rfl

@[simp] theorem State.setConn_part (tr : Nat) (x : Spdm) : (s.setConn tr x).part = s.part := rfl
@[simp] theorem State.setConn_rev (tr : Nat) (x : Spdm) : (s.setConn tr x).rev = s.rev := rfl
@[simp] theorem State.setConn_now (tr : Nat) (x : Spdm) : (s.setConn tr x).now = s.now := rfl
@[simp] theorem State.setConn_free (tr : Nat) (x : Spdm) : (s.setConn tr x).free = s.free := rfl
@[simp] theorem State.setConn_sealed (tr : Nat) (x : Spdm) : (s.setConn tr x).sealed = s.sealed := rfl
@[simp] theorem State.setConn_cores (tr : Nat) (x : Spdm) : (s.setConn tr x).cores = s.cores := rfl
@[simp] theorem State.setConn_icache (tr : Nat) (x : Spdm) : (s.setConn tr x).icache = s.icache := rfl
@[simp] theorem State.setConn_regs (tr : Nat) (x : Spdm) : (s.setConn tr x).regs = s.regs := rfl
@[simp] theorem State.setConn_mem (tr : Nat) (x : Spdm) : (s.setConn tr x).mem = s.mem := rfl
@[simp] theorem State.setConn_ecc (tr : Nat) (x : Spdm) : (s.setConn tr x).ecc = s.ecc := rfl
@[simp] theorem State.setConn_cache (tr : Nat) (x : Spdm) : (s.setConn tr x).cache = s.cache := rfl
@[simp] theorem State.setConn_bufs (tr : Nat) (x : Spdm) : (s.setConn tr x).bufs = s.bufs := rfl
@[simp] theorem State.setConn_fifos (tr : Nat) (x : Spdm) : (s.setConn tr x).fifos = s.fifos := rfl
@[simp] theorem State.setConn_snap (tr : Nat) (x : Spdm) : (s.setConn tr x).snap = s.snap := rfl
@[simp] theorem State.setConn_adm (tr : Nat) (x : Spdm) : (s.setConn tr x).adm = s.adm := rfl
@[simp] theorem State.setConn_flt (tr : Nat) (x : Spdm) : (s.setConn tr x).flt = s.flt := rfl
@[simp] theorem State.setConn_ring (tr : Nat) (x : Spdm) : (s.setConn tr x).ring = s.ring := rfl
@[simp] theorem State.setConn_aon (tr : Nat) (x : Spdm) : (s.setConn tr x).aon = s.aon := rfl
@[simp] theorem State.setConn_sec (tr : Nat) (x : Spdm) : (s.setConn tr x).sec = s.sec := rfl
@[simp] theorem State.setConn_therm (tr : Nat) (x : Spdm) : (s.setConn tr x).therm = s.therm := rfl
@[simp] theorem State.setConn_chan (tr : Nat) (x : Spdm) : (s.setConn tr x).chan = s.chan := rfl
@[simp] theorem State.setConn_shock (tr : Nat) (x : Spdm) : (s.setConn tr x).shock = s.shock := rfl
@[simp] theorem State.setConn_tripped (tr : Nat) (x : Spdm) : (s.setConn tr x).tripped = s.tripped := rfl
@[simp] theorem State.setConn_polls (tr : Nat) (x : Spdm) : (s.setConn tr x).polls = s.polls := rfl
@[simp] theorem State.setConn_lit (tr : Nat) (x : Spdm) : (s.setConn tr x).lit = s.lit := rfl
@[simp] theorem State.setConn_trims (tr : Nat) (x : Spdm) : (s.setConn tr x).trims = s.trims := rfl
@[simp] theorem State.setConn_spins (tr : Nat) (x : Spdm) : (s.setConn tr x).spins = s.spins := rfl
@[simp] theorem State.setConn_axes (tr : Nat) (x : Spdm) : (s.setConn tr x).axes = s.axes := rfl
@[simp] theorem State.setConn_steps (tr : Nat) (x : Spdm) : (s.setConn tr x).steps = s.steps := rfl
@[simp] theorem State.setConn_progs (tr : Nat) (x : Spdm) : (s.setConn tr x).progs = s.progs := rfl
@[simp] theorem State.setConn_cal (tr : Nat) (x : Spdm) : (s.setConn tr x).cal = s.cal := rfl
@[simp] theorem State.setConn_safe (tr : Nat) (x : Spdm) : (s.setConn tr x).safe = s.safe := rfl
@[simp] theorem State.setConn_rst (tr : Nat) (x : Spdm) : (s.setConn tr x).rst = s.rst := rfl
@[simp] theorem State.setConn_engines (tr : Nat) (x : Spdm) : (s.setConn tr x).engines = s.engines := rfl
@[simp] theorem State.setConn_outs (tr : Nat) (x : Spdm) : (s.setConn tr x).outs = s.outs := rfl
@[simp] theorem State.setConn_published (tr : Nat) (x : Spdm) : (s.setConn tr x).published = s.published := rfl
@[simp] theorem State.setConn_maps (tr : Nat) (x : Spdm) : (s.setConn tr x).maps = s.maps := rfl
@[simp] theorem State.setConn_keys (tr : Nat) (x : Spdm) : (s.setConn tr x).keys = s.keys := rfl
@[simp] theorem State.setConn_pending (tr : Nat) (x : Spdm) : (s.setConn tr x).pending = s.pending := rfl

@[simp] theorem State.setLater_part (n a : Nat) (w : Word) : (s.setLater n a w).part = s.part := rfl
@[simp] theorem State.setLater_rev (n a : Nat) (w : Word) : (s.setLater n a w).rev = s.rev := rfl
@[simp] theorem State.setLater_now (n a : Nat) (w : Word) : (s.setLater n a w).now = s.now := rfl
@[simp] theorem State.setLater_free (n a : Nat) (w : Word) : (s.setLater n a w).free = s.free := rfl
@[simp] theorem State.setLater_sealed (n a : Nat) (w : Word) : (s.setLater n a w).sealed = s.sealed := rfl
@[simp] theorem State.setLater_cores (n a : Nat) (w : Word) : (s.setLater n a w).cores = s.cores := rfl
@[simp] theorem State.setLater_icache (n a : Nat) (w : Word) : (s.setLater n a w).icache = s.icache := rfl
@[simp] theorem State.setLater_mem (n a : Nat) (w : Word) : (s.setLater n a w).mem = s.mem := rfl
@[simp] theorem State.setLater_ecc (n a : Nat) (w : Word) : (s.setLater n a w).ecc = s.ecc := rfl
@[simp] theorem State.setLater_cache (n a : Nat) (w : Word) : (s.setLater n a w).cache = s.cache := rfl
@[simp] theorem State.setLater_bufs (n a : Nat) (w : Word) : (s.setLater n a w).bufs = s.bufs := rfl
@[simp] theorem State.setLater_fifos (n a : Nat) (w : Word) : (s.setLater n a w).fifos = s.fifos := rfl
@[simp] theorem State.setLater_snap (n a : Nat) (w : Word) : (s.setLater n a w).snap = s.snap := rfl
@[simp] theorem State.setLater_adm (n a : Nat) (w : Word) : (s.setLater n a w).adm = s.adm := rfl
@[simp] theorem State.setLater_host (n a : Nat) (w : Word) : (s.setLater n a w).host = s.host := rfl
@[simp] theorem State.setLater_flt (n a : Nat) (w : Word) : (s.setLater n a w).flt = s.flt := rfl
@[simp] theorem State.setLater_ring (n a : Nat) (w : Word) : (s.setLater n a w).ring = s.ring := rfl
@[simp] theorem State.setLater_aon (n a : Nat) (w : Word) : (s.setLater n a w).aon = s.aon := rfl
@[simp] theorem State.setLater_sec (n a : Nat) (w : Word) : (s.setLater n a w).sec = s.sec := rfl
@[simp] theorem State.setLater_therm (n a : Nat) (w : Word) : (s.setLater n a w).therm = s.therm := rfl
@[simp] theorem State.setLater_chan (n a : Nat) (w : Word) : (s.setLater n a w).chan = s.chan := rfl
@[simp] theorem State.setLater_shock (n a : Nat) (w : Word) : (s.setLater n a w).shock = s.shock := rfl
@[simp] theorem State.setLater_tripped (n a : Nat) (w : Word) : (s.setLater n a w).tripped = s.tripped := rfl
@[simp] theorem State.setLater_polls (n a : Nat) (w : Word) : (s.setLater n a w).polls = s.polls := rfl
@[simp] theorem State.setLater_lit (n a : Nat) (w : Word) : (s.setLater n a w).lit = s.lit := rfl
@[simp] theorem State.setLater_spins (n a : Nat) (w : Word) : (s.setLater n a w).spins = s.spins := rfl
@[simp] theorem State.setLater_axes (n a : Nat) (w : Word) : (s.setLater n a w).axes = s.axes := rfl
@[simp] theorem State.setLater_steps (n a : Nat) (w : Word) : (s.setLater n a w).steps = s.steps := rfl
@[simp] theorem State.setLater_progs (n a : Nat) (w : Word) : (s.setLater n a w).progs = s.progs := rfl
@[simp] theorem State.setLater_cal (n a : Nat) (w : Word) : (s.setLater n a w).cal = s.cal := rfl
@[simp] theorem State.setLater_safe (n a : Nat) (w : Word) : (s.setLater n a w).safe = s.safe := rfl
@[simp] theorem State.setLater_rst (n a : Nat) (w : Word) : (s.setLater n a w).rst = s.rst := rfl
@[simp] theorem State.setLater_engines (n a : Nat) (w : Word) : (s.setLater n a w).engines = s.engines := rfl
@[simp] theorem State.setLater_outs (n a : Nat) (w : Word) : (s.setLater n a w).outs = s.outs := rfl
@[simp] theorem State.setLater_published (n a : Nat) (w : Word) : (s.setLater n a w).published = s.published := rfl
@[simp] theorem State.setLater_maps (n a : Nat) (w : Word) : (s.setLater n a w).maps = s.maps := rfl
@[simp] theorem State.setLater_keys (n a : Nat) (w : Word) : (s.setLater n a w).keys = s.keys := rfl
@[simp] theorem State.setLater_pending (n a : Nat) (w : Word) : (s.setLater n a w).pending = s.pending := rfl

/-! What each writes. -/

@[simp] theorem State.core_setCore (c : Nat) (k : Core) : (s.setCore c k).core c = k := Tbl.at_upd_self c k s.cores
theorem State.core_setCore_ne {c d : Nat} (h : d ≠ c) (k : Core) : (s.setCore c k).core d = s.core d :=
  Tbl.at_upd_ne h k s.cores
@[simp] theorem State.core_modCore (c : Nat) (f : Core → Core) : (s.modCore c f).core c = f (s.core c) :=
  s.core_setCore c _
theorem State.core_modCore_ne {c d : Nat} (h : d ≠ c) (f : Core → Core) : (s.modCore c f).core d = s.core d :=
  s.core_setCore_ne h _
@[simp] theorem State.icacheOf_dropIcache (c : Nat) : (s.dropIcache c).icacheOf c = [] := Tbl.at_upd_self c [] s.icache
theorem State.icacheOf_dropIcache_ne {c d : Nat} (h : d ≠ c) : (s.dropIcache c).icacheOf d = s.icacheOf d :=
  Tbl.at_upd_ne h [] s.icache
@[simp] theorem State.core_dropIcache (c d : Nat) : (s.dropIcache c).core d = s.core d := rfl
@[simp] theorem State.core_count (die u n c : Nat) : (s.count die u n).core c = s.core c := rfl
@[simp] theorem State.core_setReg (a : Nat) (w : Word) (c : Nat) : (s.setReg a w).core c = s.core c := rfl
@[simp] theorem State.core_setCf (d off hi lo x c : Nat) : (s.setCf d off hi lo x).core c = s.core c := s.core_setReg _ _ c
@[simp] theorem State.core_setFf (d off hi lo x c : Nat) : (s.setFf d off hi lo x).core c = s.core c := s.core_setReg _ _ c

theorem State.reg_setReg (a b : Nat) (w : Word) : (s.setReg a w).reg b = if b = a then w else s.reg b :=
  Tbl.get_set regReset a w b s.regs
@[simp] theorem State.reg_setReg_self (a : Nat) (w : Word) : (s.setReg a w).reg a = w := by
  simp [State.reg_setReg]
theorem State.reg_setReg_ne {a b : Nat} (h : b ≠ a) (w : Word) : (s.setReg a w).reg b = s.reg b := by
  simp [State.reg_setReg, h]
@[simp] theorem State.reg_setCore (c : Nat) (k : Core) (a : Nat) : (s.setCore c k).reg a = s.reg a := rfl
@[simp] theorem State.reg_modCore (c : Nat) (f : Core → Core) (a : Nat) : (s.modCore c f).reg a = s.reg a := rfl
@[simp] theorem State.reg_count (die u n a : Nat) : (s.count die u n).reg a = s.reg a := rfl
theorem State.reg_setCf_ne {d off hi lo x a : Nat} (h : a ≠ cAddr d off) : (s.setCf d off hi lo x).reg a = s.reg a :=
  s.reg_setReg_ne h _
theorem State.reg_setFf_ne {d off hi lo x a : Nat} (h : a ≠ fAddr d off) : (s.setFf d off hi lo x).reg a = s.reg a :=
  s.reg_setReg_ne h _

@[simp] theorem State.engine_setEngine (k e : Nat) (x : Engine) : (s.setEngine k e x).engine k e = x :=
  Tbl.at_upd_self _ x s.engines
@[simp] theorem State.engine_modEngine (k e : Nat) (f : Engine → Engine) :
    (s.modEngine k e f).engine k e = f (s.engine k e) := s.engine_setEngine k e _
@[simp] theorem State.slot_setSlot (i : Nat) (x : Slot) : (s.setSlot i x).slot i = x := Tbl.at_upd_self i x s.adm.slots
@[simp] theorem State.channel_setChannel (k : Nat) (x : Channel) : (s.setChannel k x).channel k = x :=
  Tbl.at_upd_self k x s.chan
@[simp] theorem State.seq_setSeq (k : Nat) (x : SafetySeq) : (s.setSeq k x).seq k = x := Tbl.at_upd_self k x s.safe

end Sys2Proof.Machine
end

