-- ==== Sys2Proof/Laws/Faults.lean ====
section
/-! SUPPORT. The operations that a fault anywhere in the device calls leave memory alone: completions, events, the fault log,
notices, write inhibit, the safety sequence, the end of a command and the controlled stop. -/

namespace Sys2Proof.Machine

/-- A fold of operations that each leave memory alone leaves it alone. -/
theorem foldl_mem {β : Type} (f : State → β → State) (hf : ∀ s b, (f s b).mem = s.mem) (l : List β) (s : State) :
    (l.foldl f s).mem = s.mem := by
  induction l generalizing s with
  | nil => rfl
  | cons b t ih => rw [List.foldl_cons, ih, hf]

theorem upTo_mem (n : Nat) (f : Nat → State → State) (hf : ∀ i s, (f i s).mem = s.mem) (s : State) :
    (upTo n f s).mem = s.mem := foldl_mem _ (fun s i => hf i s) _ s

theorem postCqe_mem (c : Cqe) (s : State) : (postCqe c s).mem = s.mem := by
  unfold postCqe
  split
  · rfl
  · split <;> rfl

theorem pumpEvents_mem (s : State) : (pumpEvents s).mem = s.mem := by
  refine foldl_mem _ (fun s e => ?_) _ s
  dsimp only
  split
  · rfl
  · split
    · rfl
    · exact postCqe_mem _ _

theorem raiseAsync_mem (type info log : Nat) (s : State) : (raiseAsync type info log s).mem = s.mem := by
  unfold raiseAsync
  split
  · rfl
  · exact pumpEvents_mem _

theorem logFault_mem (code die unit slice core detail : Nat) (s : State) :
    (logFault code die unit slice core detail s).mem = s.mem := raiseAsync_mem _ _ _ _

theorem notice_mem (c code value ident : Nat) (s : State) : (notice c code value ident s).mem = s.mem := rfl

theorem setHeld_mem (core tag uj : Nat) (s : State) : (setHeld core tag uj s).mem = s.mem := by
  unfold setHeld
  split
  · rfl
  · split <;> rfl

theorem reconsider_mem (s : State) : (reconsider s).mem = s.mem := by
  refine foldl_mem _ (fun s t => ?_) _ s
  dsimp only
  split
  · exact setHeld_mem _ _ _ _
  · rfl

theorem takeBack_mem (i : Nat) (s : State) : (takeBack i s).mem = s.mem := by
  refine (reconsider_mem _).trans ?_
  exact foldl_mem (fun (s : State) (t : Ticket) => notice t.core 2 0 t.id s) (fun _ _ => rfl) _ _

theorem recordSpent_mem (i : Nat) (s : State) : (recordSpent i s).mem = s.mem := by
  unfold recordSpent
  dsimp only
  split
  · split <;> rfl
  · rfl

theorem postSlot_mem (x : Slot) (sct sc more dw0 dw1 : Nat) (s : State) : (postSlot x sct sc more dw0 dw1 s).mem = s.mem := by
  unfold postSlot
  dsimp only
  split
  · rfl
  · exact postCqe_mem _ _

theorem releaseOrdered_mem (s : State) : (releaseOrdered s).mem = s.mem := by
  refine foldl_mem _ (fun s e => ?_) _ s
  dsimp only
  split
  · rfl
  · exact postCqe_mem _ _

theorem endCommand_mem (i : Nat) (how : Ended) (sct sc more dw0 dw1 : Nat) (s : State) :
    (endCommand i how sct sc more dw0 dw1 s).mem = s.mem := by
  refine (releaseOrdered_mem _).trans ((takeBack_mem _ _).trans ?_)
  have e : ∀ (u : State), u.mem = s.mem → (if (s.slot i).job then u else postSlot (s.slot i) sct sc more dw0 dw1 u).mem = s.mem := by
    intro u h
    split
    · exact h
    · exact (postSlot_mem _ _ _ _ _ _ _).trans h
  split <;> exact e _ (recordSpent_mem i s)

theorem raiseWi_mem (k h bit : Nat) (s : State) : (raiseWi k h bit s).mem = s.mem := by
  unfold raiseWi inhibitWrites
  dsimp only
  rw [State.setQueue_mem, State.setFf_mem]
  split <;> rfl

theorem lasersOff_mem (s : State) (o : Tbl (Option Word32)) (l : Tbl (Option Nat)) :
    ({ s with outs := o, lit := l } : State).mem = s.mem := rfl

theorem triggerSafety_mem (k : Nat) (s : State) : (triggerSafety k s).mem = s.mem := by
  unfold triggerSafety
  split
  · rfl
  · extract_lets a b c d
    rw [State.count_mem, State.setSeq_mem]
    exact (lasersOff_mem c _ _).trans (by simp only [c, b, a, State.setFf_mem, raiseWi_mem])

theorem controlledStop_mem (code : Nat) (s : State) : (controlledStop code s).mem = s.mem := by
  unfold controlledStop
  split
  · rfl
  · have h : (upTo (logFault 0x0002 0xFF 0xFF 0xFF 0xFF code s).nslices triggerSafety
        (logFault 0x0002 0xFF 0xFF 0xFF 0xFF code s)).mem = s.mem :=
      (upTo_mem _ _ triggerSafety_mem _).trans (logFault_mem _ _ _ _ _ _ _)
    dsimp only
    rw [foldl_mem _ (fun s (e : Nat × Slot) => endCommand_mem e.1 .aborted 0 6 0 0 0 s)]
    split <;> simpa only [State.setCf_mem] using h

end Sys2Proof.Machine
end

