-- ==== Sys2Proof/Laws/Cores.lean ====
section
/-! SUPPORT. What a look-up, a fill or a stop in the middle of an instruction may do to the deck cores: notices and corrections
join them, and the rest of each stands (R416, R483). -/

namespace Sys2Proof.Machine

/-- A core but for what others bring to it: its corrected-error report and its notices. -/
def Core.own (k : Core) : Core := { k with cerPend := false, cerCnt := 0, cerSrc := 0, ntc := [], ntcLost := false }
/-- From s to t every core stands but for what others bring to it. -/
def KeepsCores (s t : State) : Prop := ∀ d, (t.core d).own = (s.core d).own

theorem KeepsCores.refl (s : State) : KeepsCores s s := fun _ => rfl
theorem KeepsCores.trans {s t u : State} (h : KeepsCores s t) (g : KeepsCores t u) : KeepsCores s u :=
  fun d => (g d).trans (h d)
theorem KeepsCores.of_cores {s t : State} (h : t.cores = s.cores) : KeepsCores s t := fun d => by
  unfold State.core; rw [h]
theorem KeepsCores.modCore (s : State) (c : Nat) (f : Core → Core) (hf : ∀ k, (f k).own = k.own) :
    KeepsCores s (s.modCore c f) := fun d => by
  by_cases h : d = c
  · subst h; rw [State.core_modCore]; exact hf _
  · rw [State.core_modCore_ne _ h]
theorem foldl_keeps {β : Type} (f : State → β → State) (hf : ∀ s b, KeepsCores s (f s b)) (l : List β) (s : State) :
    KeepsCores s (l.foldl f s) := by
  induction l generalizing s with
  | nil => exact .refl s
  | cons b t ih => exact (hf s b).trans (ih _)

theorem pushNotice_own (n : Notice) (k : Core) : (k.pushNotice n).own = k.own := by
  unfold Core.pushNotice; dsimp only; split <;> rfl
theorem corrected_own (src : Nat) (k : Core) : (k.corrected src).own = k.own := by
  unfold Core.corrected; split <;> rfl
theorem notice_keeps (c code value ident : Nat) (s : State) : KeepsCores s (notice c code value ident s) :=
  .modCore s c _ (pushNotice_own _)

/-! Operations that leave every core alone. -/

theorem foldl_cores {β : Type} (f : State → β → State) (hf : ∀ s b, (f s b).cores = s.cores) (l : List β) (s : State) :
    (l.foldl f s).cores = s.cores := by
  induction l generalizing s with
  | nil => rfl
  | cons b t ih => rw [List.foldl_cons, ih, hf]

theorem postCqe_cores (c : Cqe) (s : State) : (postCqe c s).cores = s.cores := by
  unfold postCqe
  split
  · rfl
  · split <;> rfl

theorem pumpEvents_cores (s : State) : (pumpEvents s).cores = s.cores := by
  refine foldl_cores _ (fun s e => ?_) _ s
  dsimp only
  split
  · rfl
  · split
    · rfl
    · exact postCqe_cores _ _

theorem logFault_cores (code die unit slice core detail : Nat) (s : State) :
    (logFault code die unit slice core detail s).cores = s.cores := by
  unfold logFault raiseAsync
  dsimp only
  split
  · rfl
  · exact pumpEvents_cores _

theorem postSlot_cores (x : Slot) (sct sc more dw0 dw1 : Nat) (s : State) :
    (postSlot x sct sc more dw0 dw1 s).cores = s.cores := by
  unfold postSlot
  dsimp only
  split
  · rfl
  · exact postCqe_cores _ _

theorem releaseOrdered_cores (s : State) : (releaseOrdered s).cores = s.cores := by
  refine foldl_cores _ (fun s e => ?_) _ s
  dsimp only
  split
  · rfl
  · exact postCqe_cores _ _

theorem raiseWi_cores (k h bit : Nat) (s : State) : (raiseWi k h bit s).cores = s.cores := by
  unfold raiseWi inhibitWrites
  dsimp only
  rw [State.setQueue_cores, State.setFf_cores]
  split <;> rfl

theorem lasersOff_cores (s : State) (o : Tbl (Option Word32)) (l : Tbl (Option Nat)) :
    ({ s with outs := o, lit := l } : State).cores = s.cores := rfl

theorem triggerSafety_cores (k : Nat) (s : State) : (triggerSafety k s).cores = s.cores := by
  unfold triggerSafety
  split
  · rfl
  · extract_lets a b c d
    rw [State.count_cores, State.setSeq_cores]
    exact (lasersOff_cores c _ _).trans (by simp only [c, b, a, State.setFf_cores, raiseWi_cores])

theorem injectInto_cores (w : Nat) (s : State) : (injectInto w s).2.cores = s.cores := by
  unfold injectInto
  dsimp only
  split
  · exact State.setCf_cores _ _ _ _ _ _
  · rfl

theorem dropLine_cores (a : Nat) (s : State) : (dropLine a s).cores = s.cores := by
  unfold dropLine
  split
  · rfl
  · exact foldl_cores (fun s (e : Nat × Ecc) => s.setEcc e.1 e.2) (fun _ _ => rfl) _ _

/-! The end of a command, and the controlled stop. -/

theorem reconsider_keeps (s : State) : KeepsCores s (reconsider s) := by
  refine foldl_keeps _ (fun s t => ?_) _ s
  dsimp only
  split
  · refine (KeepsCores.of_cores ?_).trans (notice_keeps _ _ _ _ _)
    unfold grantTo setHeld
    split
    · rfl
    · split <;> rfl
  · exact .refl s

theorem takeBack_keeps (i : Nat) (s : State) : KeepsCores s (takeBack i s) := by
  refine KeepsCores.trans ?_ (reconsider_keeps _)
  exact (foldl_keeps (fun (s : State) (t : Ticket) => notice t.core 2 0 t.id s) (fun s t => notice_keeps _ _ _ _ s) _ _)

theorem adm_cores (s : State) (x : Adm) : ({ s with adm := x } : State).cores = s.cores := rfl
theorem recordOverrun_keeps (core : Nat) (o : Overrun) (s : State) : KeepsCores s (recordOverrun core o s) := by
  unfold recordOverrun
  dsimp only
  exact (KeepsCores.of_cores (adm_cores s _)).trans (notice_keeps _ _ _ _ _)

theorem recordSpent_keeps (i : Nat) (s : State) : KeepsCores s (recordSpent i s) := by
  unfold recordSpent
  dsimp only
  split
  · refine KeepsCores.trans (KeepsCores.of_cores ?_) (recordOverrun_keeps _ _ _)
    split <;> rfl
  · exact .refl s

theorem endCommand_keeps (i : Nat) (how : Ended) (sct sc more dw0 dw1 : Nat) (s : State) :
    KeepsCores s (endCommand i how sct sc more dw0 dw1 s) := by
  have e : ∀ (u : State), KeepsCores s u → KeepsCores s (if (s.slot i).job then u else postSlot (s.slot i) sct sc more dw0 dw1 u) := by
    intro u h
    split
    · exact h
    · exact h.trans (.of_cores (postSlot_cores _ _ _ _ _ _ _))
  refine KeepsCores.trans ?_ (.of_cores (releaseOrdered_cores _))
  refine KeepsCores.trans ?_ (takeBack_keeps _ _)
  split
  · exact e _ (recordSpent_keeps i s)
  · exact e _ (recordSpent_keeps i s)

theorem controlledStop_keeps (code : Nat) (s : State) : KeepsCores s (controlledStop code s) := by
  unfold controlledStop
  split
  · exact .refl s
  · have h : (upTo (logFault 0x0002 0xFF 0xFF 0xFF 0xFF code s).nslices triggerSafety
        (logFault 0x0002 0xFF 0xFF 0xFF 0xFF code s)).cores = s.cores :=
      (foldl_cores _ (fun s i => triggerSafety_cores i s) _ _).trans (logFault_cores _ _ _ _ _ _ _)
    dsimp only
    refine KeepsCores.trans (KeepsCores.of_cores ?_)
      (foldl_keeps _ (fun s (e : Nat × Slot) => endCommand_keeps e.1 .aborted 0 6 0 0 0 s) _ _)
    split <;> simpa only [State.setCf_cores] using h

/-! The staging cache. -/

theorem healRead_keeps (c : Option Nat) (a n : Nat) (s : State) : KeepsCores s (healRead c a n s) := by
  refine foldl_keeps _ (fun s w => ?_) _ s
  split
  · cases c
    · exact .refl s
    · rename_i c
      refine KeepsCores.trans (KeepsCores.of_cores ?_) (KeepsCores.modCore _ c _ (corrected_own _))
      unfold correctedSource
      split <;> rfl
  · exact .refl s

theorem useWay_cores (w a : Nat) (s : State) : (useWay w a s).cores = s.cores := rfl
theorem countBad_cores (a n : Nat) (s : State) : (countBad a n s).cores = s.cores := rfl
theorem markDirty_cores (a : Nat) (s : State) : (markDirty a s).cores = s.cores := rfl
theorem fillWay_keeps (core : Option Nat) (w a : Nat) (s : State) : KeepsCores s (fillWay core w a s) := by
  refine (healRead_keeps core (lineAddr a) 128 s).trans (.of_cores ?_)
  unfold fillWay
  dsimp only
  rw [useWay_cores, State.setLines_cores, countBad_cores]

theorem reportCorrected_keeps (core : Option Nat) (s : State) : KeepsCores s (reportCorrected core s) := by
  cases core
  · exact .refl s
  · exact .modCore s _ _ (corrected_own 3)

theorem settleLine_keeps (core : Option Nat) (a n : Nat) (l : Line) (s : State) : KeepsCores s (settleLine core a n l s) := by
  unfold settleLine
  dsimp only
  split
  · exact .refl s
  · split
    · refine KeepsCores.trans ?_ (fillWay_keeps _ _ _ _)
      refine KeepsCores.trans ?_ (.of_cores (dropLine_cores _ _))
      exact KeepsCores.trans (.of_cores rfl) (reportCorrected_keeps core (s.count l.die 357 1))
    · refine KeepsCores.trans (.of_cores rfl) (foldl_keeps _ (fun s e => ?_) _ _)
      split
      · exact .refl s
      · exact KeepsCores.trans (.of_cores rfl) (reportCorrected_keeps core (s.count l.die 357 1))
      · exact .of_cores rfl

theorem cleanLine_keeps (l : Line) (s : State) : KeepsCores s (cleanLine l s) := by
  unfold cleanLine
  split
  · have h : ∀ (ws : List Nat) (acc : List (Nat × Ecc) × State),
        (ws.foldl (fun (acc : List (Nat × Ecc) × State) w =>
          let i := injectInto w acc.2
          (if i.1 = .clean then acc.1 else acc.1 ++ [(w, i.1)], i.2)) acc).2.cores = acc.2.cores := by
      intro ws
      induction ws with
      | nil => intro acc; rfl
      | cons w t ih => intro acc; rw [List.foldl_cons, ih]; exact injectInto_cores w acc.2
    dsimp only
    refine (settleLine_keeps none l.addr 128 l s).trans (.of_cores ?_)
    simp [h]
  · exact .refl s

theorem evictLine_keeps (l : Line) (s : State) : KeepsCores s (evictLine l s) :=
  (cleanLine_keeps l s).trans (.of_cores (dropLine_cores _ _))

theorem fillLine_keeps (core a : Nat) (s : State) : KeepsCores s (fillLine core a s) := by
  unfold fillLine
  dsimp only
  split
  · exact fillWay_keeps _ _ _ _
  · split
    · exact fillWay_keeps _ _ _ _
    · split
      · exact .refl s
      · split
        · exact (evictLine_keeps _ s).trans (fillWay_keeps _ _ _ _)
        · exact .refl s

theorem settleTags_keeps (a : Nat) (s : State) : KeepsCores s (settleTags a s) := by
  unfold settleTags
  dsimp only
  split
  · exact .refl s
  · split
    · exact KeepsCores.trans (.of_cores rfl) (controlledStop_keeps 5 _)
    · exact .of_cores rfl

theorem touchLine_keeps (c : Nat) (write load : Bool) (a n : Nat) (s : State) :
    KeepsCores s (touchLine c write load a n s) := by
  have miss : ∀ (u : State), KeepsCores u (if ((fillLine c a u).lineAt a).isSome then fillLine c a u
      else countBad a n (fillLine c a u)) := by
    intro u
    split
    · exact fillLine_keeps _ _ _
    · exact (fillLine_keeps c a u).trans (.of_cores (countBad_cores _ _ _))
  have counted : ∀ (u : State), KeepsCores u (if load then u.count (c / 8) (32 * (c % 8) + 3) 1 else u) := by
    intro u
    split
    · exact .of_cores (State.count_cores _ _ _ _)
    · exact .refl u
  unfold touchLine
  extract_lets b u v d
  have hd : KeepsCores s d := by
    refine (settleTags_keeps a s).trans ?_
    simp only [d, v, u]
    split
    · have hit : ∀ (x : Line) (u : State), KeepsCores u (useWay x.way a (u.count (memDie a) 352 1)) := fun x u =>
        .of_cores ((useWay_cores _ _ _).trans (State.count_cores _ _ _ _))
      split
      · exact hit _ _
      · exact (hit _ _).trans (settleLine_keeps _ _ _ _ _)
    · exact ((KeepsCores.of_cores (State.count_cores _ _ _ _)).trans (counted _)).trans (miss _)
  split
  · exact hd.trans (.of_cores (markDirty_cores _ _))
  · exact hd

theorem reachMem_keeps (c : Nat) (write load : Bool) (key n : Nat) (s : State) :
    KeepsCores s (reachMem c write load key n s) := by
  unfold reachMem
  split
  · exact touchLine_keeps _ _ _ _ _ _
  · exact .refl s

end Sys2Proof.Machine
end

