-- ==== Sys2Proof/Laws/Memory.lean ====
section
/-! SUPPORT. Memory: a read after a write, bytes a write leaves alone, and that every memory operation keeps the canonical
form. -/

namespace Sys2Proof.Machine

/-! Reading after writing. -/

/-- Whether an address is one the retained SRAM's hardware keeps (R589): a write there is not seen. -/
def hardwareKept (a : Nat) : Prop := aonBase ≤ a ∧ keptByHardware (a - aonBase) = true

theorem byte_setByte_self {s : State} {a : Nat} (h : ¬ hardwareKept a) (b : Byte) : (s.setByte a b).byte a = b := by
  unfold hardwareKept at h
  unfold State.byte
  rw [if_neg h]
  exact Tbl.at_upd_self a b s.mem

theorem byte_setByte_ne {s : State} {a x : Nat} (h : x ≠ a) (b : Byte) : (s.setByte a b).byte x = s.byte x := by
  unfold State.byte
  split
  · rfl
  · exact Tbl.at_upd_ne h b s.mem

theorem byte_setEcc (s : State) (a : Nat) (e : Ecc) (x : Nat) : (s.setEcc a e).byte x = s.byte x := rfl

/-- A write of bytes leaves every byte outside it alone. -/
theorem byte_poke_outside (bs : List Byte) (s : State) (a x : Nat) (h : x < a ∨ a + bs.length ≤ x) :
    (s.poke a bs).byte x = s.byte x := by
  induction bs generalizing s a with
  | nil => rfl
  | cons b t ih =>
    simp only [List.length_cons] at h
    unfold State.poke
    rw [ih (s.setByte a b) (a + 1) (by omega), byte_setByte_ne (by omega)]

/-- A read of written bytes gives them. -/
theorem byte_poke_inside (bs : List Byte) (s : State) (a i : Nat) (hi : i < bs.length) (h : ¬ hardwareKept (a + i)) :
    (s.poke a bs).byte (a + i) = bs[i] := by
  induction bs generalizing s a i with
  | nil => simp at hi
  | cons b t ih =>
    unfold State.poke
    cases i with
    | zero =>
      rw [byte_poke_outside t _ _ _ (by omega)]
      exact byte_setByte_self h b
    | succ n =>
      have := ih (s.setByte a b) (a + 1) n (by simpa using hi) (by rwa [Nat.add_right_comm, Nat.add_assoc])
      rw [Nat.add_right_comm, Nat.add_assoc] at this
      simpa using this

/-! The canonical form. -/

/-- The reset state's memory has the canonical form. -/
theorem reset_mem_wf : Memory.wf State.reset.mem := ⟨List.Pairwise.nil, fun _ he => nomatch he⟩

theorem setByte_wf (s : State) (a : Nat) (b : Byte) (h : Memory.wf s.mem) : Memory.wf (s.setByte a b).mem :=
  Tbl.upd_canon a b s.mem h

theorem poke_wf (bs : List Byte) (s : State) (a : Nat) (h : Memory.wf s.mem) : Memory.wf (s.poke a bs).mem := by
  induction bs generalizing s a with
  | nil => exact h
  | cons b t ih => exact ih _ _ (setByte_wf s a b h)

/-- A fold of operations that each keep the form keeps it. -/
theorem foldl_wf {β : Type} (f : State → β → State) (hf : ∀ s b, Memory.wf s.mem → Memory.wf (f s b).mem) (l : List β)
    (s : State) (h : Memory.wf s.mem) : Memory.wf (l.foldl f s).mem := by
  induction l generalizing s with
  | nil => exact h
  | cons b t ih => exact ih _ (hf s b h)

theorem upTo_wf (n : Nat) (f : Nat → State → State) (hf : ∀ i s, Memory.wf s.mem → Memory.wf (f i s).mem) (s : State)
    (h : Memory.wf s.mem) : Memory.wf (upTo n f s).mem := foldl_wf _ (fun s i => hf i s) _ s h

theorem correctedSource_mem (s : State) (w : Nat) : (correctedSource s w).2.mem = s.mem := by
  unfold correctedSource; split <;> rfl

theorem healRead_mem (c : Option Nat) (a n : Nat) (s : State) : (healRead c a n s).mem = s.mem := by
  refine foldl_mem _ (fun s w => ?_) _ s
  split
  · cases c
    · rfl
    · simp [correctedSource_mem]
  · rfl

theorem injectInto_mem (w : Nat) (s : State) : (injectInto w s).2.mem = s.mem := by
  unfold injectInto
  dsimp only
  split
  · exact State.setCf_mem _ _ _ _ _ _
  · rfl

theorem dropLine_mem (a : Nat) (s : State) : (dropLine a s).mem = s.mem := by
  unfold dropLine
  split
  · rfl
  · exact foldl_mem (fun s (e : Nat × Ecc) => s.setEcc e.1 e.2) (fun _ _ => rfl) _ _

theorem useWay_mem (w a : Nat) (s : State) : (useWay w a s).mem = s.mem := rfl
theorem countBad_mem (a n : Nat) (s : State) : (countBad a n s).mem = s.mem := rfl
theorem fillWay_mem (core : Option Nat) (w a : Nat) (s : State) : (fillWay core w a s).mem = s.mem := by
  unfold fillWay
  dsimp only
  rw [useWay_mem, State.setLines_mem, countBad_mem, healRead_mem]

theorem reportCorrected_mem (core : Option Nat) (s : State) : (reportCorrected core s).mem = s.mem := by
  cases core <;> rfl

theorem settleLine_mem (core : Option Nat) (a n : Nat) (l : Line) (s : State) : (settleLine core a n l s).mem = s.mem := by
  unfold settleLine
  dsimp only
  split
  · rfl
  · split
    · rw [fillWay_mem, dropLine_mem, reportCorrected_mem]; rfl
    · refine (foldl_mem _ (fun s e => ?_) _ _).trans rfl
      split
      · rfl
      · exact reportCorrected_mem _ _
      · rfl

theorem cleanLine_mem (l : Line) (s : State) : (cleanLine l s).mem = s.mem := by
  unfold cleanLine
  split
  · have h : ∀ (ws : List Nat) (acc : List (Nat × Ecc) × State),
        (ws.foldl (fun (acc : List (Nat × Ecc) × State) w =>
          let i := injectInto w acc.2
          (if i.1 = .clean then acc.1 else acc.1 ++ [(w, i.1)], i.2)) acc).2.mem = acc.2.mem := by
      intro ws
      induction ws with
      | nil => intro acc; rfl
      | cons w t ih => intro acc; rw [List.foldl_cons, ih]; exact injectInto_mem w acc.2
    simp [h, settleLine_mem]
  · rfl

theorem evictLine_mem (l : Line) (s : State) : (evictLine l s).mem = s.mem := by
  simp [evictLine, dropLine_mem, cleanLine_mem]

/-- Discarding a dirty line writes GDDR6's bytes back over it: the form is kept. -/
theorem discardLine_wf (l : Line) (s : State) (h : Memory.wf s.mem) : Memory.wf (discardLine l s).mem := by
  unfold discardLine
  dsimp only
  split
  · refine foldl_wf (fun s (e : Nat × Ecc) => s.setEcc e.1 e.2) (fun _ _ hs => hs) _ _ (poke_wf _ _ _ ?_)
    rwa [dropLine_mem]
  · rwa [dropLine_mem]

theorem markDirty_mem (a : Nat) (s : State) : (markDirty a s).mem = s.mem := rfl

theorem fillLine_mem (core a : Nat) (s : State) : (fillLine core a s).mem = s.mem := by
  unfold fillLine
  dsimp only
  split
  · exact fillWay_mem _ _ _ _
  · split
    · exact fillWay_mem _ _ _ _
    · split
      · rfl
      · split
        · rw [fillWay_mem, evictLine_mem]
        · rfl

theorem fillSub_mem (req a : Nat) (s : State) : (fillSub req a s).mem = s.mem := by
  unfold fillSub
  dsimp only
  split
  · exact fillWay_mem _ _ _ _
  · split
    · exact fillWay_mem _ _ _ _
    · split
      · rfl
      · rw [fillWay_mem]; exact foldl_mem _ (fun s l => evictLine_mem l s) _ s

theorem settleTags_mem (a : Nat) (s : State) : (settleTags a s).mem = s.mem := by
  unfold settleTags
  dsimp only
  split
  · rfl
  · split
    · rw [controlledStop_mem]; rfl
    · rfl

theorem touchLine_mem (c : Nat) (write load : Bool) (a n : Nat) (s : State) : (touchLine c write load a n s).mem = s.mem := by
  have miss : ∀ (u : State), (if ((fillLine c a u).lineAt a).isSome then fillLine c a u
      else countBad a n (fillLine c a u)).mem = u.mem := by
    intro u
    split
    · exact fillLine_mem _ _ _
    · exact fillLine_mem c a u
  unfold touchLine
  dsimp only
  cases write
  · simp only [Bool.false_eq_true, if_false]
    split
    · rw [settleLine_mem]; exact settleTags_mem a s
    · rw [miss]
      split <;> exact settleTags_mem a s
  · simp only [if_true, markDirty_mem]
    split
    · exact settleTags_mem a s
    · rw [miss]
      split <;> exact settleTags_mem a s

theorem reachMem_mem (c : Nat) (write load : Bool) (key n : Nat) (s : State) :
    (reachMem c write load key n s).mem = s.mem := by
  unfold reachMem
  split
  · exact touchLine_mem _ _ _ _ _ _
  · rfl

theorem settle_mem (core : Option Nat) (a n : Nat) (s : State) : (settle core a n s).mem = s.mem := by
  unfold settle
  split
  · refine foldl_mem _ (fun s la => ?_) _ s
    dsimp only
    split
    · rw [settleLine_mem, settleTags_mem]
    · exact settleTags_mem _ _
  · rfl

theorem privTouch_mem (req : Nat) (write : Bool) (a n : Nat) (s : State) : (privTouch req write a n s).mem = s.mem := by
  refine foldl_mem _ (fun s la => ?_) _ s
  cases write
  · simp only [Bool.false_eq_true, if_false]
    split
    · exact (settleLine_mem _ _ _ _ _).trans (settleTags_mem _ _)
    · exact (fillSub_mem _ _ _).trans (settleTags_mem _ _)
  · simp only [if_true, markDirty_mem]
    split
    · exact settleTags_mem _ _
    · exact (fillSub_mem _ _ _).trans (settleTags_mem _ _)

theorem privRead_mem (req a n : Nat) (s : State) : (privRead req a n s).2.mem = s.mem := by
  unfold privRead
  dsimp only
  split
  · exact privTouch_mem _ _ _ _ _
  · rw [healRead_mem, privTouch_mem]

theorem writeWord_wf (a : Nat) (bs : List Byte) (w : Nat) (s : State) (h : Memory.wf s.mem) :
    Memory.wf (writeWord a bs w s).mem := by
  have hr : Memory.wf (healRead none w 8 s).mem := by rwa [healRead_mem]
  have hp : ∀ (p : State) (x : Nat) (l : List Byte), Memory.wf p.mem →
      Memory.wf (if ((p.poke x l).setEcc w .clean |>.lineAt w).isSome then (p.poke x l).setEcc w .clean
        else (injectInto w ((p.poke x l).setEcc w .clean)).2.setEcc w (injectInto w ((p.poke x l).setEcc w .clean)).1).mem := by
    intro p x l hp
    split
    · exact poke_wf _ _ _ hp
    · rw [State.setEcc_mem, injectInto_mem]
      exact poke_wf _ _ _ hp
  unfold writeWord
  dsimp only
  split
  · split
    · exact hp _ _ _ h
    · exact hp _ _ _ hr
  · exact h

theorem memWrite_wf (a : Nat) (bs : List Byte) (s : State) (h : Memory.wf s.mem) : Memory.wf (memWrite a bs s).mem := by
  unfold memWrite
  split
  · refine foldl_wf _ (fun s w hs => writeWord_wf a bs w s hs) _ _ ?_
    exact foldl_wf (fun s la => s.modLine la (fun l =>
      { l with errs := l.errs.filter (fun e => !(decide (a ≤ e.1) && decide (e.1 < a + bs.length))) }))
      (fun s la hs => by rwa [State.modLine_mem]) _ s h
  · exact foldl_wf (fun s w => s.setEcc w .clean) (fun _ _ hs => hs) _ _ (poke_wf _ _ _ h)

theorem dmaWrite_wf (a : Nat) (bs : List Byte) (s : State) (h : Memory.wf s.mem) : Memory.wf (dmaWrite a bs s).mem := by
  unfold dmaWrite
  dsimp only
  refine memWrite_wf _ _ _ ?_
  split
  · refine foldl_wf _ (fun s l hs => ?_) _ s h
    have ht : Memory.wf (settleTags l s).mem := by rwa [settleTags_mem]
    split
    · exact ht
    · exact ht
  · exact h

/-- A reset that empties part of memory keeps the form. -/
theorem filter_mem_wf (p : Nat × Byte → Bool) (m : Tbl Byte) (h : Memory.wf m) : Memory.wf (m.filter p) :=
  Tbl.filter_canon _ p m h

end Sys2Proof.Machine
end

