-- ==== Sys2Proof/Laws/Deck.lean ====
section
/-! SUPPORT. What one instruction of a deck core can do (deckRun): nothing, a fault of the core, a completion, or an event; and what
its fetch leaves alone. -/

namespace Sys2Proof.Machine

theorem OnlyCore.modCore_count (s : State) (c : Nat) (f : Core → Core) (die u n : Nat) :
    OnlyCore s ((s.modCore c f).count die u n) c :=
  ⟨fun d h => by simpa using s.core_modCore_ne h f, rfl⟩

theorem CountsOne.count (s : State) (die u : Nat) : CountsOne s (s.count die u 1) (1024 * die + u) := by
  intro v
  show Tbl.at (Tbl.upd (die * 1024 + u) (Tbl.at s.snap.count (die * 1024 + u) + BitVec.ofNat 64 1) s.snap.count) v = _
  rw [Tbl.at_upd, Nat.mul_comm die 1024]
  by_cases h : v = 1024 * die + u
  · simp [h]
  · simp [h]

/-- A core that does not execute changes nothing. -/
theorem deckRun_asleep {s : State} {c : Nat} (h : awake s c = false) (advance mts : Bool) (body : State → Eff) :
    deckRun c advance mts body s = s := by
  simp [deckRun, h]

/-- A core whose registers or pipeline hold an uncorrectable error faults (R600). -/
theorem deckRun_broken {s : State} {c : Nat} (h : awake s c = true) (hb : (s.core c).broken = true) (advance mts : Bool)
    (body : State → Eff) : deckRun c advance mts body s = deckCoreFault c 3 s := by
  simp [deckRun, h, hb]

/-- A core that executes and fetches without an event does its instruction's own part, on its woken core. -/
theorem deckRun_ready {s : State} {c : Nat} (h : Ready s c) (advance mts : Bool) (body : State → Eff) :
    deckRun c advance mts body s =
      match body (s.woken c) with
      | .done t =>
        (if advance then t.modCore c (fun k => { k with pc := k.pc + 4 }) else t).count (c / 8) (32 * (c % 8)) 1
      | .trap e t => syncEvent c mts e t := by
  obtain ⟨ha, hb, hf, hd⟩ := h
  unfold deckRun
  rw [if_neg (by simp [ha]), if_neg (by simp [hb])]
  change (match fetchFault (s.started c) c with
    | some e => syncEvent c false e (s.started c)
    | none =>
      match fetch c (s.started c) with
      | .trap e t => syncEvent c false e t
      | .done s =>
        match body s with
        | .done t =>
          (if advance then t.modCore c (fun k => { k with pc := k.pc + 4 }) else t).count (c / 8) (32 * (c % 8)) 1
        | .trap e t => syncEvent c mts e t) = _
  rw [hf, hd]

/-- The checks of the fetch raise its own event. -/
theorem deckRun_fetchFault {s : State} {c : Nat} {e : Ev} (h : awake s c = true) (hb : (s.core c).broken = false)
    (hf : fetchFault (s.started c) c = some e) (advance mts : Bool) (body : State → Eff) :
    deckRun c advance mts body s = syncEvent c false e (s.started c) := by
  unfold deckRun
  rw [if_neg (by simp [h]), if_neg (by simp [hb])]
  change (match fetchFault (s.started c) c with
    | some e => syncEvent c false e (s.started c)
    | none =>
      match fetch c (s.started c) with
      | .trap e t => syncEvent c false e t
      | .done s =>
        match body s with
        | .done t =>
          (if advance then t.modCore c (fun k => { k with pc := k.pc + 4 }) else t).count (c / 8) (32 * (c % 8)) 1
        | .trap e t => syncEvent c mts e t) = _
  rw [hf]

/-! What a fetch leaves alone. -/

theorem freshNat_cores (s : State) : s.freshNat.2.cores = s.cores := rfl
theorem fillIcache_cores (s : State) (c l : Nat) : (s.fillIcache c l).cores = s.cores := rfl
theorem fillIcache_mem (s : State) (c l : Nat) : (s.fillIcache c l).mem = s.mem := rfl

/-- The state an instruction's own part, or a fetch, leaves, be it with an event or without. -/
def Eff.state : Eff → State
  | .done t => t
  | .trap _ t => t

/-- A fetch changes no byte of memory, and of the cores no more than their reports and notices. -/
theorem fetch_keeps (s : State) (c : Nat) : KeepsCores s (fetch c s).state ∧ (fetch c s).state.mem = s.mem := by
  unfold fetch
  by_cases h : fetchHit s c = true
  · rw [if_pos h]; exact ⟨.refl s, rfl⟩
  · rw [if_neg h]
    dsimp only
    have hc : KeepsCores s (s.count (c / 8) (32 * (c % 8) + 2) 1) := .of_cores (State.count_cores _ _ _ _)
    generalize hu : s.count (c / 8) (32 * (c % 8) + 2) 1 = u at hc ⊢
    have hm : u.mem = s.mem := by rw [← hu, State.count_mem]
    have filled : KeepsCores s (u.fillIcache c (fetchLine u c)) ∧ (u.fillIcache c (fetchLine u c)).mem = s.mem :=
      ⟨hc.trans (.of_cores (fillIcache_cores _ _ _)), (fillIcache_mem _ _ _).trans hm⟩
    cases locate u c (u.core c).pc.toNat with
    | mem key =>
      have ht := hc.trans (reachMem_keeps c false false key 4 u)
      have htm := (reachMem_mem c false false key 4 u).trans hm
      dsimp only
      split
      · exact ⟨ht, htm⟩
      · exact ⟨(ht.trans (healRead_keeps (some c) key 4 _)).trans (.of_cores (fillIcache_cores _ _ _)),
          (fillIcache_mem _ _ _).trans ((healRead_mem (some c) key 4 _).trans htm)⟩
    | rom off => exact filled
    | page f d off => exact filled
    | absent => exact filled

theorem woken_eq (s : State) (c : Nat) : s.woken c = (fetch c (s.started c)).state := by
  unfold State.woken Eff.state
  cases fetch c (s.started c) <;> rfl
theorem started_core (s : State) (c : Nat) : (s.started c).core c = { s.core c with run := .running } :=
  s.core_modCore c _
theorem woken_keeps (s : State) (c : Nat) : KeepsCores (s.started c) (s.woken c) := by
  rw [woken_eq]; exact (fetch_keeps _ c).1
theorem woken_mem (s : State) (c : Nat) : (s.woken c).mem = s.mem := by
  rw [woken_eq]; exact (fetch_keeps _ c).2
/-- A fetch that raises no event is the one the woken core has made. -/
theorem fetch_done {s : State} {c : Nat} (h : (match fetch c (s.started c) with
    | .done _ => true
    | .trap _ _ => false) = true) : fetch c (s.started c) = .done (s.woken c) := by
  unfold State.woken
  cases hf : fetch c (s.started c) with
  | done t => rfl
  | trap e t => rw [hf] at h; exact absurd h Bool.false_ne_true
/-- The core that has fetched, but for its report and its notices, is the one that began. -/
theorem woken_own (s : State) (c : Nat) : ((s.woken c).core c).own = { (s.core c).own with run := .running } := by
  rw [woken_keeps s c c, started_core]; rfl
/-- Where the instruction cache holds the word, the fetch changes nothing. -/
theorem woken_of_hit {s : State} {c : Nat} (h : fetchHit (s.started c) c = true) : s.woken c = s.started c := by
  unfold State.woken fetch
  rw [if_pos h]

theorem setCore_setCore (s : State) (c : Nat) (k k' : Core) (t : State)
    (h : t = { s with cores := Tbl.upd c k' (Tbl.upd c k s.cores) }) : t.core c = k' := by
  subst h; exact Tbl.at_upd_self c k' _

/-- An instruction that rewrites its core completes, and moves pc on by 4. -/
theorem deckCore_completes {s : State} {c : Nat} (h : Ready s c) (f : Core → Core) :
    Completes (s.woken c) (deckCore c f s) c
      { f ((s.woken c).core c) with pc := (f ((s.woken c).core c)).pc + 4 } := by
  have e : deckCore c f s =
      (((s.woken c).modCore c f).modCore c (fun k => { k with pc := k.pc + 4 })).count (c / 8) (32 * (c % 8)) 1 := by
    simp [deckCore, deckRun_ready h]
  rw [e]
  refine ⟨?_, ⟨fun d hd => ?_, rfl⟩, ?_⟩
  · simp
  · rw [State.core_count, State.core_modCore_ne _ hd, State.core_modCore_ne _ hd]
  · exact CountsOne.count (((s.woken c).modCore c f).modCore c (fun k => { k with pc := k.pc + 4 })) (c / 8) (32 * (c % 8))

/-- An instruction that rewrites its core and its pc completes. -/
theorem deckRun_jump {s : State} {c : Nat} (h : Ready s c) (mts : Bool) (f : Core → Core) :
    Completes (s.woken c) (deckRun c false mts (fun s => .done (s.modCore c f)) s) c (f ((s.woken c).core c)) := by
  have e : deckRun c false mts (fun s => .done (s.modCore c f)) s =
      ((s.woken c).modCore c f).count (c / 8) (32 * (c % 8)) 1 := by
    simp [deckRun_ready h]
  rw [e]
  refine ⟨?_, ⟨fun d hd => ?_, rfl⟩, ?_⟩
  · simp
  · rw [State.core_count, State.core_modCore_ne _ hd]
  · exact CountsOne.count ((s.woken c).modCore c f) (c / 8) (32 * (c % 8))

/-- Taking an event from a state: what the core's registers then hold, and that nothing else changes (R74). -/
theorem takeEvent_takes (s : State) (c : Nat) (e : Ev) :
    TakesEvent s (takeEvent c e (s.core c).pc s) c e.cause e.eaddr e.einfo := by
  refine ⟨?_, ⟨fun d hd => ?_, rfl⟩, ?_⟩
  · simp [takeEvent]
  · simpa [takeEvent] using s.core_setCore_ne hd _
  · have := CountsOne.count (s.setCore c { s.core c with
      run := .running
      epc := (s.core c).pc
      estatus := BitVec.ofNat 64 ((s.core c).level.code + (s.core c).status.toNat % 4 * 4)
      cause := BitVec.ofNat 64 e.cause
      eaddr := e.eaddr
      einfo := e.einfo
      level := if (s.core c).level = .boot then .boot else .supervisor
      status := 2
      pc := (s.core c).evbase + BitVec.ofNat 64 (0x80 * e.cause) }) (c / 8) (32 * (c % 8) + 4)
    rw [← Nat.add_assoc] at this
    exact this

end Sys2Proof.Machine
end

