-- ==== Sys2Proof/Laws/Device.lean ====
section
/-! SUPPORT. What a device operation can do (deviceOp): an event before its own part, or an answer in rd. -/

namespace Sys2Proof.Machine

/-- Registers, rights and regions are those of the core that began: its fetch leaves them alone. -/
theorem r_woken (s : State) (c : Nat) (i : BitVec 5) : ((s.woken c).core c).r i = (s.core c).r i :=
  have h := congrArg (fun k : Core => k.r i) (woken_own s c)
  h
theorem barAllows_woken (s : State) (c g : Nat) : barAllows ((s.woken c).core c) g = barAllows (s.core c) g :=
  have h := congrArg (fun k : Core => barAllows k g) (woken_own s c)
  h
theorem spanFault_woken (s : State) (c : Nat) (sp : Span) : spanFault ((s.woken c).core c) sp = spanFault (s.core c) sp :=
  have h := congrArg (fun k : Core => spanFault k sp) (woken_own s c)
  h

theorem findSome_none {α β : Type} (f : α → Option β) (l : List α) (h : ∀ x ∈ l, f x = none) : l.findSome? f = none :=
  List.findSome?_eq_none_iff.2 h

/-- An operation that passes its checks does its own part on the woken core and answers. -/
theorem deviceOp_answers {s : State} {c xop xmod : Nat} {spans : State → Nat → Nat → List Span} {ra rb : BitVec 5}
    (h : MayIssue s c xop xmod (spans (s.woken c) ((s.core c).r ra).toNat ((s.core c).r rb).toNat)) (rd : BitVec 5)
    (body : State → Nat → Nat → Ans) :
    deviceOp c rd ra rb xop xmod spans body s =
      match body (s.woken c) ((s.core c).r ra).toNat ((s.core c).r rb).toNat with
      | .ok v t => answered c rd (okWord v) t
      | .fail st d t => answered c rd (failWord st d) t := by
  obtain ⟨hr, hb, hx, hs⟩ := h
  unfold deviceOp
  rw [deckRun_ready hr]
  simp only [hb, hx, r_woken, Bool.not_true, Bool.false_eq_true, if_false]
  rw [findSome_none _ _ hs]
  cases body (s.woken c) ((s.core c).r ra).toNat ((s.core c).r rb).toNat <;> rfl

/-- The same of an operation without memory operands. -/
theorem plainOp_answers {s : State} {c xop xmod : Nat} (h : MayIssue s c xop xmod []) (rd ra rb : BitVec 5)
    (body : State → Nat → Nat → Ans) :
    plainOp c rd ra rb xop xmod body s =
      match body (s.woken c) ((s.core c).r ra).toNat ((s.core c).r rb).toNat with
      | .ok v t => answered c rd (okWord v) t
      | .fail st d t => answered c rd (failWord st d) t :=
  deviceOp_answers (spans := fun _ _ _ => []) h rd body

/-- What rd then holds, and that no other register does (R104). -/
theorem answered_rd (c : Nat) (rd : BitVec 5) (v : Word) (s : State) : ((answered c rd v s).core c).r rd = v := by
  simp [answered, endOp, Core.setR, Core.r]

end Sys2Proof.Machine
end

