-- ==== Sys2Proof/Laws/Symbols.lean ====
section
/-! SUPPORT. Laws of the frame's code (R157, R158): scrambling undoes itself, and the codeword of any information word
satisfies every check. -/

namespace Sys2Proof.Machine

/-- Scrambling twice gives the codeword in clear. -/
@[simp] theorem scramble_scramble (pfa : Nat) (c : Nat → Bool) : scramble pfa (scramble pfa c) = c := by
  funext n
  simp [scramble]

/-- An information column of a codeword is the information word's. -/
theorem columnTerm_info (info : Nat → Bool) (r x j : Nat) (h : j < 68) :
    columnTerm (codeword info) r x j = columnTerm info r x j := by
  unfold columnTerm
  cases circulant r j with
  | none => rfl
  | some s =>
    have : 512 * j + (x + s) % 512 < 34816 := by omega
    simp [codeword, this]
/-- So is any sum of them. -/
theorem checkSum_info (info : Nat → Bool) (r x : Nat) : ∀ n, n ≤ 68 →
    checkSum (codeword info) r x n = checkSum info r x n
  | 0, _ => rfl
  | n + 1, h => by simp only [checkSum, checkSum_info info r x n (by omega), columnTerm_info info r x n (by omega)]
/-- A sum with one more column. -/
theorem checkSum_succ (c : Nat → Bool) (r x n : Nat) :
    checkSum c r x (n + 1) = Bool.xor (checkSum c r x n) (columnTerm c r x n) := rfl
/-- Column 68 of a codeword. -/
theorem columnTerm_first (info : Nat → Bool) (r x : Nat) (hx : x < 512) :
    columnTerm (codeword info) r x 68 =
      if r = 0 ∨ r = 11 then parityFirst info ((x + 1) % 512) else if r = 6 then parityFirst info x else false := by
  have h1 : (x + 1) % 512 < 512 := Nat.mod_lt _ (by omega)
  have h2 : (x + 0) % 512 = x := by omega
  unfold columnTerm
  by_cases ha : r = 0 ∨ r = 11
  · have e : circulant r 68 = some 1 := by simp [circulant, ha]
    have : ¬ 34816 + (x + 1) % 512 < 34816 := by omega
    have h3 : 34816 + (x + 1) % 512 < 35328 := by omega
    simp [e, ha, codeword, h3]
  · by_cases hb : r = 6
    · subst hb
      have e : circulant 6 68 = some 0 := by decide
      have h3 : 34816 + x < 35328 := by omega
      simp [e, codeword, h3, Nat.mod_eq_of_lt hx]
    · have e : circulant r 68 = none := by simp [circulant, ha, hb]
      simp [e, ha, hb]
/-- Columns 69 to 79 of a codeword. -/
theorem columnTerm_next (info : Nat → Bool) (r x k : Nat) (hx : x < 512) :
    columnTerm (codeword info) r x (69 + k) = if r = k ∨ r = k + 1 then parityNext info x k else false := by
  have n1 : ¬ 69 + k < 68 := by omega
  have n2 : ¬ 69 + k = 68 := by omega
  unfold columnTerm
  by_cases ha : r = k ∨ r = k + 1
  · have e : circulant r (69 + k) = some 0 := by
      have : r + 69 = 69 + k ∨ r + 68 = 69 + k := by omega
      simp [circulant, n1, n2, this]
    have h1 : ¬ 512 * (69 + k) + x < 34816 := by omega
    have h2 : ¬ 512 * (69 + k) + x < 35328 := by omega
    have h3 : (512 * (69 + k) + x) % 512 = x := by omega
    have h4 : (512 * (69 + k) + x) / 512 - 69 = k := by omega
    simp [e, ha, codeword, h1, h2, h3, h4, Nat.mod_eq_of_lt hx]
  · have e : circulant r (69 + k) = none := by
      have : ¬ (r + 69 = 69 + k ∨ r + 68 = 69 + k) := by omega
      simp [circulant, n1, n2, this]
    simp [e, ha]

/-- The sum of a codeword's check, its parity columns written out. -/
theorem unsatisfied_codeword (info : Nat → Bool) (r x : Nat) (hx : x < 512) :
    unsatisfied (codeword info) r x =
      (List.range 11).foldl (fun a k => Bool.xor a (if r = k ∨ r = k + 1 then parityNext info x k else false))
        (Bool.xor (checkSum info r x 68)
          (if r = 0 ∨ r = 11 then parityFirst info ((x + 1) % 512) else if r = 6 then parityFirst info x else false)) := by
  have e : ∀ k, columnTerm (codeword info) r x (69 + k) = if r = k ∨ r = k + 1 then parityNext info x k else false :=
    fun k => columnTerm_next info r x k hx
  have s : ∀ k, checkSum (codeword info) r x (69 + k) =
      (List.range k).foldl (fun a k => Bool.xor a (if r = k ∨ r = k + 1 then parityNext info x k else false))
        (checkSum (codeword info) r x 69) := by
    intro k
    induction k with
    | zero => simp only [Nat.add_zero, List.range_zero, List.foldl_nil]
    | succ k ih =>
      rw [show 69 + (k + 1) = (69 + k) + 1 by omega, checkSum, ih, e, List.range_succ, List.foldl_append]
      rfl
  have f : checkSum (codeword info) r x (68 + 1) = _ :=
    (checkSum_succ (codeword info) r x 68).trans
      (congrArg₂ Bool.xor (checkSum_info info r x 68 (Nat.le_refl 68)) (columnTerm_first info r x hx))
  exact (s 11).trans (congrArg (fun b => (List.range 11).foldl
    (fun a k => Bool.xor a (if r = k ∨ r = k + 1 then parityNext info x k else false)) b) f)
/-- The codeword of any information word satisfies every check (R158). -/
theorem codeword_satisfies (info : Nat → Bool) (r x : Nat) (hr : r < 12) (hx : x < 512) :
    unsatisfied (codeword info) r x = false := by
  rw [unsatisfied_codeword info r x hx]
  have hp : parityFirst info x = (List.range 12).foldl (fun a r => Bool.xor a (checkSum info r x 68)) false := rfl
  generalize hq : parityFirst info ((x + 1) % 512) = q
  generalize hpx : parityFirst info x = p at hp
  have h0 : parityNext info x 0 = Bool.xor (checkSum info 0 x 68) q := by rw [← hq]; rfl
  have hs : ∀ k, parityNext info x (k + 1) =
      Bool.xor (Bool.xor (checkSum info (k + 1) x 68) (parityNext info x k)) (if k + 1 = 6 then p else false) := by
    intro k; rw [← hpx]; rfl
  have h1 := hs 0
  have h2 := hs 1
  have h3 := hs 2
  have h4 := hs 3
  have h5 := hs 4
  have h6 := hs 5
  have h7 := hs 6
  have h8 := hs 7
  have h9 := hs 8
  have h10 := hs 9
  simp only [Nat.zero_add, Nat.reduceAdd, Nat.reduceEqDiff, if_true, if_false, Bool.xor_false] at h1 h2 h3 h4 h5 h6 h7 h8 h9 h10
  by_cases h11 : r = 11
  · subst h11
    simp only [List.range, List.range.loop, List.foldl] at hp ⊢
    simp only [Nat.reduceEqDiff, Nat.reduceAdd, OfNat.ofNat_ne_zero, or_true, if_true, if_false, or_false, Bool.xor_false,
      h10, h9, h8, h7, h6, h5, h4, h3, h2, h1, h0]
    rw [hp]
    obtain ⟨S, hS⟩ : ∃ S : Nat → Bool, ∀ k, checkSum info k x 68 = S k := ⟨_, fun _ => rfl⟩
    simp only [hS]
    clear h0 h1 h2 h3 h4 h5 h6 h7 h8 h9 h10 hs hq hpx hp
    generalize S 0 = a0, S 1 = a1, S 2 = a2, S 3 = a3, S 4 = a4, S 5 = a5, S 6 = a6, S 7 = a7, S 8 = a8, S 9 = a9, S 10 = a10,
      S 11 = a11
    revert a0 a1 a2 a3 a4 a5 a6 a7 a8 a9 a10 a11 q
    decide +kernel
  · clear hp hs
    have hr' : r < 11 := by omega
    simp only [List.range, List.range.loop, List.foldl]
    interval_cases r
    · simp [h0]
    · simp [h1]
    · simp [h2]
    · simp [h3]
    · simp [h4]
    · simp [h5]
    · simp only [h6]; cases p <;> simp
    · simp [h7]
    · simp [h8]
    · simp [h9]
    · simp [h10]

end Sys2Proof.Machine
end

