-- ==== Sys2Proof/Machine/Package.lean ====
section
/-! DEFINITION. The package and the electrical limits (R22, R33, R35, R409, R492, R627 to R637, R641 to R643, R645 to R651): what
stands at each ball, the pins at reset, and the limits as figures. They bind the board, and no command reads them. -/

namespace Sys2Proof.Machine

/-! The balls (R645 to R651). Rows and columns count from 0; a ball's name starts its columns at 1. -/

/-- The letters that name rows, in order: I, O, Q, R, S, X and Z are left out (R646). -/
def rowLetters : List Char :=
  ['A', 'B', 'C', 'D', 'E', 'F', 'G', 'H', 'J', 'K', 'L', 'M', 'N', 'P', 'T', 'U', 'V', 'W', 'Y']
/-- Name of a row of the 57: one letter, or A or B before one (R646). -/
def rowName (row : Nat) : String :=
  (if row < 19 then "" else if row < 38 then "A" else "B") ++ String.singleton (rowLetters.getD (row % 19) 'A')
/-- Name of a ball (R646). -/
def ballName (row col : Nat) : String := rowName row ++ toString (col + 1)

/-- Groups of signal balls (R647). -/
inductive BallGroup where
  | control | pcie | ring
  | fdie (slice : Nat)
  | gddr (cdie : Nat)
  deriving DecidableEq, Repr, Inhabited
/-- What stands at a ball: a signal by its group and its place in the group's order, a rail, or none (R647 to R650). -/
inductive Ball where
  | signal (g : BallGroup) (n : Nat)
  | power (rail : String)
  | reserved
  | vss
  deriving DecidableEq, Repr, Inhabited
/-- The regions: group, first and last row, first and last column (R647). -/
def regions : List (BallGroup × Nat × Nat × Nat × Nat) :=
  [(.control, 0, 1, 0, 7), (.pcie, 0, 4, 21, 27), (.ring, 0, 1, 49, 52), (.fdie 0, 3, 16, 0, 13), (.fdie 1, 17, 30, 0, 13),
   (.fdie 2, 3, 16, 43, 56), (.fdie 3, 17, 30, 43, 56), (.gddr 0, 51, 56, 3, 27), (.gddr 1, 51, 56, 29, 53),
   (.gddr 2, 45, 50, 3, 27), (.gddr 3, 45, 50, 29, 53)]
/-- Balls of a region. -/
def regionSize (r : BallGroup × Nat × Nat × Nat × Nat) : Nat := (r.2.2.1 + 1 - r.2.1) * (r.2.2.2.2 + 1 - r.2.2.2.1)
/-- Whether a ball lies within rows r0 to r1 and columns c0 to c1. -/
def inBlock (row col r0 r1 c0 c1 : Nat) : Bool := decide (r0 ≤ row) && decide (row ≤ r1) && decide (c0 ≤ col) && decide (col ≤ c1)
/-- The rail or the reserve of a ball outside every region (R650). -/
def powerBall (row col : Nat) : Ball :=
  let at_ := inBlock row col
  if at_ 19 37 16 40 && (row + col + 1) % 2 == 0 then .power "VCORE"
  else if at_ 17 18 16 39 then .power "VSRAM"
  else if at_ 2 2 28 43 then .power "VIO18"
  else if at_ 15 16 16 31 then .power "VANA"
  else if at_ 14 14 16 31 then .power "VANA33"
  else if at_ 44 44 3 26 || at_ 44 44 29 52 then .power "VDDQ"
  else if at_ 5 5 21 32 then .power "PCIe 0.85 V"
  else if at_ 6 6 21 28 then .power "PCIe 1.2 V"
  else if at_ 3 30 14 14 || at_ 3 30 42 42 then .power "VIN"
  else if at_ 3 30 15 15 || at_ 3 30 41 41 then .power "PGND"
  else if at_ 2 2 0 1 then .power "VBAT"
  else if at_ 0 0 8 20 || at_ 0 0 28 48 || at_ 1 1 8 19 then .reserved
  else .vss
/-- What stands at a ball: the signals fill their region row by row in ascending column (R647, R650). -/
def ballAt (row col : Nat) : Ball :=
  match regions.find? (fun r => inBlock row col r.2.1 r.2.2.1 r.2.2.2.1 r.2.2.2.2) with
  | some r => .signal r.1 ((row - r.2.1) * (r.2.2.2.2 + 1 - r.2.2.2.1) + (col - r.2.2.2.1))
  | none => powerBall row col
/-- Every ball of the grid. -/
def allBalls : List Ball := (List.range 57).flatMap (fun r => (List.range 57).map (fun c => ballAt r c))

/-- Signals of the control group, in order (R648). -/
def controlSignals : List String :=
  ["SYS_RST_N", "STRUCK_N", "TAMP_LID", "QSPI_SCK", "QSPI_CS_N", "QSPI_IO0", "QSPI_IO1", "QSPI_IO2",
   "QSPI_IO3", "SMB_CLK", "SMB_DAT", "TCK", "TMS", "TDI", "TDO", "TRST_N"]
/-- Signals of the ring group, in order (R648). -/
def ringSignals : List String :=
  ["HAL_A_RX_P", "HAL_A_RX_N", "HAL_A_TX_P", "HAL_A_TX_N", "HAL_B_RX_P", "HAL_B_RX_N", "HAL_B_TX_P", "HAL_B_TX_N"]
/-- Signals of the PCIe group, in order (R649). -/
def pcieSignals : List String :=
  (List.range 8).flatMap (fun n => ["PET" ++ toString n ++ "_P", "PET" ++ toString n ++ "_N", "PER" ++ toString n ++ "_P",
    "PER" ++ toString n ++ "_N"]) ++ ["REFCLK_P", "REFCLK_N", "PERST_N"]
/-- Signals of one GDDR6 channel, in order (R649). -/
def gddrChannel : List String :=
  (List.range 16).map (fun n => "DQ" ++ toString n) ++ ["DBI0_N", "DBI1_N", "EDC0", "EDC1"] ++
  (List.range 10).map (fun n => "CA" ++ toString n) ++ ["CABI_N", "CKE_N", "WCK0_T", "WCK0_C", "WCK1_T", "WCK1_C"]
/-- Signals of a C-die's GDDR6 group, in order, with their device and channel (R649). -/
def gddrSignals : List (Nat × Option Nat × String) :=
  (List.range 2).flatMap (fun d => (List.range 2).flatMap (fun c => gddrChannel.map (fun n => (d, some c, n))) ++
    ["CK_T", "CK_C", "RESET_N"].map (fun n => (d, none, n)))
/-- Runs of an F-die's group, in order: what they carry and how many balls (R649). -/
def fdieRuns : List (String × Nat) :=
  [("head 0 data inputs", 24), ("head 0 servo inputs", 12), ("head 1 data inputs", 24), ("head 1 servo inputs", 12),
   ("LD0_0 to LD0_11, LD_RTN0", 14), ("LD1_0 to LD1_11, LD_RTN1", 14), ("MON0_0 to MON0_11, MON_RTN0", 13),
   ("MON1_0 to MON1_11, MON_RTN1", 13), ("SV_LD_EN_0, SV_LD_EN_1", 2), ("voice coils, head 0", 6), ("voice coils, head 1", 6),
   ("sled, head 0", 8), ("sled, head 1", 8), ("aberration, head 0", 4), ("aberration, head 1", 4), ("SP_GH_U, V, W", 3),
   ("SP_GL_U, V, W", 3), ("SP_SW_U, V, W", 3), ("SP_BST_U, V, W", 3), ("SP_CSU_P, SP_CSU_N, SP_CSV_P, SP_CSV_N", 4),
   ("SP_VT_U, V, W", 3), ("SP_CP_H, SP_CP_L", 2), ("shock and accelerometer", 8), ("TRAY_N, CLAMP_N, SAFE_N", 3)]
/-- Whether a die's balls are connected inside the package of a part with n slices (R651). -/
def groupPresent (n : Nat) : BallGroup → Bool
  | .fdie k => decide (k < n)
  | .gddr k => decide (k < n)
  | .control => true
  | .pcie => true
  | .ring => true

/-! The pins at reset (R638). -/

/-- What a pin does of itself. -/
inductive PinState where
  | highZ | pullUp | pullDown | low
  deriving DecidableEq, Repr, Inhabited
/-- A listed pin's state in reset and with the device unpowered (R638); STRUCK_N in reset is as R508 drives it. -/
def pinStates : List (String × PinState × PinState) :=
  [("SYS_RST_N", .pullUp, .highZ), ("PERST_N", .highZ, .highZ), ("QSPI_CS_N", .pullUp, .highZ), ("QSPI_SCK", .pullDown, .highZ),
   ("QSPI_IO0", .pullUp, .highZ), ("QSPI_IO1", .pullUp, .highZ), ("QSPI_IO2", .pullUp, .highZ), ("QSPI_IO3", .pullUp, .highZ),
   ("TCK", .pullDown, .highZ), ("TRST_N", .pullDown, .highZ), ("TMS", .pullUp, .highZ), ("TDI", .pullUp, .highZ),
   ("TDO", .highZ, .highZ), ("TRAY_N", .pullUp, .highZ), ("CLAMP_N", .pullUp, .highZ), ("SAFE_N", .highZ, .highZ),
   ("SV_LD_EN_0", .low, .pullDown), ("SV_LD_EN_1", .low, .pullDown)]

/-! Ratings and levels, in mV, mA, °C and ps unless a name says otherwise. -/

/-- Ratings: item, least and greatest (R627). -/
def ratings : List (String × Option Int × Int) :=
  [("VIN", some (-300), 22000), ("VBAT", some (-300), 4300), ("VCORE", some (-300), 950), ("PCIe 0.85 V", some (-300), 950),
   ("VSRAM", some (-300), 1050), ("VIO18", some (-300), 2100), ("VANA", some (-300), 2100), ("VANA33", some (-300), 3900),
   ("VDDQ", some (-300), 1600), ("PCIe 1.2 V", some (-300), 1600), ("SMB_CLK", some (-300), 3900), ("SMB_DAT", some (-300), 3900),
   ("SP_SW", some (-2000), 22000), ("SP_GH to SP_SW", some (-300), 13000), ("junction", none, 135), ("storage", some (-40), 125)]
/-- Greatest voltage of a 1.8 V pin, and of an analogue input, by their rails (R627). -/
def pinRating (vio18 : Int) : Int := min (vio18 + 300) 2100
def analogueRating (vana33 : Int) : Int := vana33 + 300
/-- ESD: human body model, charged device model, V (R627). -/
def esdRating : Nat × Nat := (2000, 250)
/-- Whether the figures hold at a modelled temperature of a die, °C, below its shutdown threshold (R628). -/
def figuresHold (celsius shutdown : Int) : Bool := decide (-10 ≤ celsius) && decide (celsius < shutdown)
/-- Greatest rail currents: of a C-die, an F-die, and what the lead adds (R629). -/
def railCurrents : List (String × Nat × Nat × Nat) :=
  [("VCORE", 9330, 2000, 1200), ("VSRAM", 1760, 240, 0), ("VIO18", 170, 60, 170), ("VANA", 110, 1390, 0), ("VANA33", 0, 210, 0),
   ("VDDQ", 1110, 0, 0), ("PCIe 0.85 V", 0, 0, 1410), ("PCIe 1.2 V", 0, 0, 500)]
/-- Greatest current of a rail for a part of n slices (R629). -/
def railMaximum (n : Nat) (r : String × Nat × Nat × Nat) : Nat := n * (r.2.1 + r.2.2.1) + r.2.2.2
/-- Typical rail currents of a ZOA-880 at 25 °C: FURLED, and with every die in reset (R629). -/
def railIdle : List (String × Nat × Nat) :=
  [("VCORE", 3000, 2600), ("VSRAM", 500, 500), ("VIO18", 200, 150), ("VANA", 200, 200), ("VANA33", 10, 20), ("VDDQ", 200, 50),
   ("PCIe 0.85 V", 100, 50), ("PCIe 1.2 V", 50, 20)]
/-- VIN current of a slice: FURLED, a typical read, a typical write, the continuous maximum and the peak up to 1 ms (R631). -/
def vinCurrents : List Nat := [5, 900, 1200, 3500, 6000]
/-- What a VIO18 pin reads at a level: low, high, or neither (R632). -/
def readsPin (vio18 v : Int) : Option Bool :=
  if v * 100 ≤ vio18 * 35 then some false else if vio18 * 65 ≤ v * 100 then some true else none
/-- What a VIO18 pin drives at 4 mA: the greatest low level, the least high level; its leakage, µA; its weak pull, kΩ: least,
typical, greatest (R632). -/
def drivesLow : Int := 450
def drivesHigh (vio18 : Int) : Int := vio18 - 450
def pinLeakage : Nat := 10
def weakPull : Nat × Nat × Nat := (35, 50, 75)
/-- STRUCK_N and SAFE_N: the level they sink 4 mA at, and the highest pull-up (R632). -/
def openDrain : Nat × Nat := (400, 3600)
/-- What an SMBus pin reads (R636). -/
def readsSmb (v : Int) : Option Bool := if v ≤ 800 then some false else if 1350 ≤ v then some true else none
/-- SMBus: the low level driven at 4 mA, the highest bus voltage, and the rates, kHz (R636). -/
def smbusLevels : Nat × Nat × List Nat := (400, 3600, [100, 400])
/-- REFCLK: greatest swing and least high level, mV; edge rate, V/µs, and duty cycle, per cent, least and greatest; phase jitter,
fs (R633). -/
def refclkInput : (Nat × Nat) × (Nat × Nat) × (Nat × Nat) × Nat := ((850, 600), (600, 4000), (40, 60), 150)
/-- The quad-SPI port: clock period, output valid from and to, input setup and hold, and the select's high time, ps (R634). -/
def flashTiming : Nat × (Nat × Nat) × (Nat × Nat) × Nat := (10000, (500, 3000), (1500, 500), 20000)
/-- The flash commands the device uses beside SFDP and status polling: quad read, quad program, sector erase (R634). -/
def flashCommands : List Nat := [0xEC, 0x34, 0xDC]
/-- The flash: least size and sector size, bytes (R634). -/
def flashSize : Nat × Nat := (64 * 2 ^ 20, 64 * 2 ^ 10)
/-- The accelerometer port: SHK_MOSI and SHK_CS_N before the sampling edge, SHK_MISO before and after it, ps (R635). -/
def accelTiming : Nat × Nat × Nat := (5000, 10000, 5000)
/-- JTAG: greatest TCK, kHz; setup and hold of TMS and TDI, and TDO after the falling edge, ps (R637). -/
def jtagTiming : Nat × (Nat × Nat) × Nat := (25000, (5000, 5000), 12000)
/-- The states of a JTAG port that matter to TDO, which is driven in the two shift states only (R637). -/
inductive TapState where
  | shiftDr | shiftIr | other
  deriving DecidableEq, Repr, Inhabited
def tdoDriven (t : TapState) : Bool := decide (t ≠ .other)
/-- Whether REFCLK is in range: its frequency in kHz against 100 MHz ±300 ppm, with down-spread of up to 0.5 % (R35). -/
def refclkGood (kHz : Nat) : Bool := decide (99470 ≤ kHz) && decide (kHz ≤ 100030)
/-- PLL outputs of R33: GDDR6 WCK in MHz; PCIe, die-link and ring lanes in MT/s; the AON oscillator in Hz. -/
def clockOutputs : List (String × Nat) :=
  [("WCK", 8000), ("PCIe", 32000), ("die link", 16000), ("ring", 5000), ("AON", 32768)]
/-- Loss in tenths of a dB of hops and bypasses between two retiming packages, and whether the receiver bears it (R552, R641). -/
def ringLoss (hops bypasses : Nat) : Nat := 15 * hops + 30 * bypasses
def ringLossGood (bypasses : Nat) : Bool := decide (ringLoss (bypasses + 1) bypasses ≤ 200)
/-- A ring port: TX swing least and greatest and RX sensitivity, mV; RX termination, Ω; the loss it bears, tenths of a dB; the
series capacitors, nF (R641). -/
def ringPort : (Nat × Nat) × Nat × Nat × Nat × Nat := ((800, 1100), 120, 100, 200, 100)
/-- A closed bypass: greatest insertion loss and least return loss, tenths of a dB; delay and the skew it adds, ps (R641). -/
def closedBypass : Nat × Nat × Nat × Nat := (30, 100, 150, 10)
/-- Bridges: rated current, trip, and on-resistance at 100 °C in mΩ (R643). -/
def bridgeRatings : List (String × Nat × Nat × Nat) :=
  [("voice coil", 600, 750, 1000), ("sled", 1200, 1500, 600), ("aberration", 300, 375, 2500)]
/-- Highest anode voltage of a laser driver at a current (R642). -/
def laserCompliance (vin mA : Int) : Int := if mA ≤ 60 then vin - 400 else vin - 500
/-- A laser driver: greatest current, mA; transition, ps, and the step it holds for, mA; edge placement, ps either way (R642). -/
def laserDriver : Nat × (Nat × Nat) × Nat := (180, (200, 120), 15)
/-- Loads of the bridges: least and greatest resistance, mΩ, and inductance, µH (R643). -/
def bridgeLoads : List (String × (Nat × Nat) × (Nat × Nat)) :=
  [("voice coil", (4000, 20000), (0, 1000)), ("sled", (1500, 6000), (1000, 5000)), ("aberration", (5000, 30000), (0, 5000))]
/-- The gate driver: gate voltage and its tolerance, the VIN it holds for, mV; bootstrap and charge-pump capacitors, nF; the
greatest gate charge of a MOSFET, nC (R643). -/
def gateDriver : (Nat × Nat) × (Nat × Nat) × (Nat × Nat) × Nat := ((10000, 1000), (4500, 18000), (100, 220), 60)
/-- Draw of the AON domain from VBAT, µA: typical and greatest with the rails absent, greatest with VIO18 present (R492). -/
def aonDraw : Nat × Nat × Nat := (10, 25, 1)

end Sys2Proof.Machine
end

