-- ==== Sys2Proof/Machine/Reference.lean ====
section
/-! DEFINITION. What the rules have firmware and the loop programs compute (R232, R236 to R258, R268 to R291), what the
bridges do with it (R293), and the ranges of the rails and of the boundary temperature
(R488, R644). A program reaches the device as loop instructions and stores; these are its formulas and bounds. -/

namespace Sys2Proof.Machine

/-! Focus and tracking. -/

/-- Highest te_wi that firmware may set, from the measured slope of tm in codes per nm (R232). -/
def teWiLimit (slope : Rat) : Nat := (25 * slope).floor.toNat
/-- Whether firmware may arm a head that will write (R232). -/
def mayArm (s : State) (k h : Nat) (slope : Rat) : Bool :=
  decide (s.ff k (0x2100 + 8 * h) 23 12 ≤ teWiLimit slope) && decide (s.ff k (0x2100 + 8 * h) 49 48 = 3)
/-- Bound of a tracking pull-in, ns, by the spindle speed in rpm and whether the runout table is in force (R238). -/
def pullInBound (rpm : Nat) (table : Bool) : Nat := if table then 2000000 else 30000000000 / rpm + 500000
/-- Bound of one sweep attempt of a focus acquisition, ns (R236). -/
def sweepBound (rpm : Nat) : Nat := 4000000 + 25000000 + pullInBound rpm false + 320000
/-- Layer whose S-curve a sweep meets n-th, from 0: the entrance surface is not counted (R236). -/
def curveLayer (n : Nat) : Nat := 3 - n
/-- The drive holds no readable disc: so many sweeps without a closed loop (R236). -/
def noReadableDisc (sweeps : Nat) : Bool := decide (3 ≤ sweeps)
/-- The set-point offsets of rung 2, nm (R239). -/
def setPoints : List Int := (List.range 11).map (fun i => (10 * i : Int) - 50)
/-- Bounds of a layer change over n layers, ns: the wanted layer's focus closed, and the whole of it (R243). -/
def layerChangeBound (n : Nat) : Nat × Nat := (1900000 + 100000 * n, 4320000)
/-- Bounds of a recovery, ns: of tok with the table in force, of fok, and what a layer change then adds (R255). -/
def recoveryBound : Nat × Nat × Nat := (2251000, 20000000, 5000000)

/-- The zone of a band in the tilt map (R248). -/
def tiltZone (band : Nat) : Nat := band / 256
/-- The tilt output: the map's entry and the integral of the push-pull, lens shift taken off (R248). -/
def tiltOutput (entry ki ks : Rat) (terms : List (Rat × Rat)) : Rat := entry + ki * (terms.map (fun t => t.1 - ks * t.2)).sum
/-- Entry i of the runout table of an engine (R249). -/
def runoutEntry (s : State) (k e i : Nat) : Int := dmemInt (s.engine k e).r.dmem (0x2000 + 4 * (i % 4096))
/-- Feed-forward at a disc angle: the entry a lead ahead, interpolated toward the next; held while there is no angle or ffen is
0 (R249). -/
def feedForward (t : Nat → Int) (angle : Word32) (lead : Nat) (ffen : Bool) (last : Rat) : Rat :=
  if angle = 0x8000_0000 ∨ !ffen then last
  else
    let i := bitsOf angle.toNat 30 19 + lead
    let a : Rat := t (i % 4096)
    let b : Rat := t ((i + 1) % 4096)
    a + (b - a) * (bitsOf angle.toNat 18 0 : Nat) / 524288
/-- What an entry learns from a feedback: nothing while there is no angle or ffen is 0 (R249, R251). -/
def learn (entry fb : Int) (shift : Nat) (angle : Word32) (ffen : Bool) : Int :=
  if angle = 0x8000_0000 ∨ !ffen then entry else (saturate (entry + fb / 2 ^ shift)).1.toInt
/-- Whether a learning run has converged over a revolution: its feedback against the table, or against the rated current
(R251). -/
def converged (fbs table : List Int) : Bool :=
  let sq : List Int → Int := fun l => (l.map (fun x => x * x)).sum
  decide (sq fbs * 10000 * (table.length : Int) ≤ 225 * sq table * (fbs.length : Int)) ||
    decide (sq fbs * 250000 ≤ 4611686018427387904 * (fbs.length : Int))
/-- Shift of learning: 4 in a run, 10 after it (R251). -/
def learnShift (run : Bool) : Nat := if run then 4 else 10
/-- Bound from a shock to read power, ns: the analogue path, and the digital one with a poll period and a burst (R252). -/
def shockBound (poll burst : Nat) : Nat × Nat := (200 + 1500, poll + burst + 1500)
/-- A loop's output with the shock channel fed forward (R252). -/
def shockForward (out gain sample : Rat) : Rat := out + gain * sample

/-! The spindle. -/

/-- W current from those of U and V (R258). -/
def phaseW (u v : Int) : Int := -(u + v)
/-- Full scale of a phase current in mA, by the shunt in mΩ (R180, R258). -/
def currentScale (s : State) (k : Nat) (shunt : Rat) : Rat := senseRange s k * 1000 / shunt
/-- A change of speed by dv, rpm, within limits a, rpm/s, and j, rpm/s², takes t seconds (R269). -/
def rampTakes (dv a j t : Rat) : Bool :=
  if a * a / j ≤ dv then decide (t = a / j + dv / a) else decide (0 ≤ t) && decide (t * t * j = 4 * dv)
/-- Limits of acceleration and jerk of a change from one speed to another (R268). -/
def rampLimits (old new : Nat) : Rat × Rat := if old ≤ new then (3000, 6000) else (6000, 12000)
/-! The steppers. -/

/-- Radius of a head's optical axis with the lens at its spring centre, µm (R278). -/
def sledRadius (s : State) (k h : Nat) : Rat :=
  (axisParam s k h 28 4 : Nat) + ((s.axis k h).pos : Rat) * 75 / 128
/-- A move of d microsteps within speed v, acceleration a and jerk j takes t seconds (R282). -/
def moveTakes (d v a j t : Rat) : Bool :=
  if v * (v / a + a / j) ≤ d then decide (t = d / v + v / a + a / j)
  else if 2 * a * a * a / (j * j) ≤ d then
    let vp := (t / 2 - a / j) * a
    decide (0 ≤ vp) && decide (vp * (vp / a + a / j) = d)
  else decide (0 ≤ t) && decide (t * t * t * (2 * j) = 64 * d)
/-- Mixed decay of a stepper bridge, as a share of the off-time, and its blanking in ns (R293). -/
def decayShare (s : State) (k : Nat) (sled : Bool) : Rat × Nat :=
  (((if sled then s.ff k 0x2030 5 0 else s.ff k 0x2030 13 8 : Nat) : Rat) / 64, 500 * (s.ff k 0x2030 17 16 + 1))

/-! The board. -/

/-- The rails and their ranges, mV (R488). -/
def rails : List (String × Nat × Nat) :=
  [("VIN", 4500, 18000), ("VBAT", 2000, 3600), ("VCORE", 728, 773), ("VSRAM", 825, 876), ("VIO18", 1710, 1890),
   ("VANA", 1746, 1854), ("VANA33", 3200, 3400)]
/-- Highest boundary temperature, °C, at which a part of n slices keeps out of throttle in mode m (R644). -/
def ambientLimit (n m : Nat) : Int :=
  let slice : Rat := min 18 (((modeBudget m : Rat) / 100 - 3) / n)
  let lead := (thresholds 0).2.1 - 6 - 4 * (slice * 7 / 12 + 3)
  let fdie := (thresholds 4).2.1 - 6 - 7 * (slice * 5 / 12)
  (min lead fdie).floor

end Sys2Proof.Machine
end

