-- ==== Sys2Proof/Tests/Slice0.lean ====
section
/-! SUPPORT. Tests of the model on small states: ill-formed commands are refused, the hypotheses of every obligation are met by
a state and operands named here, and single steps give what the spec's tables and examples say. -/

namespace Sys2Proof.Tests

open Sys2Proof.Machine

set_option Elab.async false

/-! Small states. -/

/-- The device with core 0 as given. -/
def withCore (k : Core) : State := { State.reset with cores := [(0, k)] }
/-- Regions that open everything to Supervisor and Task. -/
def openRegions : Vector Word 64 := (Vector.replicate 64 0).set 0 0xFE8
/-- A core at a level, running in its own memory. -/
def coreAt (l : Level) : Core := { run := .running, level := l, pc := 0x10_0000, rgnAttr := openRegions, bar := 0x1FFF_1FFF }
def supervisor : State := withCore (coreAt .supervisor)
def task : State := withCore (coreAt .task)
/-- A Supervisor core with registers 1 and 2. -/
def withArgs (x y : Word) : State := withCore (((coreAt .supervisor).setR 1 x).setR 2 y)

/-- The state a command leaves. -/
def after (i : Instr) (s : State) : State :=
  match exec i s with
  | .next t => t
  | _ => s

/-! Ill-formed commands, one for each check, and the largest well-formed places. -/

theorem test_ill_formed_agents :
    [Instr.mulhu 32 0 0 0 0 false, .add (.deck 32) 0 0 0 0 false, .add (.loop 4 0) 0 0 0 0 false,
     .add (.loop 0 9) 0 0 0 0 false, .slotend 4 0, .slotend 0 9].all (fun i => !i.wf) = true := by decide
theorem test_ill_formed_places :
    [Instr.paramPost 0 8, .deferTimeReached 16384, .thermalModelStep 8 [], .sledMoveForm 0 2, .calDataOffset 0 0 12,
     .stepperMove 0 4, .bridgeOvercurrent 0 6, .bridgeOvercurrent 0 16, .fifoFlush 0 9, .formReceived 2 [] false,
     .getVersion 2 [], .loanResend 32, .vdsTrip 0 3, .safetySequenceStage 0 0, .safetySequenceStage 0 5, .tamperEvent 8,
     .laneFailure 8 0 0, .deleteIoSq [], .jtagInstruction (.halt 32), .jtagInstruction (.resume 32)].all
      (fun i => !i.wf) = true := by decide
theorem test_well_formed_places :
    [Instr.mulhu 31 0 0 0 0 false, .add (.deck 31) 0 0 0 0 false, .add (.loop 3 8) 0 0 0 0 false, .paramPost 3 7,
     .deferTimeReached 16383, .thermalModelStep 7 [], .calDataOffset 3 1 11, .stepperMove 3 3, .bridgeOvercurrent 3 15,
     .fifoFlush 3 8, .formReceived 1 [] false, .getVersion 1 [], .loanResend 31, .vdsTrip 3 2, .safetySequenceStage 3 4,
     .tamperEvent 7, .laneFailure 7 1 0, .deleteIoSq (List.replicate 64 0), .jtagInstruction (.halt 31)].all Instr.wf =
      true := by decide

/-! Deck cores (R44 to R90). -/

theorem witness_deck_instructions : Ready State.reset 0 ∧ Ready supervisor 0 ∧ Ready task 0 := by
  and_intros <;> first | decide +kernel | exact fetch_done (by decide +kernel)
/-- R53: division by 0, and the most negative number by -1. -/
theorem test_division_corners :
    let run := fun (f : BitVec 5 → BitVec 5 → BitVec 5 → BitVec 3 → Bool → Instr) (x y : Word) =>
      ((after (f 3 1 2 0 false) (withArgs x y)).core 0).r 3
    run (.divs 0) 7 0 = -1 ∧ run (.rems 0) 7 0 = 7 ∧ run (.divu 0) 7 0 = -1 ∧ run (.divs 0) (2 ^ 63) (-1) = 2 ^ 63 ∧
      run (.rems 0) (2 ^ 63) (-1) = 0 ∧ run (.divs 0) (-7) 2 = -3 ∧ run (.rems 0) (-7) 2 = -1 := by decide +kernel
theorem test_mulhs_is_signed :
    ((after (.mulhs 0 3 1 2 0 false) (withArgs (-1) 2)).core 0).r 3 = -1 ∧
      ((after (.mulhu 0 3 1 2 0 false) (withArgs (-1) 2)).core 0).r 3 = 1 := by decide
/-- R55: JMPR with rd = ra jumps to the old ra. -/
theorem test_jmpr_links_after_reading :
    let k := (after (.jmpr 0 1 1 0 false) (withArgs 0x20_0003 0)).core 0
    k.pc = 0x20_0000 ∧ k.r 1 = 0x10_0004 := by decide
theorem witness_special_registers :
    Ready supervisor 0 ∧ (supervisor.core 0).level ≠ .task ∧ Ready State.reset 0 ∧ (State.reset.core 0).level = .boot ∧
      State.reset.sealed = false := by
  and_intros <;> first | decide +kernel | exact fetch_done (by decide +kernel)
theorem witness_traps :
    Ready task 0 ∧ flag ((task.woken 0).core 0).status 1 = false ∧ ((task.woken 0).core 0).level = .task ∧
      (0x1800_0000#32).toNat / 2 ^ 26 = 0x06 ∧ (0x00F#12).toNat = 0x00F ∧ (1#12).toNat = 1 ∧ (9#12).toNat = 9 := by
  and_intros <;> first | decide +kernel | exact fetch_done (by decide +kernel)
/-- A Supervisor core whose timer compare has passed, and one that rings itself. -/
def ringing : State := withCore { coreAt .supervisor with timecmp := 0, evmask := 0xFF, status := 1, dbPend := 1 }
theorem witness_eret_wfe :
    Ready supervisor 0 ∧ fld ((supervisor.woken 0).core 0).estatus 1 0 = 0 ∧ enabledPending (supervisor.woken 0) 0 = [] ∧
      Ready ringing 0 ∧ enabledPending (ringing.woken 0) 0 ≠ [] ∧ (State.reset.core 0).level = .boot ∧
      flag (task.core 0).status 1 = false := by
  and_intros <;> first | decide +kernel | exact fetch_done (by decide +kernel)
/-- A core whose next word its instruction cache holds, one whose fetch meets an uncorrectable word, and one with an error of its
own. -/
def cached : State := { supervisor with icache := [(0, [Config.icacheLine 0x0100_0000])] }
def tainted : State := { supervisor with ecc := [(0x0100_0000, .bad)] }
def ailing : State := withCore { coreAt .supervisor with broken := true }
theorem witness_fetch :
    fetchHit (cached.started 0) 0 = true ∧ Ready cached 0 ∧ cached.woken 0 = cached.started 0 := by
  have h : fetchHit (cached.started 0) 0 = true := by
    show List.contains [Config.icacheLine 0x0100_0000] (Config.icacheLine 0x0100_0000) = true
    simp
  refine ⟨h, ⟨by decide, by decide, by decide, ?_⟩, woken_of_hit h⟩
  rw [woken_of_hit h]
  unfold fetch
  rw [if_pos h]
theorem witness_fetch_faults :
    awake tainted 0 = true ∧ (tainted.core 0).broken = false ∧ fetchFault (tainted.started 0) 0 = none ∧
      fetchHit (tainted.started 0) 0 = false ∧
      locate (tainted.started 0) 0 ((tainted.started 0).core 0).pc.toNat = .mem 0x0100_0000 ∧
      tainted.hasBad 0x0100_0000 4 = true ∧ flag (tainted.core 0).status 1 = false ∧ awake ailing 0 = true ∧
      (ailing.core 0).broken = true := by decide +kernel
/-- A core that waits in a WFE for its timer. -/
def waiting : State := withCore { coreAt .supervisor with run := .wfe, timecmp := 0, evmask := 1 }
theorem witness_async_event :
    awake ringing 0 = true ∧ (ringing.core 0).broken = false ∧ flag (ringing.core 0).status 0 = true ∧ (enabledPending ringing 0).head?.isSome = true ∧
      0 < 8 * waiting.nslices ∧ waiting.stopped = false ∧ (waiting.core 0).run = .wfe ∧
      (waiting.core 0).timecmp.toNat ≤ 4 * waiting.now ∧ flag (waiting.core 0).evmask 0 = true := by decide
/-- A core whose register 1 points at its own memory, and 2 at GDDR6 held in the cache. -/
def pointing : State :=
  { withArgs 0x10_1000 0x10_0000_0080 with cache := { lines := [{ die := 0, way := 0, addr := 0x10_0000_0080 }] } }
theorem witness_loads_and_stores :
    Ready pointing 0 ∧ ((pointing.woken 0).core 0).execs 0 false = true ∧
    (∀ kind ∈ [Kind.load, .store, .atomic], accessFault (pointing.woken 0) 0 kind 0x10_1000 8 = none ∧
      accessFault (pointing.woken 0) 0 kind 0x10_0000_0080 8 = none) ∧
    accessFault (pointing.woken 0) 0 .store 0x1100_0058 8 = none ∧ locate (pointing.woken 0) 0 0x1100_0058 = .page false 0 0x58 ∧
    guarded false 0 0x58 = false ∧ locate (pointing.woken 0) 0 0x10_1000 = .mem 0x0100_1000 ∧ memKind 0x0100_1000 ≠ 3 ∧
    locate (pointing.woken 0) 0 0x10_0000_0080 = .mem 0x10_0000_0080 ∧ TagsStand (pointing.woken 0) 0x10_0000_0080 ∧
    (∀ write load, (reachMem 0 write load 0x0100_1000 8 (pointing.woken 0)).hasBad 0x0100_1000 8 = false ∧
      (reachMem 0 write load 0x10_0000_0080 8 (pointing.woken 0)).hasBad 0x10_0000_0080 8 = false) := by
  and_intros <;> first | decide +kernel | exact fetch_done (by decide +kernel)
/-- R6, R57: a store of four bytes, read back a byte at a time. -/
theorem test_store_is_little_endian :
    let s := withArgs 0x10_1000 0x8765_4321
    let t := { after (.st 0 2 1 2 0) s with icache := [] }
    ((after (.ld 0 3 1 0 false 3) t).core 0).r 3 = 0xFFFF_FFFF_FFFF_FF87 ∧
      ((after (.ld 0 3 1 0 true 0) t).core 0).r 3 = 0x21 ∧ t.byte 0x0100_1004 = 0 := by decide
/-- R58: AMOCAS stores only on equality, and returns the old value sign-extended. -/
theorem test_amocas :
    let s := withArgs 0x10_1000 0x8000_0000
    let t := { after (.amocas 0 3 1 2 0 false false false false) s with icache := [] }
    let u := after (.amocas 0 3 1 1 0 false false false false) t
    t.num 0x0100_1000 4 = 0x8000_0000 ∧ (t.core 0).r 3 = 0 ∧ u.num 0x0100_1000 4 = 0x8000_0000 ∧
      (u.core 0).r 3 = 0xFFFF_FFFF_8000_0000 := by decide
/-- Accesses that fault: misaligned, outside every region, at an absent place, of an uncorrectable word, and of protected
registers. -/
def poisoned : State := { pointing with ecc := [(0x10_0000_0080, .bad), (0x0100_1000, .bad)] }
theorem witness_access_faults :
    let closed := withCore ({ run := .running, level := .supervisor, pc := 0x10_0000,
                              rgnAttr := (Vector.replicate 64 0).set 0 0xFE0 })
    let fault := fun (s : State) (kind : Kind) (a n : Nat) => ((accessFault (s.woken 0) 0 kind a n).map Ev.cause)
    Ready supervisor 0 ∧ flag ((supervisor.woken 0).core 0).status 1 = false ∧ fault supervisor .load 0x10_0001 2 = some 3 ∧
      fault closed .load 0x1_0000_0000 8 = some 5 ∧ fault supervisor .load 0x20_0000 8 = some 0x0E ∧
      fault supervisor .store 0x10_0001 2 = some 3 ∧ fault closed .store 0x1_0000_0000 8 = some 6 ∧
      fault supervisor .store 0x20_0000 8 = some 0x0E ∧ 0x40 ≤ (0x40#12).toNat ∧ (0xC0#12).toNat ≤ 0xC0 ∧
      ((supervisor.woken 0).core 0).level ≠ .boot ∧ Ready poisoned 0 ∧
      (reachMem 0 false true 0x0100_1000 8 (poisoned.woken 0)).hasBad 0x0100_1000 8 = true ∧
      (reachMem 0 true false 0x10_0000_0080 4 (poisoned.woken 0)).hasBad 0x10_0000_0080 4 = true ∧
      locate (supervisor.woken 0) 0 0x1100_E018 = .page false 0 0xE018 ∧ guarded false 0 0xE018 = true := by
  and_intros <;> first | decide +kernel | exact fetch_done (by decide +kernel)
/-- R74, R71: a misaligned store of a core at Task level. -/
theorem test_misaligned_store_event :
    let t := after (.st 0 2 1 2 1) (withCore ((coreAt .task).setR 1 0x10_1000))
    let k := t.core 0
    k.cause = 3 ∧ k.eaddr = 0x10_1001 ∧ k.einfo = 1 ∧ k.level = .supervisor ∧ k.status = 2 ∧ k.pc = 0x180 ∧
      k.epc = 0x10_0000 ∧ k.estatus = 0 := by decide

/-! Loop engines (R93 to R102, R196 to R226). -/

/-- Engine 0 of slice 0 as given, at a tick. -/
def withEngine (now : Nat) (x : Engine) : State := { State.reset with now := now, engines := [(0, x)] }
/-- An engine that executes its slot, with two registers. -/
def looping (x y : Word32) : State :=
  withEngine 1 { inSlot := true, slotFrame := some 0, r := (({} : LoopRegs).setR 1 x).setR 2 y }
theorem witness_loop_instructions :
    loopAwake (looping 1 2) 0 0 = true ∧ (15#5).toNat ≤ 15 ∧ (3#3).toNat ≤ 3 ∧ (31#6).toNat ≤ 31 ∧ (1#2).toNat ≤ 1 ∧
      (2#2) ≠ 3 := by decide
/-- R95: -1 times -1 saturates, half an LSB rounds up, and the wrap of an accumulator sets ovf. -/
theorem test_fixed_point_corners :
    let q := fun (x y : Word32) => (after (.qmul 0 0 3 1 2 0 false) (looping x y)).engine 0 0
    (q 0x8000_0000 0x8000_0000).r.r 3 = 0x7FFF_FFFF ∧ (q 0x8000_0000 0x8000_0000).r.sat = true ∧
      (q 1 0x4000_0000).r.r 3 = 1 ∧ (q 1 0x3FFF_FFFF).r.r 3 = 0 ∧ (q (-1) 0x4000_0000).r.r 3 = 0 ∧
      (q 1 0x4000_0000).r.sat = false := by decide +kernel
/-- R99: a block whose address has low bits set, and one that goes past the end of data memory. -/
theorem witness_biq_blocks :
    loopAwake (looping 1 0x7FF3) 0 0 = true ∧ (0x7FF3 / 4 * 4 + 4 * 8) % 0x8000 = 0x10 := by decide
/-- R97: three passes of a body of two instructions. -/
theorem test_repeat_passes :
    let s := after (.repeat 0 0 2 1) (looping 0 0)
    let body := fun (s : State) => after (.addi (.loop 0 0) 2 2 1) (after (.addi (.loop 0 0) 1 1 1) s)
    let t := (body (body (body s))).engine 0 0
    t.pc = 3 ∧ t.r.r 1 = 3 ∧ t.r.r 2 = 3 ∧ t.rep = none ∧ t.cyc = 7 := by decide +kernel
/-- R93: a store at 0x7FFF wraps onto the aligned halfword at 0x7FFE, outside the parameter window. -/
theorem test_loop_store_aligns :
    let t := after (.stl 0 0 2 1 1 0) (looping 0x7FFF 0x1234)
    dmemNum (t.engine 0 0).r.dmem 0x7FFE 2 = 0x1234 ∧
      ((after (.ldl 0 0 3 1 1 false 0) t).engine 0 0).r.r 3 = 0x1234 := by decide +kernel
/-- An engine whose stores meet the last byte of the parameter window. -/
def fixedEnd : State := looping 0x77FF 0
theorem witness_loop_slot_io :
    let s := looping 1 2
    logicalOf s 0 0 = some 0 ∧ sampleChannel 0 = true ∧ (s.engine 0 0).cyc + 1 ≤ emitLimit 0 0 ∧ ownsChannel 0 0 = true ∧
      (s.engine 0 0).cyc + 1 ≤ emitLimit 0 0xF0 ∧ (s.engine 0 0).cyc + 1 ≤ slotLimit 0 ∧ ((fixedEnd.engine 0 0).r.r 1).toNat = 0x77FF ∧
      loopAwake fixedEnd 0 0 = true := by decide
theorem witness_slots_start_and_commit :
    let due := withEngine 120 { code := [0], slotFrame := some 0, emitted := [(0xC0, 7)] }
    let start := (withEngine 500 { code := [0], slotFrame := some 0 }).setCf 0 0x0200 16 16 1
    let spare := { (State.reset.setCf 0 0x5000 11 8 0) with now := 500, engines := [(8, { code := [0], takeover := true })] }
    logicalOf due 0 0 = some 0 ∧ commitPhase 0 ≤ slotElapsed due 0 ∧ isCrossbar 0xC0 = true ∧
      (due.engine 0 0).slotFrame = some (slotFirst due 0) ∧ (due.engine 0 0).modes = [] ∧ fdieDrives start 0 = true ∧ slotReady start 0 0 0 = true ∧ logicalOf spare 0 8 = some 0 ∧
      slotReady spare 0 8 0 = true ∧ (spare.engine 0 8).slotFrame = none ∧ physicalOf due 0 0 = 0 ∧
      due.eccAt (cAddr 0 0x1_0000) = .clean := by decide
theorem witness_engine_faults :
    let late := withEngine 480 { inSlot := true, slotFrame := some 0, code := [0] }
    let held := withEngine 20501 { code := [0], due := some 500 }
    spareFor late 0 = 15 ∧ late.cf 0 0x5000 12 12 = 0 ∧ slotLimit 0 ≤ slotElapsed late 0 ∧ (held.seq 0).run = false ∧
      (held.engine 0 (physicalOf held 0 0)).due = some 500 ∧ 500 + holdLimit 0 ≤ held.now := by decide

/-! Device operations (R103 to R140). -/

/-- Bytes put into the memory of core 0 at an address of its own memory. -/
def holding (bs : List Byte) (s : State) : State := s.poke 0x0100_1000 bs
/-- A loop image of one SLOTEND for engine 0 (R208). -/
def smallImage : List Byte :=
  leBytes 4 0x4D49_504C ++ leBytes 2 1 ++ leBytes 2 0 ++ leBytes 4 1 ++ leBytes 8 0 ++ leBytes 4 1758490990 ++
    leBytes 168 0 ++ leBytes 4 0xA800_3000
theorem test_small_image : loadRefusal 0 [] smallImage = none := by decide +kernel
theorem witness_loadl_and_xfer :
    let s := holding smallImage ((withArgs 0 0x10_1000).setCf 0 0x0200 16 16 1)
    let w := s.woken 0
    let barred := withCore { coreAt .supervisor with bar := 0 }
    let shut := withCore { (coreAt .supervisor).setR 2 0x1_0000_0000 with rgnAttr := (Vector.replicate 64 0).set 0 0xFE0 }
    Ready s 0 ∧ Ready shut 0 ∧ barAllows ((barred.woken 0).core 0) 7 = false ∧ Ready barred 0 ∧ barAllows (w.core 0) 7 = true ∧
      MayIssue s 0 0x11 0 (loadSpans 0 w 0 0x10_1000) ∧ placeOf w 0 0x10_1000 64 false = some 0x0100_1000 ∧
      placeOf w 0 0x10_1000 196 false = some 0x0100_1000 ∧ (readImage 0 0x0100_1000 w).1 = some smallImage ∧
      imageLen (w.bytes 0x0100_1000 64) = 196 ∧ fready w 0 = true ∧ MayIssue s 0 0x12 0 [] ∧ MayIssue s 0 0x12 1 [] ∧
      1 < (loopChannels 0).length ∧
      (w.engine 0 (physicalOf w 0 0)).fault = false ∧ (w.engine 0 (physicalOf w 0 0)).load = none ∧
      flag ((barred.woken 0).core 0).status 1 = false ∧
      ((loadSpans 0 (shut.woken 0) 0 0x1_0000_0000).findSome? (spanFault ((shut.woken 0).core 0))).isSome = true := by
  try dsimp only
  and_intros <;> first | decide +kernel | exact fetch_done (by decide +kernel)
/-! Buffers, commands and the budget (R109 to R124, R463 to R483). -/

/-- A buffer of slice 0 at index 1 owned by identities 0 and 40, and register 1 holding its handle. -/
def owning (owners : List Nat) : State := { withArgs 0x100 0 with bufs := [(1, { owners := owners })] }
theorem witness_buffer_operations :
    let s := owning [0, 40]
    MayIssue s 0 0 0 [] ∧ MayIssue s 0 1 0 [] ∧ MayIssue s 0 2 0 [] ∧ MayIssue s 0 3 0 [] ∧ s.down = false ∧ mayName 0 0 = true ∧ lowestFree s 0 = some 0 ∧ compatRefuses s 0 0 = false ∧
      handleOk s 0x100 = true ∧ (s.buf 0 1).gen.toNat = handleGen 0x100 ∧ 0 ∈ (s.buf 0 1).owners ∧
      (s.buf 0 1).owners.length < 4 ∧ 59 ∉ (s.buf 0 1).owners ∧ bufBusy s 0x100 = false ∧
      ((owning [0]).buf 0 1).owners = [0] ∧ (59#6).toNat < 60 ∧ s.cf 0 (0x3100 + 8 * 59) 14 0 < (0x7FFF#15).toNat := by
  try dsimp only
  and_intros <;> first | decide +kernel | exact fetch_done (by decide +kernel)
/-- R383: a minimum that lifts the sum past 28,640 is not taken and is marked. -/
theorem test_bp_min :
    let s := after (.bpMinWrite 0 3 28640) State.reset
    let t := after (.bpMinWrite 0 4 1) s
    s.cf 0 0x3118 14 0 = 28640 ∧ t.cf 0 0x3120 14 0 = 0 ∧ t.cf 0 0x3008 32 32 = 1 := by decide +kernel
/-- A slot 0 as given; register 1 points at a block in memory. -/
def withSlot (x : Slot) (bs : List Byte) (a b : Word) : State :=
  let s := holding bs (withArgs a b)
  { s with adm := { s.adm with slots := [(0, x)] } }
/-- A queued Read of drive 0, and the same taken by core 0. -/
def readSlot : Slot := { phase := .queued, sqid := 1, opcode := 2, d := 10000000, key := 10000000, nblocks := 1, hasRange := true }
def takenSlot : Slot := { readSlot with phase := .taken, takenBy := some 0 }
theorem witness_qtake_and_qdefer :
    let s := withSlot readSlot [] 0x10_1000 0
    let t := withSlot takenSlot [] 0 1
    let none' := withArgs 0x10_1000 0
    MayIssue s 0 0x04 0 [⟨0x10_1000, 128, false, true⟩] ∧ 0x10_1000 % 128 = 0 ∧
      placeOf (s.woken 0) 0 0x10_1000 128 true = some 0x0100_1000 ∧ nextCommand (s.woken 0) 0 = some (0, readSlot) ∧
      eligibleOn (none'.woken 0) 0 = [] ∧ MayIssue t 0 0x06 0 [] ∧ tagSlot (t.woken 0) 0 = .inl 0 ∧
      (t.slot 0).posting = false ∧ 1 < (t.slot 0).d ∧ (s.slot 0).notBefore ≤ s.time := by
  try dsimp only
  and_intros <;> first | decide +kernel | exact fetch_done (by decide +kernel)
/-- R119: the record of a command. -/
theorem test_qtake_record :
    let t := after (.qtake 0 3 1 2 0) (withSlot readSlot [] 0x10_1000 0)
    (t.slot 0).phase = .taken ∧ (t.core 0).r 3 = 0 ∧ t.num 0x0100_1040 4 = 0 ∧ t.num 0x0100_1044 2 = 1 ∧
      t.num 0x0100_1048 8 = 10000000 ∧ t.num 0x0100_1060 4 = 0xFFFF_FFFF ∧ t.num 0x0100_1064 4 = 1 := by decide +kernel
/-- A completion block for tag 0 with no list (R120). -/
def doneBlock : List Byte := leBytes 4 0 ++ leBytes 2 5 ++ leBytes 24 0
theorem witness_qdone :
    let s := withSlot takenSlot doneBlock 0x10_1000 0
    let w := s.woken 0
    let r := readOperand 0 0x0100_1000 28 w
    let ended : State := { s with adm := { s.adm with xfers :=
      [{ tag := 0, ctag := 5, core := 0, area := 0x10_0000_0000, post := true, status := 0, dw0 := 0, dw1 := 0, list := [] }] } }
    MayIssue s 0 0x05 0 (doneSpans 0 w 0x10_1000 0) ∧ MayIssue s 0 0x05 1 (doneSpans 0 w 0x10_1000 0) ∧
      placeOf w 0 0x10_1000 32 true = some 0x0100_1000 ∧ r.1.isSome = true ∧ leAt (r.1.getD []) 24 2 = 0 ∧
      leAt (r.1.getD []) 4 2 = 5 ∧ tagSlot r.2 0 = .inl 0 ∧ (r.2.slot 0).phase = .taken ∧ ended.adm.xfers.length = 1 ∧
      ended.tagOf 0 = 0 ∧ (ended.slot 0).live = true ∧ ended.eccAt (0x10_0000_0000 + 28) ≠ .bad ∧ CacheSound ended ∧
      leAt (r.1.getD []) 26 2 = 0 ∧ leAt (r.1.getD []) 6 2 % 2 = 0 := by
  try dsimp only
  and_intros <;> first | decide +kernel | exact fetch_done (by decide +kernel)
/-- R120, R147: the completion of a POST, and its tag. -/
theorem test_qdone_post_ends :
    let s := { after (.qdonePost 0 3 1 2 0) (withSlot takenSlot doneBlock 0x10_1000 0) with icache := [] }
    let t := after (.qdoneEnd 0 false 0 []) s
    (s.slot 0).posting = true ∧ (t.slot 0).phase = .ended ∧ (t.core 0).cq = [5] ∧ t.num 0x0100_101C 2 = 1 := by decide +kernel
theorem witness_budget :
    let s := { withArgs 1 0xFFFF_FFFF with adm := { heat := 10000, accounts := [(0, 10000)] } }
    let poor := withArgs 1 0xFFFF_FFFF
    let w := s.woken 0
    MayIssue s 0 0x07 0 [] ∧ MayIssue s 0 0x07 1 [] ∧ MayIssue s 0 0x08 0 [] ∧ MayIssue poor 0 0x07 0 [] ∧
      MayAccess s 0 .load false false 0 0xC800 false ∧ MayAccess s 0 .load true false 0 0xC800 false ∧ grantCheck w 1 noTag = 0 ∧
      grantOk 1 (grantKey w noTag) [] w = true ∧ grantOk 1 (grantKey w noTag) [] (poor.woken 0) = false ∧
      (10000 : Int) ≤ s.capHeat ∧ s.keepsSupply = false ∧ w.heldBy 0 noTag = 10000 ∧ s.adm.modeWait = none ∧
      s.adm.fixedHist.length < 1000 ∧ s.liveSlots = [] := by
  try dsimp only
  and_intros <;> first | decide +kernel | exact fetch_done (by decide +kernel)
/-- R37, R480: the pools of CLOSE-UP refill at 75 W less the fixed draw, 0.75 pennants each 100 µs with none drawn. -/
theorem test_pool_refill : (after .poolRefill State.reset).adm.heat = 7500 := by decide +kernel
theorem witness_admission_events :
    let s := withSlot { takenSlot with opcode := 1, fua := true } [] 0 0
    let late := { s with now := 4000000, adm := { s.adm with stagedW := [(0, 1)] } }
    let job := ((supervisor.setCf 0 0xA108 63 32 1).setReg (cAddr 0 0xA110) 10000000).setCf 0 0xA108 31 16 0
    (late.slot 0).live = true ∧ guardOf (late.slot 0).d ≤ late.time ∧ 0 < Tbl.at late.adm.stagedW 0 ∧
      drainPulls late 0 ≠ [] ∧ drainKey late 0 ≤ late.time ∧ Tbl.at late.adm.drainSeen 0 ≠ drainKey late 0 ∧
      MayAccess job 0 .store false false 0 0xA120 false ∧ job.cf 0 0xA108 1 0 = 0 ∧ job.cf 0 0xA108 15 2 = 0 ∧ job.time + 1000 ≤ 10000000 ∧ freeSlot job = some 0 ∧
      timeTest (job.started 0) ⟨0, false, 0x100, 0, 0, false, false, 1, 0⟩ 10000000 = true ∧
      energyTest (job.started 0) ⟨0, false, 0x100, 0, 0, false, false, 1, 0⟩ 10000000 = true ∧
      (∀ e ∈ late.liveSlots, guardOf e.2.d = guardOf (late.slot 0).d → (late.slot 0).order ≤ e.2.order) := by decide +kernel
/-- R477: a job whose cost does not fit before its deadline is answered 5. -/
theorem test_job_refused :
    let t := after (.jobRequest 0 false) (State.reset.setCf 0 0xA108 63 32 1)
    t.cf 0 0xA128 3 0 = 5 ∧ t.adm.jobsRefused = 1 := by decide +kernel

/-! Snapshots, the cache, the map and CHOP (R125 to R138, R346 to R373). -/

theorem witness_snapshots :
    let s := withArgs 5 0
    let ring := { (((withArgs 5 0).setCf 0 0xF008 2 0 2).setCf 0 0xF008 17 17 1).setCf 0 0xF010 31 0 3 with now := 10 }
    let near := ring.modCore 0 (fun k => k.setR 1 31)
    let armed := { State.reset with now := 4, snap := { pending := some ⟨4, 1⟩ } }
    let both := { State.reset with now := 4, snap := { ring := some ⟨10, 1, 0⟩ } }
    let read := withArgs 0 0x10_1000
    MayIssue s 0 0x09 0 [] ∧ MayIssue s 0 0x09 1 [] ∧ s.snapPending = false ∧ s.formed = false ∧ ring.formed = true ∧
      ring.cf 0 0xF008 17 17 = 1 ∧ 5 < ring.ringTime + 2 * ring.rot ∧ near.ringTime + 2 * near.rot ≤ 31 ∧ Ready near 0 ∧
      armed.snap.ring = none ∧ 4 ≤ armed.now ∧ both.snap.pending = none ∧ 10 ≤ both.ringTime ∧
      MayIssue read 0 0x0A 0 [⟨0x10_1000, 64, false, true⟩] ∧ MayIssue read 0 0x0A 1 [⟨0x10_1000, 64, false, true⟩] ∧
      placeOf (read.woken 0) 0 0x10_1000 64 true = some 0x0100_1000 ∧ dieExists read 0 = true ∧ unitExists 0 0 = true ∧
      read.snap.epoch = 0 ∧ near.snapPending = false := by
  try dsimp only
  and_intros <;> first | decide +kernel | exact fetch_done (by decide +kernel)
/-- A latched snapshot shows its epoch and its time (R125, R625). -/
theorem test_snapshot_latches :
    let s := { State.reset with now := 4, snap := { pending := some ⟨4, 1⟩, count := [(0, 9)] } }
    let t := after .snapshotLatch s
    t.snap.epoch = 1 ∧ t.snap.tlatch = 10 ∧ t.snap.pending = none ∧ Tbl.at t.snap.count 0 = 9 := by decide +kernel
/-- Core 0 with a way of its cache as given. -/
def withWay (x : Way) (a b : Word) : State := { withArgs a b with cache := { ways := [(8, x)] } }
theorem witness_cache_operations :
    let s := withArgs 0x10_0000_0000 128
    let w := fun (x : Lock) (b : Word) => withWay { lock := x } 8 b
    MayIssue s 0 0x0B 0 [] ∧ MayIssue s 0 0x0C 0 [] ∧ MayIssue s 0 0x0C 1 [] ∧
      rangeOk s 0x10_0000_0000 128 = true ∧ rangeOk s 0x10_0000_0001 128 = false ∧
      ((w .scratch 0).way 0 8).lock = .scratch ∧ ((w (.range 5) 0).way 0 8).lock = .range 5 ∧ ((w .none 0).way 0 8).lock = .none ∧
      MayIssue (w .scratch 0) 0 0x0D 0 [] ∧ MayIssue (w .none 0) 0 0x0D 1 [] ∧ MayIssue (w .none 0) 0 0x0D 2 [] ∧
      MayIssue (w (.range 5) 0) 0 0x0D 0 [] ∧ gddrBase 0 ≤ 0x10_0000_0000 ∧ 0x10_0000_0000 % 0x20_0000 = 0 := by
  try dsimp only
  and_intros <;> first | decide +kernel | exact fetch_done (by decide +kernel)
/-- R127: discarding a dirty line brings back what lies beneath it. -/
theorem test_cinv_discards :
    let s := { after (.st 0 2 1 3 0) (withArgs 0x10_0000_0000 7) with icache := [] }
    let t := after (.cinvR 0 3 1 4 0) (s.modCore 0 (fun k => k.setR 4 128))
    s.byte 0x10_0000_0000 = 7 ∧ s.cache.lines.length = 1 ∧ t.byte 0x10_0000_0000 = 0 ∧ t.cache.lines = [] ∧
      (t.core 0).r 3 = 0 := by decide +kernel
/-- A drive with a disc loaded, its map as given. -/
def withMap (m : MapEng) (a b : Word) : State := { withArgs a b with maps := [(0, m)] }
theorem witness_map_operations :
    let s := withMap { mstate := 2 } 7 (2 ^ 63)
    let old := withMap { mstate := 2, home := [(0, 2)] } 7 0
    let ready := withMap { mstate := 2, brec := [{ hoist := homeOf 7 / 32, state := 3 }] } 7 (BitVec.ofNat 64 (homeOf 7))
    MayIssue s 0 0x0E 0 [] ∧ MayIssue s 0 0x0F 0 [] ∧ 2 ≤ (s.map 0).mstate ∧ (s.map 0).written 7 = false ∧
      (old.map 0).written 7 = true ∧ (old.map 0).place 7 0 = some (homeOf 7) ∧ (s.map 0).place 7 0 = none ∧
      (State.reset.map 0).mstate < 2 ∧ homeOf 7 < 2 ^ 30 ∧ (ready.map 0).ready (homeOf 7) = true ∧
      (ready.map 0).nextVersion 7 = 0 ∧ (ready.map 0).entries.length < 524288 ∧ (s.map 0).ready 5 = false ∧ Ready ready 0 ∧ Ready old 0 ∧
      badWord (s.woken 0) (gddrBase 0 + 28640 * 0x2_0000) (32 * 0x2_0000) = none := by
  try dsimp only
  and_intros <;> first | decide +kernel | exact fetch_done (by decide +kernel)
/-- R133: the first version of a block in a hoist that is ready. -/
theorem test_mapcommit_then_maplook :
    let s := withMap { mstate := 2, brec := [{ hoist := homeOf 7 / 32, state := 3 }] } 7 (BitVec.ofNat 64 (homeOf 7))
    let t := { after (.mapcommit 0 3 1 2 0) s with icache := [] }
    let u := after (.maplook 0 4 1 2 0) (t.modCore 0 (fun k => k.setR 2 (2 ^ 63)))
    ((t.core 0).r 3).toNat / 2 ^ 56 = 0 ∧ (t.map 0).next = 2 ∧ ((u.core 0).r 4).toNat % 2 ^ 37 = 2 ^ 36 + homeOf 7 := by
  decide +kernel
theorem witness_map_engine :
    let own := fun (m : MapEng) => { withMap m 0 0 with bufs := [(0, { owners := [0] })] }
    let s := own { mstate := 2, deltas := [⟨1, 1, 5⟩] }
    let e : Brec := { hoist := 9, state := 3, closed := true }
    (∀ own, MayAccess s 0 .store own false 0 0x7218 false) ∧ fillRefusal s 0 0 = 0 ∧ (s.map 0).deltas ≠ [] ∧ fillRefusal (own { mstate := 2 }) 0 0 = 0 ∧ fillRefusal State.reset 0 0 ≠ 0 ∧
      mapHandleOk (own { mstate := 1 }) 0 0 0 = true ∧ mapHandleOk (withMap { mstate := 1 } 0 0) 0 0 0 = false ∧
      retainedBrec (withMap { mstate := 1 } 0 0) 0 = none ∧ e ∈ ((withMap { brec := [e] } 0 0).map 0).brec ∧
      (∀ q ∈ e.seqs, q ≤ ((withMap { brec := [e] } 0 0).map 0).dur) := by decide +kernel
/-- A privileged requester without ways reads through an empty cache without changing the state (R403). -/
theorem priv_touch_empty (req a n : Nat) (s : State) (h : s.cache.lines = [])
    (g : ∀ x ∈ linesOf a n, partWays (memDie x) req s = []) : privTouch req false a n s = s := by
  unfold privTouch
  revert g
  induction linesOf a n with
  | nil => intro _; rfl
  | cons x xs ih =>
    intro g
    rw [List.foldl_cons]
    have h2 : settleTags x s = s := by simp [settleTags, h]
    have h3 : s.lineAt x = none := by simp [State.lineAt, h]
    have h4 : fillSub req x s = s := by simp [fillSub, g x (by simp)]
    simp only [h2, h3, h4, Bool.false_eq_true, if_false]
    exact ih (fun y hy => g y (List.mem_cons_of_mem _ hy))
/-- Its read finds no word in error where none is listed (R420). -/
theorem priv_read_empty (req a n : Nat) (s : State) (h : s.cache.lines = []) (e : s.ecc = [])
    (g : ∀ x ∈ linesOf a n, partWays (memDie x) req s = []) : (privRead req a n s).1 = none := by
  unfold privRead
  rw [priv_touch_empty _ _ _ _ h g]
  have : (eccKeys a n).find? (fun w => decide (s.eccAt w = .bad)) = none := by simp [State.eccAt, e, Tbl.get]
  simp only [this]
theorem lines_of_buffer : ∀ x ∈ linesOf (handleAddr 0) 130560, memDie x = 0 := by
  intro x hx
  obtain ⟨i, hi, rfl⟩ := List.mem_map.mp hx
  have hi := List.mem_range.mp hi
  simp only [ceilDiv, show handleAddr 0 = 0x10_0000_0000 by decide +kernel, memDie, lineAddr] at *
  split <;> omega
/-- A map record with no deltas stands in every frame of the buffer (R367). -/
theorem witness_map_ingest :
    let rec30 := (List.range 30).flatMap (fun i => [(0x10_0000_0000 + 4096 * i, (0x4D#8)), (0x10_0000_0001 + 4096 * i, 0x41#8),
      (0x10_0000_0002 + 4096 * i, 0x50#8), (0x10_0000_0003 + 4096 * i, 0x52#8), (0x10_0000_0004 + 4096 * i, 1#8)])
    let s := { (withMap { mstate := 1 } 0 0).setCf 0 0x9000 7 4 0 with bufs := [(0, { owners := [0] })], mem := rec30 }
    (mapHandleOk s 0 0 0 = true ∧ (List.range 30).all (fun i => recordOk (s.bytes (handleAddr 0 + 4096 * i) 4096)) = true) ∧
      (privRead 1 (handleAddr 0) 130560 (s.started 0)).1 = none := by
  refine ⟨by decide +kernel, ?_⟩
  exact priv_read_empty _ _ _ _ rfl rfl (fun x hx => by rw [lines_of_buffer x hx]; decide +kernel)
/-! The media channel and the servo (R136, R234 to R256, R296 to R341, R349 to R354, R639, R640). -/

/-- A CHOP descriptor with two hoists of user area, or a SEEK there (R136). -/
def chopBlock (op : Nat) : List Byte :=
  leBytes 2 op ++ leBytes 2 5 ++ leBytes 4 noTag ++ leBytes 4 1280000 ++ leBytes 1 (if op = 4 then 0 else 1) ++ leBytes 1 0 ++
    leBytes 2 0xFFF ++ leBytes 8 0 ++ leBytes 8 (if op ≤ 2 then 0x10_2000 else 0) ++ leBytes 32 0
theorem witness_chop :
    let s := fun (op : Nat) => { holding (chopBlock op) (withArgs 0x10_1000 0) with maps := [(0, { mstate := 2 })] }
    let w := fun (op : Nat) => (s op).woken 0
    let full := { s 1 with chan := [(0, { queue := List.replicate 64 default })] }
    MayIssue (s 1) 0 0x10 0 (chopSpans 0 (w 1) 0x10_1000 0) ∧ MayIssue (s 2) 0 0x10 0 (chopSpans 0 (w 2) 0x10_1000 0) ∧
    MayIssue (s 3) 0 0x10 0 (chopSpans 0 (w 3) 0x10_1000 0) ∧ MayIssue (s 4) 0 0x10 0 (chopSpans 0 (w 4) 0x10_1000 0) ∧
    (∀ op ∈ [1, 2, 3, 4],
      placeOf (w op) 0 0x10_1000 64 true = some 0x0100_1000 ∧ leAt (peek (s op) 0 0x10_1000 64) 0 1 = op ∧
      ((w op).map 0).mstate ≠ 0 ∧ (readOperand 0 0x0100_1000 64 (w op)).1 = some (chopBlock op) ∧
      chopFields (w op) 0 (chopBlock op) = true ∧ leAt (chopBlock op) 0 1 = op ∧ handleDie 0 = 0 ∧
      (op ≤ 2 → chopList (chopBlock op) ≠ [] ∧ (placeOf (w op) 0 (leAt (chopBlock op) 24 8) 4 false).isSome = true ∧
        (readOperand 0 0x0100_2000 4 (w op)).1 = some [0, 0, 0, 0] ∧ handleOk (w op) 0 = true) ∧
      (2 < op → chopList (chopBlock op) = [])) ∧
    areaTests ((w 2).map 0) false [0] [40000] = true ∧ chopFields (w 1) 0 (leBytes 64 0) = false ∧
    ¬ (full.channel 0).queue.length < 64 ∧ ((withArgs 0x10_1000 0).map 0).mstate = 0 := by
  try dsimp only
  and_intros <;> first | decide +kernel | exact fetch_done (by decide +kernel)
/-- Slice 0 with an operation at the front of its channel. -/
def channelled (o : Chop) : State :=
  { (((State.reset.setCf 0 0x0200 16 16 1).setCf 0 0x4100 1 1 1).setCf 0 0x4200 3 0 5) with chan := [(0, { queue := [o] })] }
/-- An operation as its descriptor leaves it. -/
def someChop (op : Nat) : Chop :=
  { op := op, flags := 2, ctag := 5, tag := noTag, pfa := 1280000, hoists := 1, rungs := 0, beams := 0xFFF, key := 0
    list := [0], core := 0, area := 0x0100_1000 }
/-- The same state with no word of memory in error. -/
theorem bad_source_clean (s : State) (o : Chop) (js : List Nat) (h : s.ecc = []) : badSource s o js = none := by
  simp [badSource, State.eccAt, h, Tbl.get]
/-- A WRITE of one hoist of fill, of a disc whose retained record stands. -/
def someWrite : Chop := { someChop 2 with list := [0] }
/-- The metadata of a buffer of fill: of each block its kind, 4. -/
def fillMeta : List (Nat × Byte) := (List.range 30).map (fun i => (handleAddr 0 + 122880 + 256 * i + 5, 4#8))
/-- A state whose head may burn. -/
def burning (o : Chop) : State :=
  { ((((channelled o).setCf 0 0x4200 35 22 3600).setCf 0 0x4208 32 32 1).setFf 0 0x2100 63 63 1) with mem := fillMeta }
theorem fill_meta_kind (s : State) (h : s.mem = fillMeta) : ∀ i ∈ List.range 30,
    s.num (handleAddr 0 + 122880 + 256 * i + 5) 1 = 4 := by
  have at_ : ∀ i ∈ List.range 30, Tbl.at fillMeta (handleAddr 0 + 122880 + 256 * i + 5) = 4#8 ∧
      ¬ (aonBase ≤ handleAddr 0 + 122880 + 256 * i + 5 ∧ keptByHardware (handleAddr 0 + 122880 + 256 * i + 5 - aonBase) = true) := by
    decide +kernel
  intro i hi
  simp [State.num, State.bytes, State.byte, h, (at_ i hi).1, (at_ i hi).2, ofLe]
theorem fill_meta_good (s : State) (key : Nat) (h : s.mem = fillMeta) : metaGood s 0 key 0 = true := by
  refine List.all_eq_true.mpr (fun i hi => ?_)
  rw [Bool.and_eq_true]
  simp only [fill_meta_kind s h i hi]
  exact ⟨rfl, rfl⟩
theorem begin_refusal_none (s : State) (o : Chop) (k : Nat) (js : List Nat) (h : badSource s o js = none)
    (g : js.all (fun j => metaGood s k o.key (o.list.getD j 0)) = true) : beginRefusal s k o js = none := by
  unfold beginRefusal
  rw [h]
  simp only [g, if_true]
theorem write_may_begin (s : State) (o : Chop) (h : s.mem = fillMeta) (e : s.ecc = []) (g : o.list = [0]) :
    beginRefusal s 0 o [0] = none :=
  begin_refusal_none s o 0 [0] (bad_source_clean s o [0] e) (by
    rw [g, List.all_cons, List.all_nil, List.getD_cons_zero, fill_meta_good s o.key h]; rfl)
/-- The burn of a WRITE of a fill may begin (R347). -/
theorem witness_write_may_begin : beginRefusal (burning someWrite) 0 someWrite [0] = none ∧
    startRefusal (burning someWrite) 0 someWrite = 0 ∧ startPass (burning someWrite) 0 someWrite = [0] := by
  have b := bad_source_clean (burning someWrite) someWrite (startPass (burning someWrite) 0 someWrite) rfl
  have m : someWrite.list.all (metaGood (burning someWrite) 0 someWrite.key) = true := by
    rw [show someWrite.list = [0] from rfl, List.all_cons, fill_meta_good _ _ rfl]; rfl
  refine ⟨write_may_begin _ _ rfl rfl rfl, ?_, by decide +kernel⟩
  have w : wiRaised (burning someWrite) 0 someWrite.head = false := by decide +kernel
  unfold startRefusal
  simp only [b, m, w]
  decide +kernel
/-- A hoist of a fill that has been read well at first pass passes the verify test (R353). -/
theorem witness_verify_passes : 
    let f : Frame := { got := .good, first := true, both := true }
    let o := { someWrite with started := true, flags := 3, frames := (List.range 32).map (fun i => (i, f)) }
    ∀ j < o.hoists, verifyPass (channelled o) 0 o j = true := by
  intro f o j hj
  obtain rfl : j = 0 := by simp only [o, someWrite, someChop] at hj; omega
  have good : ∀ i ∈ hoistFrames 0, o.frame i = f := by decide +kernel
  have syn : ∀ b, syndromes ((hoistFrames 0).map (fun i => (i % 32, byteOf (o.frame i).payload b))) = (0, 0) := by
    intro b
    have : (hoistFrames 0).map (fun i => (i % 32, byteOf (o.frame i).payload b)) = (hoistFrames 0).map (fun i => (i % 32, 0)) := by
      refine List.map_congr_left (fun i hi => ?_)
      rw [good i hi]
      simp [f, byteOf, leAt, ofLe]
    rw [this]
    decide +kernel
  unfold verifyPass
  rw [Bool.and_eq_true]
  constructor
  · decide +kernel
  · refine List.all_eq_true.mpr (fun x hx => ?_)
    obtain ⟨b, _, rfl⟩ := List.mem_map.mp hx
    rw [syn b]
    rfl
theorem witness_chop_starts_and_ends :
    let seek := someChop 4
    let s := channelled seek
    let moving := fun (o : Chop) => { o with started := true, positioning := true, seq := 0 }
    let ack := fun (o : Chop) (r : Nat) => (burning (moving o)).poke (cAddr 0 0x1_1FF0) (leBytes 4 0 ++ leBytes 4 r)
    let at_ := fun (o : Chop) (r : Nat) => ((ack o r).setCf 0 0x4100 2 2 1).setCf 0 0x4100 17 16 0
    let burnt := fun (f : Nat) (stop : Nat) =>
      { someWrite with started := true, flags := f, stopWith := stop, frames := (List.range 32).map (fun i => (i, { got := .failing })) }
    s.down = false ∧ CacheSound s ∧ startRefusal s 0 seek = 0 ∧ startRefusal State.reset 0 seek ≠ 0 ∧
      aimBand s 0 0 (bandOf seek.pfa) 0 ≠ bandNow s 0 0 ∧
      leAt ((ack seek 1).bytes (cAddr 0 (0x1_0800 + 0x1000 * 1 + 0x7F0)) 8) 4 1 = 1 ∧
      leAt ((ack seek 2).bytes (cAddr 0 (0x1_0800 + 0x1000 * 1 + 0x7F0)) 8) 4 1 = 2 ∧
      bandNow (at_ seek 1) 0 0 = 0 ∧ srvRdy (at_ seek 1) 0 0 2 2 = 1 ∧ srvRdy (at_ seek 1) 0 0 17 16 = pfaLayer seek.pfa ∧
      srvRdy ((at_ seek 1).setCf 0 0x4100 17 16 1) 0 0 17 16 ≠ pfaLayer seek.pfa ∧
      wiRaised (at_ someWrite 1) 0 0 = false ∧ (at_ someWrite 1).cf 0 0x4200 3 0 = 5 ∧ firstPass (moving someWrite) = [0] ∧
      seek.tries < 2 ∧ 2 ≤ ({ seek with tries := 2 } : Chop).tries ∧ seek.due ≤ (ack seek 2).time ∧
      bitSet (burnt 3 0).flags 0 = true ∧ verifyPass (channelled (burnt 3 0)) 0 (burnt 3 0) 0 = false ∧
      (burnt 3 0).passed 0 = true ∧ bitSet (burnt 2 0).flags 0 = false ∧ (burnt 2 2).stopWith ≠ 0 ∧
      areaOf (hoistIn 40000) = .user := by decide +kernel
/-- A SEEK that has landed ends, and its tag is queued (R136, R147). -/
theorem test_seek_ends :
    let t := after (.chopSeekEnd 0) (channelled { someChop 4 with started := true })
    (t.channel 0).queue = [] ∧ (t.core 0).cq = [5] ∧ t.num 0x0100_1028 2 = 0 := by decide +kernel
/-- A READ or VERIFY under way. -/
def underWay (op : Nat) (o : Chop → Chop) : State := channelled (o { someChop op with started := true, slots := 4 })
theorem witness_frames :
    let s := underWay 1 id
    let held := fun (g : Got) => { someChop 1 with started := true, stopWith := 2, frames := [(1, { got := g })] }
    let cut := { someChop 1 with started := true, slots := 4, hoists := 2, pfa := 1600, frames := (List.range 32).map (fun i =>
      (i, { got := .failing })), oofAt := [posOf 1600] }
    let w := { someWrite with started := true, flags := 3 }
    let bad := { (channelled w) with ecc := [(handleAddr 0, .bad)] }
    CacheSound s ∧ passing s 0 = reading s 0 ∧ (reading s 0).map (fun o => (o.frame 0).got) = some .unread ∧
      (reading s 0).map (fun o => o.open_.filter (fun m => decide (o.bandAt m < o.bandAt 0))) = some [] ∧
      (reading s 0).map (fun o => decide (0 < 32 * o.hoists)) = some true ∧ (settleAll 0 [] s).1 = true ∧
      reading (channelled (held .good)) 0 = some (held .good) ∧ (held .good).begunRead 0 = true ∧
      reading (channelled cut) 0 = some cut ∧ cut.open_.filter (fun m => decide (cut.bandAt m < cut.bandAt 1)) = [0] ∧
      ladderOver (channelled cut) 0 cut 0 = true ∧ (cut.frame 32).got = .unread ∧ (settleAll 0 [0] (channelled cut)).1 = false ∧
      passing (channelled w) 0 = some w ∧ (List.range w.hoists).filter (fun m => decide (w.bandAt m ≤ w.bandAt 0) && !w.begun.contains m) = [0] ∧
      badSource bad w [0] = some (handleAddr 0) := by decide +kernel
/-- With nothing in the staging caches the codec's reads settle nothing. -/
theorem settle_empty (a n : Nat) (s : State) (h : s.cache.lines = []) : settle none a n s = s := by
  have : ∀ l : List Nat, l.foldl (fun s la =>
      let s := settleTags la s
      match s.lineAt la with
      | some x => settleLine none a n x s
      | none => s) s = s := by
    intro l
    induction l with
    | nil => rfl
    | cons x xs ih =>
      rw [List.foldl_cons]
      have h2 : settleTags x s = s := by simp [settleTags, h]
      have h3 : s.lineAt x = none := by simp [State.lineAt, h]
      simp only [h2, h3]
      exact ih
  unfold settle
  split
  · exact this _
  · rfl
theorem settle_sources_empty (o : Chop) (js : List Nat) (s : State) (h : s.cache.lines = []) : settleSources o js s = s := by
  unfold settleSources
  induction js with
  | nil => rfl
  | cons x xs ih => rw [List.foldl_cons, settle_empty _ _ _ h]; exact ih
/-- The burn of that hoist may begin, and may not where a word of its buffer is in error. -/
theorem witness_inline_begins :
    let w := { someWrite with started := true, flags := 3 }
    let s := burning w
    let bad := { (channelled w) with ecc := [(handleAddr 0, .bad)] }
    beginRefusal (settleSources w [0] s) 0 w [0] = none ∧
      beginRefusal (settleSources w [0] bad) 0 w [0] = some (some (handleAddr 0)) := by
  intro w s bad
  have b : badSource bad w [0] = some (handleAddr 0) := by decide +kernel
  have some_ : ∀ (s : State) (o : Chop) (js : List Nat) (x : Nat), badSource s o js = some x →
      beginRefusal s 0 o js = some (some x) := by
    intro s o js x h
    unfold beginRefusal
    rw [h]
  rw [settle_sources_empty w [0] s rfl, settle_sources_empty w [0] bad rfl]
  exact ⟨write_may_begin s w rfl rfl rfl, some_ bad w [0] _ b⟩
/-- The codeword of zeros has no check unsatisfied. -/
theorem syndrome_zero : syndromeWeight (fun _ => false) = 0 := by
  have sum : ∀ r x n, checkSum (fun _ => false) r x n = false := by
    intro r x n
    induction n with
    | zero => rfl
    | succ n ih =>
      rw [checkSum, ih, columnTerm]
      split <;> rfl
  have all : ∀ l : List Nat, (l.map (fun n => b2n (unsatisfied (fun _ => false) (n / 512) (n % 512)))).sum = 0 := by
    intro l
    induction l with
    | nil => rfl
    | cons x xs ih => rw [List.map_cons, List.sum_cons, ih, unsatisfied, sum]; rfl
  exact all _
/-- LLRs that favour nothing decide for it. -/
theorem hard_zero (pfa : Nat) (shift : Int × Int) : hardBit (codewordLlrs pfa [] [] shift) = fun _ => false := by
  funext n
  have : ∀ x ∈ codewordLlrs pfa [] [] shift, x = 0 := by
    intro x hx
    obtain ⟨m, _, rfl⟩ := List.mem_map.mp hx
    simp [clearLlr]
  unfold hardBit
  rw [List.getD_eq_getElem?_getD]
  cases h : (codewordLlrs pfa [] [] shift)[n]? with
  | none => rfl
  | some x => rw [Option.getD_some, this x (List.mem_of_getElem? h)]; rfl
theorem decode_from_satisfied (cap used : Nat) (st : List Int × List (List Int)) (z : syndromeWeight (hardBit st.1) = 0) :
    (decodeFrom (cap + 1) used st).2.1 = true := by
  unfold decodeFrom
  rw [if_pos z]
theorem decode_llrs_converged (cap : Nat) (l : List Int) :
    (decodeLlrs cap l).converged = (decodeFrom cap 0 (l, List.replicate 6144 [])).2.1 := rfl
theorem decode_llrs_weight (cap : Nat) (l : List Int) : (decodeLlrs cap l).weight = syndromeWeight (hardBit l) := by
  simp only [decodeLlrs]
theorem decode_satisfied (cap : Nat) (l : List Int) (z : syndromeWeight (hardBit l) = 0) :
    (decodeLlrs (cap + 1) l).weight = 0 ∧ (decodeLlrs (cap + 1) l).converged = true :=
  And.intro ((decode_llrs_weight _ l).trans z) ((decode_llrs_converged _ l).trans (decode_from_satisfied cap 0 _ z))
theorem decode_zero (o : Chop) (i cap : Nat) (shift : Int × Int) (h : (o.frame i).llrA = []) (g : (o.frame i).llrB = []) :
    (decodeFrame o i (cap + 1) shift).weight = 0 ∧ (decodeFrame o i (cap + 1) shift).converged = true := by
  unfold decodeFrame
  rw [h, g]
  exact decode_satisfied _ _ (by rw [hard_zero, syndrome_zero])
theorem shift_zero (o : Chop) (i : Nat) (h : (o.frame i).llrA = []) (g : (o.frame i).llrB = []) : (bestShift o i).1 = 0 := by
  have z : shiftWeights o i = List.replicate 18 0 := by
    simp only [shiftWeights, h, g, hard_zero, syndrome_zero]; rfl
  unfold bestShift
  simp only [z]
  rfl
/-- A frame in each stage of its decode: a parity frame whose LLRs decode, and frames that wait in the retry store. -/
theorem witness_decodes :
    let deco := { someChop 1 with started := true, slots := 4, frames := [(30, { got := .decoding })] }
    let fail := fun (w : Nat) (g : Frame) => { someChop 1 with started := true, rungs := w, slots := 4
                                                               frames := [(0, { got := .failing }), (30, g)] }
    let first := fail 0 { got := .failing, slot := true, weight := 6000 }
    let later := fail 1 { got := .failing, slot := true, weight := 6000, rung0 := true }
    let any := (channelled first).setCf 0 0x6000 15 8 0
    passing (channelled deco) 0 = some deco ∧ (deco.frame 30).got = .decoding ∧ isData 30 = false ∧
      reading (channelled first) 0 = some first ∧ (first.frame 30).got = .failing ∧ (first.frame 30).slot = true ∧
      first.retries 30 = true ∧ (first.frame 30).rung0 = false ∧ misaligned (channelled first) 0 6000 = true ∧
      misaligned (channelled first) 0 0 = false ∧ misaligned any 0 0 = true ∧ reading any 0 = some first ∧
      reading (channelled later) 0 = some later ∧ 1 ≤ later.rungs ∧ later.retries 30 = true ∧ (later.frame 30).rung0 = true ∧
      first.store = [] ∧ (first.frame 30).llrA = [] ∧ (later.frame 30).llrB = [] ∧
      icapOf (channelled deco) 0 ≠ 0 ∧ icap1Of (channelled later) 0 ≠ 0 ∧ CacheSound any := by decide +kernel
/-- R313: a first mark of an untroubled peak at offset 0. -/
theorem test_find_mark : findMark ((List.range 99).map (fun i => if i = 49 then 3000 else 0)) 48 14 = some 0 ∧
    findMark (List.replicate 99 0) 48 14 = none := by decide +kernel
theorem witness_ladder :
    let good : Frame := { got := .good, first := true, both := true }
    let frames : List (Nat × Frame) := (List.range 32).map (fun i => (i, if i = 3 then { got := .failing } else good))
    let o : Chop := { someChop 1 with started := true, rungs := 6, frames := frames }
    let p : Chop := { o with frames := (List.range 32).map (fun i => (i, if i < 3 then { got := .failing } else good)) }
    let again : Chop := { p with attempt := some (2, 0) }
    let gone : Chop := { o with stopWith := 2, settled := [0] }
    let lost : Chop := { o with rungs := 0 }
    let v : Chop := { o with op := 3, rungs := 0 }
    let s := channelled o
    CacheSound s ∧ reading s 0 = some o ∧ reading (channelled again) 0 = some again ∧ again.stopWith = 0 ∧
      cancelled (channelled gone) 0 = some gone ∧ gone.finishing = false ∧
      o.passed 0 = true ∧ o.blankHoist 0 = false ∧ erasureDue o 0 = true ∧
      nextAttempt s 0 o (o.bandAt 0) = none ∧ nextAttempt (channelled p) 0 p p.bandNow = some (2, 0) ∧ p.passed 0 = true ∧
      reading (channelled lost) 0 = some lost ∧ lost.open_ = [0] ∧ ladderOver (channelled lost) 0 lost 0 = true ∧
      (settleAll 0 lost.open_ (channelled lost)).1 = true ∧ ({ o with settled := [0] } : Chop).open_ = [] ∧
      reading (channelled v) 0 = some v ∧ ladderOver (channelled v) 0 v 0 = true ∧
      (2 ^ 36 ≤ o.area ∨ o.area < 2 ^ 36) := by decide +kernel
/-- Of such a VERIFY the hoist is not good; of one whose frames are, it is (R353). -/
theorem witness_verdicts :
    let good : Frame := { got := .good, first := true, both := true }
    let v : Chop := { someChop 3 with started := true, frames := (List.range 32).map (fun i => (i, if i = 3 then { got := .failing } else good)) }
    verifyGood (channelled v) 0 v 0 = false ∧
      ∀ w : Chop, w.frames = (List.range 32).map (fun i => (i, good)) → (∀ i ∈ hoistFrames 0, (w.frame i).got = .good) := by
  refine ⟨by decide +kernel, fun w h i hi => ?_⟩
  have : ∀ i ∈ hoistFrames 0, (Tbl.at ((List.range 32).map (fun i => (i, ({ got := .good, first := true, both := true } : Frame)))) i).got = .good := by
    decide +kernel
  rw [Chop.frame, h]
  exact this i hi
theorem witness_servo_events :
    let s := State.reset
    let on := s.setCf 0 0x4100 3 1 7
    let near := (s.setCf 0 0x4100 1 1 1).setCf 0 0x4100 3 3 1
    let held := channelled { someChop 1 with started := true, heldAt := some 0 }
    let late := { held with now := 4000000 }
    let runs := fun (op : Nat) => { someChop op with started := true }
    let coming := s.modHead 0 0 (fun x => { x with acquiring := true })
    CacheSound held ∧ aHead s 0 0 = true ∧ inFocus s 0 0 0 4095 = true ∧ inFocus s 0 0 0 (-1) = false ∧ srvRdy s 0 0 1 1 = 0 ∧
      srvRdy on 0 0 1 1 = 1 ∧ onGroove s 0 0 0 = true ∧ onGroove s 0 0 4096 = false ∧ srvRdy on 0 0 3 3 = 1 ∧
      srvRdy near 0 0 1 1 = 1 ∧ srvRdy near 0 0 2 2 = 0 ∧ srvRdy near 0 0 3 3 = 1 ∧ srvRdy s 0 0 2 2 = 0 ∧ srvRdy on 0 0 2 2 = 1 ∧
      0 + 10000000 ≤ late.time ∧ (late.channel 0).queue = [{ someChop 1 with started := true, heldAt := some 0 }] ∧
      held.front 0 = some { someChop 1 with started := true, heldAt := some 0 } ∧ held.time ≤ 0 + 10000000 ∧
      held.cf 0 0x4200 3 0 = 5 ∧ srvRdy held 0 0 17 16 = pfaLayer 1280000 ∧
      srvRdy (held.setCf 0 0x4100 17 16 1) 0 0 17 16 ≠ pfaLayer 1280000 ∧
      (channelled (runs 1)).front 0 = some (runs 1) ∧ (channelled (runs 2)).front 0 = some (runs 2) ∧ (runs 2).head = 0 ∧
      ((coming.head 0 0).acquiring = true) ∧ (s.head 0 0).acquiring = false ∧ srvRdy coming 0 0 3 3 = 0 := by decide +kernel
/-- R153: an address unit whose CRC is good. -/
theorem witness_address_unit : decide (unitCrc (BitVec.ofNat 48 (2 ^ 46 + unitCrc (2 ^ 46))).toNat =
    (BitVec.ofNat 48 (2 ^ 46 + unitCrc (2 ^ 46))).toNat % 0x10000) = true ∧
    (BitVec.ofNat 48 (2 ^ 46 + unitCrc (2 ^ 46))).toNat / 2 ^ 46 = 1 ∧ decide (unitCrc 1 = 1) = false := by decide +kernel
theorem witness_write_inhibit :
    let s := ((State.reset.setFf 0 0x2100 50 48 7).setFf 0 0x1C00 9 0 1).setFf 0 0x1C00 25 16 1
    let poll := (((State.reset.setFf 0 0x2000 0 0 1).setFf 0 0x2000 18 16 3).setFf 0 0x2000 38 36 2).setCf 0 0x0200 16 16 1
    let sharp := poll.setFf 0 0x1C00 47 32 1
    let on := State.reset.setFf 0 0x2020 0 0 1
    let late := { on with tripped := [(0, some 0)], now := 400000 }
    aHead s 0 0 = true ∧ s.ff 0 0x2100 48 48 = 1 ∧ s.ff 0 0x2100 49 49 = 1 ∧ s.ff 0 0x2100 50 50 = 1 ∧ s.ff 0 0x2100 23 12 < 4096 ∧
      s.ff 0 0x2100 35 24 < 4096 ∧ (-1 : Int) < (s.ff 0 0x2100 47 36 : Int) ∧
      s.trim 0 0x1C00 9 0 ≠ 0 ∧ s.trim 0 0x1C00 9 0 < 2 ∧ s.trim 0 0x1C00 25 16 ≠ 0 ∧ s.trim 0 0x1C00 25 16 < 2 ∧
      poll.ff 0 0x2000 0 0 = 1 ∧ fdieDrives poll 0 = true ∧ pollDue poll 0 = true ∧ sharp.trim 0 0x1C00 47 32 ≠ 0 ∧
      sharp.trim 0 0x1C00 47 32 < (fromField 16 2).natAbs ∧
      poll.ff 0 0x2000 18 16 + 1 = 4 ∧ poll.ff 0 0x2000 32 30 + 2 ≤ 4 ∧ poll.ff 0 0x2000 38 36 + 2 ≤ 4 ∧ aBridge 0 = true ∧
      aBridge 8 = true ∧ on.ff 0 0x2020 0 0 = 1 ∧ (on.setFf 0 0x2020 32 32 1).ff 0 0x2020 32 32 = 1 ∧
      Tbl.at late.tripped 0 = some 0 ∧ ¬ late.time < 0 + 1000000 := by decide +kernel
/-- R178: a bridge that has tripped comes on again only after 1 ms. -/
theorem test_bridge_trips :
    let s := after (.bridgeOvercurrent 0 0) (State.reset.setFf 0 0x2020 0 0 1)
    let soon := after (.bridgeEnable 0 1 0) s
    let late := after (.bridgeEnable 0 1 0) { s with now := 400000 }
    s.ff 0 0x2020 0 0 = 0 ∧ s.ff 0 0x2020 32 32 = 1 ∧ soon.ff 0 0x2020 0 0 = 0 ∧ late.ff 0 0x2020 0 0 = 1 ∧
      late.ff 0 0x2020 32 32 = 0 ∧ s.ff 0 0x2160 3 3 = 1 := by decide +kernel
theorem witness_training :
    let run := State.reset.modHead 0 0 (fun x => { x with train := some (0, 0) })
    let spent := run.modHead 0 0 (fun x => { x with trainCount := [(3, 65535)] })
    let late := { run with now := 800000000 }
    let loaded := { (State.reset.setFf 0 0x2040 0 0 1) with maps := [(0, { mstate := 2 })] }
    CacheSound run ∧ (State.reset.head 0 0).train = none ∧ headUsed State.reset 0 0 = false ∧
      headUsed (channelled (someChop 1)) 0 0 = true ∧ headUsed run 0 0 = false ∧ (run.head 0 0).train = some (0, 0) ∧
      (run.head 0 0).trained = false ∧ Tbl.at (spent.head 0 0).trainCount 3 = 65535 ∧ max 64 (spent.cf 0 0x6060 31 16) ≤ 65535 ∧
      aHead run 0 1 = true ∧ headUsed run 0 1 = false ∧ (run.head 0 1).train = none ∧ trainable run 0 1 0 = false ∧
      0 + 2000000000 ≤ late.time ∧
      loaded.ff 0 0x2040 0 0 = 1 ∧ (loaded.map 0).mstate ≠ 0 ∧ (State.reset.map 0).mstate = 0 := by decide +kernel
/-- One byte of the CRC-32C. -/
def crcStep (r : Nat) (b : Byte) : Nat := crcBits 8 (Nat.xor r b.toNat)
/-- 204 zero bytes. -/
def crcRun (r : Nat) : Nat := (List.replicate 204 (0#8)).foldl crcStep r
theorem crc_run_0 : crcRun 4294967295 = 769412765 := by decide +kernel
theorem crc_run_1 : crcRun 769412765 = 3803098245 := by decide +kernel
theorem crc_run_2 : crcRun 3803098245 = 508691064 := by decide +kernel
theorem crc_run_3 : crcRun 508691064 = 4212178402 := by decide +kernel
theorem crc_run_4 : crcRun 4212178402 = 1237201437 := by decide +kernel
theorem crc_run_5 : crcRun 1237201437 = 3563937394 := by decide +kernel
theorem crc_run_6 : crcRun 3563937394 = 1346551673 := by decide +kernel
theorem crc_run_7 : crcRun 1346551673 = 443032739 := by decide +kernel
theorem crc_run_8 : crcRun 443032739 = 2256738479 := by decide +kernel
theorem crc_run_9 : crcRun 2256738479 = 2562043719 := by decide +kernel
theorem crc_runs (n r : Nat) : ((List.replicate (n + 1) (List.replicate 204 (0#8))).flatten).foldl crcStep r =
      ((List.replicate n (List.replicate 204 (0#8))).flatten).foldl crcStep (crcRun r) := by
  rw [List.replicate_succ, List.flatten_cons, List.foldl_append]; rfl
theorem crc_zeros : ((List.replicate 10 (List.replicate 204 (0#8))).flatten).foldl crcStep 0xFFFF_FFFF = 2562043719 := by
  rw [crc_runs, crc_run_0, crc_runs, crc_run_1, crc_runs, crc_run_2, crc_runs, crc_run_3, crc_runs, crc_run_4, crc_runs,
    crc_run_5, crc_runs, crc_run_6, crc_runs, crc_run_7, crc_runs, crc_run_8, crc_runs, crc_run_9]
  rfl
theorem crc_split (l : List Byte) : crc32c (l ++ [1, 0, 0, 0]) =
    Nat.xor ([1, 0, 0, 0].foldl crcStep (l.foldl crcStep 0xFFFF_FFFF)) 0xFFFF_FFFF := by
  unfold crc32c
  rw [List.foldl_append]; rfl
theorem bank_crc : crc32c ((List.replicate 10 (List.replicate 204 (0#8))).flatten ++ [1, 0, 0, 0]) = 1208668568 := by
  rw [crc_split, crc_zeros]; decide +kernel
/-- The first 2044 bytes of a training bank that is all zero but for its type. -/
theorem bank_bytes : let s := (State.reset.poke (cAddr 0 0x2_0000 + 2040) (leBytes 4 1)).poke (cAddr 0 0x2_0000 + 2044) (leBytes 4 1208668568)
  (s.bytes (cAddr 0 0x2_0000) 0x800).take 2044 = (List.replicate 10 (List.replicate 204 (0#8))).flatten ++ [1, 0, 0, 0] := by decide +kernel
/-- R338: a bank of type 1 for head 0 whose CRC-32C is right may be trained. -/
theorem witness_trainable : let s := (State.reset.poke (cAddr 0 0x2_0000 + 2040) (leBytes 4 1)).poke (cAddr 0 0x2_0000 + 2044) (leBytes 4 1208668568)
  trainable s 0 0 0 = true := by
  intro s
  have h : crc32c ((s.bytes (cAddr 0 (0x2_0000 + 0x800 * 0)) 0x800).take 2044) = 1208668568 := (congrArg crc32c bank_bytes).trans bank_crc
  have g : leAt (s.bytes (cAddr 0 (0x2_0000 + 0x800 * 0)) 0x800) 2040 1 = 1 := by decide +kernel
  have g2 : leAt (s.bytes (cAddr 0 (0x2_0000 + 0x800 * 0)) 0x800) 2042 1 = 0 := by decide +kernel
  have g3 : leAt (s.bytes (cAddr 0 (0x2_0000 + 0x800 * 0)) 0x800) 2044 4 = 1208668568 := by decide +kernel
  have b : beamsOf s 0 0 = 0xFFF := by decide +kernel
  have n : s.num (cAddr 0 (0x2_0000 + 0x800 * 0) + 2042) 1 % 4 = 0 := by decide +kernel
  unfold trainable
  rw [b, n]
  unfold bankGood
  simp only [h, g, g2, g3]
  rfl
/-! The spindle, the stepper, calibration and the FIFOs (R260 to R290, R189 to R193, R386 to R396). -/

/-- Engine 5 of slice 0 with a program and bytes of its parameter window, the spindle as given. -/
def mailed (seq op target : Nat) (x : Spin) : State :=
  { State.reset with
    engines := [(5, { code := [0], r := { dmem := dmemPoke (dmemPoke [] 0x7780 (leBytes 4 seq ++ leBytes 1 op)) 0x7788 (leBytes 4 target) } })]
    spins := [(0, x)] }
theorem witness_spindle :
    let s := mailed 1 1 3000
    let forced := fun (v : Nat) => { (mailed 0 0 0 { state := 3, openFrom := 600, openAt := 0, matched := some 0 }) with now := 400 * v }
    [mailed 1 1 0, mailed 1 1 1199, mailed 1 1 1200, mailed 1 1 7200, mailed 1 1 7201].all (fun f => mailNew (f {}) 0 1) = true ∧
      mailTarget (mailed 1 1 7200 {}) 0 = 7200 ∧ [0, 1, 4, 5, 6, 7, 8, 9].all (fun n => mailNew (s { state := n }) 0 1) = true ∧
      mailNew (s { state := 7, leads := some 1 }) 0 1 = true ∧
      mailNew (s { state := 8, leads := some 3 }) 0 1 = true ∧
      [0, 1, 2, 3, 4, 5, 6, 7, 8, 9].all (fun n => mailNew (mailed 1 2 0 { state := n }) 0 2) = true ∧
      mailNew (mailed 1 2 0 { state := 0, waiting := some (1, 2000) }) 0 2 = true ∧
      [0, 8, 9].all (fun n => mailNew (mailed 1 3 0 { state := n }) 0 3) = true ∧
      mailNew (mailed 0 3 0 { valid := true }) 0 3 = false ∧
      program5 (s {}) 0 = true ∧ ((s { state := 8, leads := some 3 }).spin 0).leads = some 3 ∧
      (let a := { mailed 0 0 0 { state := 2 } with now := 16000000 }
       program5 a 0 = true ∧ (a.spin 0).state = 2 ∧ (a.spin 0).since + 40000000 ≤ a.time) ∧
      program5 (forced 5000000) 0 = true ∧ 600 * 65536 ≤ forcedNow (forced 5000000) 0 ∧ 0 + 10000000 ≤ (forced 5000000).time ∧
      (let r := { mailed 0 0 0 { state := 4, target := 1000, near := some 0 } with now := 8000000 }
       program5 r 0 = true ∧ ((999 : Nat) - (1000 : Int)).natAbs * 1000 ≤ 1000 ∧ 0 + 20000000 ≤ r.time) ∧
      (let l := mailed 0 0 0 { state := 5, bad := 3 }
       (l.spin 0).locked = true ∧ 3 ≤ (l.spin 0).bad ∧ ¬ (∃ r, (l.spin 0).resumed = some r)) ∧
      (let c := { mailed 0 0 0 { state := 1, recatching := true } with now := 200000 }
       program5 c 0 = true ∧ (c.spin 0).since + 500000 ≤ c.time) ∧
      (let l := { mailed 0 0 0 { state := 5, turned := 0 } with now := 100000000 }
       program5 l 0 = true ∧ (l.spin 0).turned + 250000000 ≤ l.time) := by
  dsimp only
  and_intros <;> first | decide +kernel | (rintro ⟨r, h⟩; exact absurd h (by decide +kernel +revert))
/-- A loss of synchronism soon after a resumption, and its supervision. -/
theorem witness_soon :
    let l := mailed 0 0 0 { state := 5, bad := 3, resumed := some 0 }
    let m := l.poke (cAddr 0 0x1_0000) []
    (l.spin 0).resumed = some 0 ∧ l.time ≤ 0 + 5000000 ∧ m.time = l.time := by decide +kernel
/-- R262, R264: a run command is clipped to the ceiling and starts a catch; a catch at rest leads to alignment. -/
theorem test_spindle_starts :
    let s := after (.spindleRun 0) ((mailed 7 1 5000 {}).setCf 0 0x4208 13 0 3000)
    let t := after (.catchMeasurementEnd 0 59 false) s
    (s.spin 0).state = 1 ∧ (s.spin 0).target = 3000 ∧ (s.spin 0).result = 1 ∧ (t.spin 0).state = 2 ∧ (t.spin 0).speed = 0 ∧
      ((after (.catchMeasurementEnd 0 301 false) s).spin 0).state = 4 ∧
      ((after (.catchMeasurementEnd 0 1200 true) s).spin 0).state = 8 := by decide +kernel
/-- R274: a second failed start leads through coasting to FAULT with reason 2. -/
theorem test_second_failed_start :
    let s := after (.failedStart 0 100) (mailed 0 0 0 { valid := true, state := 3, starts := 1, target := 3000, openFrom := 600 })
    let t := after (.spindleAtRest 0 59) s
    (s.spin 0).state = 8 ∧ (s.spin 0).result = 4 ∧ (t.spin 0).state = 9 ∧ (t.spin 0).reason = 2 := by decide +kernel
theorem witness_gate :
    let on := (State.reset.setFf 0 0x2018 0 0 1).setFf 0 0x2040 1 1 1
    let full := { State.reset with spins := [(0, { vins := List.replicate 999 6000 })] }
    let low := { channelled { someWrite with started := true } with spins := [(0, { vins := List.replicate 999 6000 })] }
    let braking := { State.reset with safe := [(0, { run := true, braking := true })] }
    0 < on.nslices ∧ on.down = false ∧ on.ff 0 0x2018 0 0 = 1 ∧ (on.spin 0).high = false ∧ on.ff 0 0x2040 1 1 = 1 ∧
      (braking.seq 0).run = true ∧ (braking.seq 0).braking = true ∧
      ((6000 :: (full.spin 0).vins).take 1000).length = 1000 ∧ ((6000 :: (on.spin 0).vins).take 1000).length < 1000 ∧
      (low.setCf 0 0x4208 32 32 1).cf 0 0x4208 32 32 = 1 ∧ low.front 0 = some { someWrite with started := true } := by decide +kernel
/-- R260, R261, R265: what trips and VIN do. -/
theorem test_gate :
    let on := (State.reset.setFf 0 0x2018 0 0 1).setFf 0 0x2040 1 1 1
    let full := { State.reset with spins := [(0, { vins := List.replicate 999 6000 })] }
    let t := after (.speedCeilingUpdate 0 6000) full
    t.cf 0 0x4208 13 0 = 4000 ∧ t.cf 0 0x4208 32 32 = 1 ∧
      (after (.gateEnable 0 true) (after (.overVoltageTrip 0) on)).ff 0 0x2018 0 0 = 0 ∧
      (after (.vdsTrip 0 2) on).ff 0 0x2018 7 6 = 2 := by decide +kernel
/-- Engine 5 with a command in the block of axis a and a limit of 1,000, the axis as given. -/
def stepped (a seq op target : Nat) (x : Axis) : State :=
  { State.reset with
    engines := [(5, { code := [0], r := { dmem := dmemPoke (dmemPoke (dmemPoke [] (0x7700 + 16 * a) (leBytes 4 seq ++ leBytes 1 op))
      (0x7708 + 16 * a) (leBytes 4 target)) (0x7418 + 48 * a) (leBytes 4 1000) } })]
    axes := [(a, x)] }
/-- The same with a move form committed for the axis. -/
def formed (a w : Nat) (x : Axis) : State := (stepped a 0 0 0 x).setOut 0 (0xC0 + a) (BitVec.ofNat 32 w)
theorem witness_stepper :
    let held := fun (op : Nat) => (stepped 0 1 op 500 { state := 1 }).setCf 0 0x4100 7 7 1
    let at_ := fun (a : Nat) (x : Axis) => (stepped a 0 0 0 x).axis 0 a
    let slot : StallSlot := { load := 111, amp := 1200, emf2 := 0, due := 0 }
    [0, 1, 5].all (fun n => axisNew (stepped 3 1 1 500 { state := n }) 0 3 1 && !axisBusy (stepped 3 1 1 500 { state := n }) 0 3 1) = true ∧
      axisNew (stepped 0 1 2 0 { state := 2, runs := 1 }) 0 0 2 = true ∧ axisBusy (stepped 0 1 2 0 { state := 2, runs := 1 }) 0 0 2 = true ∧
      axisNew (stepped 0 1 2 0 { state := 1 }) 0 0 2 = true ∧ axisBusy (stepped 0 1 2 0 { state := 1 }) 0 0 2 = false ∧
      axisNew (stepped 2 1 3 0 { state := 1 }) 0 2 3 = true ∧ axisBusy (stepped 2 1 3 0 { state := 1 }) 0 2 3 = false ∧
      axisNew (stepped 0 1 3 0 { state := 2, runs := 1 }) 0 0 3 = true ∧ axisBusy (stepped 0 1 3 0 { state := 2, runs := 1 }) 0 0 3 = true ∧
      axisBusy (stepped 2 1 1 500 { state := 2, runs := 1 }) 0 2 1 = false ∧ axisNew (held 1) 0 0 1 = true ∧ axisBusy (held 1) 0 0 1 = true ∧
      [0, 1].all (fun n => program5 (formed 1 (2 ^ 31 + 2 ^ 24) { state := n }) 0) = true ∧
      (formed 1 (2 ^ 31 + 2 ^ 24) { state := 1 }).out 0 0xC1 = some 0x8100_0000 ∧ bitSet (0x8100_0000 : Word32).toNat 31 = true ∧
      (at_ 1 { state := 2, runs := 2, form := some 127 }).form = some 127 ∧ (at_ 1 { state := 2, runs := 2 }).arrived = true ∧
      (at_ 1 { state := 2, runs := 1 }).arrived = true ∧ (at_ 2 { state := 3, runs := 4, stage := 3 }).arrived = true ∧
      (at_ 0 { state := 3, runs := 3, stage := 1 }).arrived = true ∧
      hasStalled 300 false (at_ 2 { state := 2, seen := [slot, slot, slot] }).seen = true ∧
      hasStalled 1200 false (at_ 0 { state := 2, seen := [slot, slot, slot] }).seen = true ∧
      hasStalled 300 true (at_ 3 { state := 3, runs := 4, stage := 3, seen := [slot, slot, slot] }).seen = true ∧
      min (if 0 < 2 then 1200 else 300) (axisParam (stepped 0 0 0 0 {}) 0 0 12 2) ≤ 1200 := by decide +kernel
/-- R282, R284: a move beyond the limit is clipped with reason 2 and ends at its target. -/
theorem test_stepper_clips :
    let s := after (.stepperMove 0 1) (stepped 1 1 1 5000 { state := 1 })
    let t := after (.stepperMoveEnd 0 1) (stepped 1 0 0 0 { state := 2, runs := 1, target := 1000 })
    let u := after (.sledMoveForm 0 1) (formed 1 (2 ^ 31 + 3 * 2 ^ 24 + 0xFF_FFFF) { state := 1, pos := 10 })
    (s.axis 0 1).target = 1000 ∧ (s.axis 0 1).reason = 2 ∧ (s.axis 0 1).result = 1 ∧ (t.axis 0 1).pos = 1000 ∧
      (t.axis 0 1).result = 2 ∧ (t.axis 0 1).state = 1 ∧ (u.axis 0 1).target = 9 ∧ (u.axis 0 1).form = some 3 := by decide +kernel
theorem witness_calibration :
    let s := State.reset
    let held := (s.setFf 0 0x2018 0 0 1).setOut 0 0x13 5
    let run := fun (b : Bool) (us : Nat) => { s with cal := [(0, some { proc := 1, head := 0, beam := 11, start := 0, superseded := b })], now := 400 * us }
    aHead s 0 1 = true ∧ calRefusal s 0 1 0 11 = 0 ∧ calRefusal s 0 1 0 12 ≠ 0 ∧ calRefusal s 0 8 0 0 = 0 ∧ calRefusal held 0 7 0 0 = 3 ∧
      (s.setCf 0 0x4008 1 0 1).cf 0 0x4008 1 0 = 1 ∧ s.cf 0 0x4008 1 0 ≠ 1 ∧ ((run true 0).calRun 0).map (fun c => c.superseded) = some true ∧
      ((run false 100).calRun 0).map (fun c => c.proc) = some 1 ∧ ((run false 100).time - 0) / 1000 = 100 ∧ calTimeout 1 = 100 := by
  decide +kernel
/-- R191, R193: an offset is committed at the end, and nothing is where firmware wrote it meanwhile. -/
theorem test_calibration_ends :
    let s := after (.calDataOffset 0 1 2) State.reset
    let t := after (.calEnd 0 false (some [513])) s
    let u := after (.calEnd 0 false (some [513])) { s with cal := s.cal.map (fun e => (e.1, e.2.map (fun c => { c with superseded := true }))) }
    s.cf 0 0x4008 1 0 = 1 ∧ s.cf 0 0x4010 18 18 = 0 ∧ t.ff 0 0x1070 9 0 = 513 ∧ t.cf 0 0x4008 1 0 = 2 ∧
      u.ff 0 0x1070 9 0 = State.reset.ff 0 0x1070 9 0 ∧ u.cf 0 0x4008 15 12 = 2 := by decide +kernel
/-- FIFO n of slice 0 as given, on, in drop mode or overrun mode. -/
def fed (n : Nat) (ovm : Bool) (f : Fifo) : State :=
  { ((State.reset.setCf 0 (fifoBase n + 8) 1 1 1).setCf 0 (fifoBase n + 8) 2 2 (b2n ovm)) with fifos := [(n, f)] }
theorem witness_fifos :
    let full := List.replicate 511 ({} : Entry)
    let w : Word := 0x3_0000_0000
    let put := fun (own : Bool) (s : State) => MayAccess s 0 .store own false 0 (0x8000 + 0x40 * (0 % 8)) false
    put true (fed 0 false {}) ∧ put false (fed 0 true { ovr := true }) ∧ put true (fed 0 false { gap := true }) ∧
      MayAccess (fed 0 false {}) 0 .load true false 0 (fifoBase 0 + 0x18) false ∧
      MayAccess (fed 8 false {}) 0 .load false false 0 (fifoBase 8 + 0x18) false ∧ fifoOn State.reset 0 0 = false ∧
      fifoOn (fed 7 false {}) 0 7 = true ∧ fifoOvm (fed 7 true {}) 0 7 = true ∧ flag w 32 = true ∧ flag w 33 = true ∧ flag 0 33 = false ∧
      512 - ((fed 7 false { vis := full }).fifo 0 7).vis.length < 2 ∧ ((fed 0 false { gap := true }).fifo 0 0).gap = true ∧
      ((fed 0 false { item := some [1] }).fifo 0 0).item = some [1] ∧ ((fed 0 false {}).fifo 0 0).vis = [] ∧
      ((fed 0 false {}).fifo 0 0).skip = false ∧ ((fed 0 false { vis := full }).fifo 0 0).vis ≠ [] ∧ State.reset.down = false ∧
      captureWords ((fed 8 false {}).setCf 0 0x8440 3 0 4) 0 4 0 [] 0 [] = some [0, 0, 0, 0, 0, 0] ∧
      ((fed 8 false {}).setCf 0 0x8440 3 0 4).cf 0 0x8440 3 0 = 4 ∧ fifoOn ((fed 8 false {}).setCf 0 0x8440 3 0 4) 0 8 = true ∧
      ceilDiv (6 + 1) 8 + 1 ≤ 8192 := by decide +kernel
/-- R388, R389: three words whose last has two valid bytes make one entry of ten bytes, the first and the last of its item. -/
theorem test_fifo_item :
    let put := fun (v : Word) (s : State) => after (.tracePut 0 true v) s
    let s := put 0x6_5555_6666 (put 0x3333_4444 (put 0x1_1111_2222 (fed 0 false {})))
    let t := after (.fifoTagPop 0 true 0 0 3) s
    (s.fifo 0 0).vis.map (fun e => (e.vb, e.first, e.last, e.burgee)) = [(10, true, true, false)] ∧
      (t.core 0).r 3 = 0x8000_00CA ∧ (t.fifo 0 0).vis = [] ∧ (t.fifo 0 0).latch = 0x6666_3333_4444_1111_2222 := by decide +kernel
/-! Self-tests, memory, registers and security (R85, R143 to R146, R411 to R422, R517 to R549, R604). -/

/-- Core 0 as given, with doorbells and tags. -/
def booted : State := withCore (coreAt .boot)
theorem witness_self_tests :
    let s := State.reset
    let claimed := { s with bufs := [(1, { owners := [0] })] }
    let used := { claimed with cache := { bufTest := [(1, some { handle := 0x100, core := 0 })] } }
    let run := { s with cache := { wayTest := [(0, some 8)], bufTest := [(0, some { handle := 0x100, core := 0 })] } }
    wayTestOk s 0 8 = true ∧ wayTestOk s 0 15 = true ∧ wayTestOk s 0 3 = false ∧ wayTestOk run 0 9 = false ∧
      Tbl.at run.cache.wayTest 0 = some 8 ∧ Tbl.at s.cache.bufTest 0 = none ∧ handleOk claimed 0x100 = true ∧ handleDie 0x100 = 0 ∧
      ((claimed.buf 0 1).gen.toNat = handleGen 0x100) ∧ 0 ∈ (claimed.buf 0 1).owners ∧ bufBusy claimed 0x100 = false ∧
      Tbl.at used.cache.bufTest 0 = none ∧ bufBusy used 0x100 = true ∧ Tbl.at run.cache.bufTest 0 = some { handle := 0x100, core := 0 } ∧
      (s.buf 0 1).owners = [] := by decide +kernel
theorem witness_memory :
    let s := State.reset.setCf 0 0x9808 3 0 15
    0 < s.nslices ∧ s.down = false ∧ s.stopped = false ∧ CacheSound s ∧
      MayAccess booted 0 .store true false 0 0x9800 true ∧ MayAccess booted 0 .store false false 0 0x9820 false ∧
      Barred supervisor 0 true false 0 0x9800 ∧ Barred { booted with sealed := true } 0 false false 0 0x9800 ∧
      State.reset.cf 0 0x9808 3 0 = 0 ∧ Nat.land (3#4).toNat (s.cf 0 0x9808 3 0) ≠ 0 ∧
      Nat.land (0#4).toNat (s.cf 0 0x9808 3 0) = 0 ∧ (3#4) ≠ 0 ∧ 4 ≤ 4 ∧
      s.cf 0 0x9810 31 16 ≠ 0 ∧ s.cf 0 0x9810 15 0 ≠ 0 ∧ memKind (gddrBase 0) = 3 ∧ memDie (gddrBase 0) = 0 ∧
      memKind (cAddr 0 0x1_0000) ≠ 3 := by decide +kernel
/-- R412, R604: a transfer that fails its four replays loses channel 2 and stops the package with code 4. -/
theorem test_channel_lost :
    let t := after (.edcFail 0 2 4) (State.reset.setCf 0 0x9808 3 0 15)
    t.cf 0 0x9808 3 0 = 11 ∧ t.cf 0 0x9808 11 8 = 4 ∧ t.cf 0 0x0200 20 20 = 1 ∧ t.cf 0 0x0200 31 24 = 4 ∧
      Tbl.at t.snap.count 360 = 4 := by decide +kernel
theorem witness_registers :
    let s := booted.modCore 0 (fun k => { k with cq := [5, 6] })
    let mine := fun (fdie : Bool) (n : Nat) (s : State) => (if fdie then fdieStore 0 n 1 s else cdieStore 0 0 n 1 s).isNone
    let bank := { channelled { someChop 1 with started := true, bank := some 3 } with cores := booted.cores }
    MayAccess s 0 .store true false 0 0x0140 false ∧ MayAccess s 0 .store false false 0 (0x0180 + 8 * (0 % 8)) false ∧
      MayAccess s 0 .load true false 0 (0x0100 + 8 * (0 % 8)) false ∧ MayAccess s 0 .store true false 0 (0x01C0 + 8 * (0 % 8)) false ∧
      MayAccess s 0 .store false false 0 (0x0308 + 8 * (0 % 8)) false ∧ (s.core 0).cq = [5, 6] ∧ (booted.core 0).cq = [] ∧
      MayAccess s 0 .store true false 0 0x1_0008 (!inWindow false 0x1_0008 && guarded false 0 0x1_0008) ∧
      inWindow false 0x1_0008 = true ∧ inWindow false 0x1_0808 = true ∧ inWindow false 0x2_0000 = true ∧
      MayAccess bank 0 .store true false 0 0x2_1800 false ∧ bankUser bank 0 3 = some 0 ∧
      MayAccess s 0 .store false false 0 0x9810 (!inWindow false 0x9810 && guarded false 0 0x9810) ∧
      MayAccess s 0 .store false false 0 0x9000 (!inWindow false 0x9000 && guarded false 0 0x9000) ∧
      MayAccess s 0 .store false false 0 0x9830 false ∧
      MayAccess s 0 .store false true 0 0x2018 (!inWindow true 0x2018 && guarded true 0 0x2018) ∧
      inWindow false 0x9810 = false ∧ mine false 0x9810 s = true ∧ guarded false 0 0x9810 = false ∧
      (regRow false 0 0x9810).isSome = true ∧ guarded false 0 0x9000 = true ∧ mine false 0x9000 s = true ∧
      (regRow false 0 0x9000).isSome = true ∧ regRow false 0 0x9830 = none ∧ mine false 0x9830 s = true ∧
      guarded false 0 0x9830 = false ∧ mine true 0x2018 s = false ∧ Barred supervisor 0 false false 0 0x9000 := by
  try dsimp only
  and_intros <;> decide +kernel
/-- Accesses that a region or the map bars. -/
theorem witness_barred_accesses :
    let shut := withCore { coreAt .task with rgnAttr := Vector.replicate 64 0 }
    awake shut 0 = true ∧ (shut.core 0).broken = false ∧ flag (shut.core 0).status 1 = false ∧ 0 ≤ 8 ∧
      (accessFault (shut.started 0) 0 .store (regAt true 0 false 0 0x0140) 8).isSome = true ∧
      (accessFault (shut.started 0) 0 .load (regAt false 0 false 0 (fifoBase 0 + 0x18)) 8).isSome = true ∧
      (accessFault (supervisor.started 0) 0 .store (regAt false 0 false 4 0x9800) 8).isSome = true := by decide +kernel
/-- R7, R85: a read-only field keeps its value; a Supervisor's store to a Boot field raises 0x0D. -/
theorem test_register_store :
    let t := after (.registerWrite 0 false false 0 0x9810 0xFFFF_FFFF_0000_0001) booted
    let u := after (.registerWrite 0 false false 0 0x9000 0) supervisor
    t.cf 0 0x9810 15 0 = 1 ∧ t.cf 0 0x9810 31 16 = 0 ∧ t.cf 0 0x9810 63 32 = 0 ∧ (u.core 0).cause = 0x0D ∧
      (u.core 0).eaddr = BitVec.ofNat 64 (cAddr 0 0x9000) ∧ u.regs = supervisor.regs := by decide +kernel
theorem witness_identity :
    let s := withArgs 0 0
    let boot := withCore (((coreAt .boot).setR 1 0).setR 2 0)
    let sealed := { boot with sealed := true }
    let one := { State.reset with cores := [(1, ((coreAt .boot).setR 1 0).setR 2 0)] }
    let other := { boot with cores := boot.cores ++ [(1, coreAt .boot)] }
    let meas := fun (l : Level) (n : Nat) => withCore (((coreAt l).setR 1 0x10_1000).setR 2 (BitVec.ofNat 64 n))
    let recordOf := fun (n : Nat) => ({ kind := 2, meas := List.replicate n [] } : OpenRec)
    let full := fun (l : Level) (n : Nat) => (meas l 0x100).setSec { (meas l 0x100).sec with
      boot := some (recordOf n), act := some (recordOf n) }
    MayIssue s 0 0x18 0 [] ∧ MayIssue s 0 0x18 1 [] ∧ MayIssue boot 0 0x17 0 [] ∧ boot.sealed = false ∧
      boot.sec.boot.map (fun r => r.kind) = some 1 ∧
      sealed.sealed = true ∧ MayIssue sealed 0 0x17 0 [] ∧ MayIssue one 1 0x17 0 [] ∧ one.sealed = false ∧
      (other.core 1).level = .boot ∧ (other.core 1).run ≠ .inReset ∧ MayIssue other 0 0x17 0 [] ∧
      (boot.setSec { boot.sec with tried := true, control := ⟨1, 0, some 1⟩ }).sec.trial = some 1 ∧
      MayIssue (meas .boot 0x100) 0 0x16 0 [⟨0x10_1000, 48, true, false⟩] ∧
      MayIssue (meas .supervisor 0xFFFF) 0 0x16 0 [⟨0x10_1000, 48, true, false⟩] ∧
      MayIssue (full .boot 13) 0 0x16 0 [⟨0x10_1000, 48, true, false⟩] ∧
      MayIssue (full .supervisor 14) 0 0x16 0 [⟨0x10_1000, 48, true, false⟩] ∧
      MayIssue (meas .task 0x100) 0 0x16 0 [⟨0x10_1000, 48, true, false⟩] ∧
      placeOf ((meas .boot 0x100).woken 0) 0 0x10_1000 48 false = some 0x0100_1000 ∧
      (readOperand 0 0x0100_1000 48 ((meas .boot 0x100).woken 0)).1 = some (List.replicate 48 0) ∧
      (State.reset.sec.boot.map (fun r => r.meas.length)) = some 0 ∧ (meas .supervisor 0x100).sec.act = none ∧
      (full .boot 13).sec.boot.map (fun r => r.meas.length) = some 13 ∧
      (full .supervisor 14).sec.act.map (fun r => r.meas.length) = some 14 := by
  try dsimp only
  and_intros <;> first | decide +kernel | exact fetch_done (by decide +kernel)
theorem witness_retain :
    let s := withArgs 2 0x10_1000
    let busy := { s with aon := { shadowRun := some (3, [1, 2]) } }
    MayIssue s 0 0x15 0 [⟨0x10_1000, secLen 4 2, true, false⟩] ∧ MayIssue s 0 0x15 1 [⟨0x10_1000, secLen 4 2, true, false⟩] ∧
      MayIssue busy 0 0x15 1 [⟨0x10_1000, secLen 4 2, true, false⟩] ∧
      s.nslices = 4 ∧ placeOf (s.woken 0) 0 0x10_1000 8 false = some 0x0100_1000 ∧ secLen 4 2 = 8 ∧
      (readOperand 0 0x0100_1000 8 (s.woken 0)).1 = some [0, 0, 0, 0, 0, 0, 0, 0] ∧ busy.aon.shadowRun = some (3, [1, 2]) ∧
      s.aon.shadowRun = none := by
  try dsimp only
  and_intros <;> first | decide +kernel | exact fetch_done (by decide +kernel)
/-- R145: a section written raises the block sequence and stands at its place in the retained block. -/
theorem test_retain_writes :
    let t := after (.retain 0 3 1 2 0) (holding [1, 2, 3, 4, 5, 6, 7, 8] (withArgs 2 0x10_1000))
    t.bytes (aonBase + 0x4180) 8 = [1, 2, 3, 4, 5, 6, 7, 8] ∧ t.blockSeq = 1 ∧ (t.core 0).r 3 = 1 := by decide +kernel
/-- R143: SEAL by core 0 at Boot level seals, and a second one fails with detail 1. -/
theorem test_measure_appends :
    let s := withCore (((coreAt .supervisor).setR 1 0x10_1000).setR 2 0x200)
    let t := after (.measure 0 3 1 2 0) (s.setSec { s.sec with act := some { kind := 2 } })
    (t.core 0).r 3 = 1 ∧ t.sec.act.map (fun r => r.meas.length) = some 1 := by decide +kernel
theorem witness_key_store :
    let s := booted
    let q := fun (op : Nat) => { s with sec := { key := some { op := op, core := 0, drive := 0, keyId := 7, handle := 0, offset := 0 } } }
    let held := { q 3 with keys := { media := [⟨0, 7, []⟩] } }
    let full := { q 5 with keys := { keks := List.replicate 4 default } }
    MayAccess s 0 .store true false 0 0xE048 false ∧ MayAccess (q 4) 0 .store false false 0 0xE048 false ∧
      s.sec.key = none ∧ (q 4).sec.key.isSome = true ∧ held.keys.media.any (fun m => m.drive == 0 && m.id == 7) = true ∧
      (q 3).keys.media.any (fun m => m.drive == 0 && m.id == 7) = false ∧ (q 5).keys.keks.length < 4 ∧
      4 ≤ full.keys.keks.length ∧ { held with keys := { locked := true } }.keys.locked = true ∧ held.keys.locked = false ∧
      MayAccess s 0 .store true false 0 0xE060 true ∧ MayAccess s 0 .store false false 0 0xE018 true ∧
      MayAccess s 0 .store true false 0 0xE008 true ∧ oemBurnt s 0 = false ∧
      oemBurnt { s with sec := { oem := [(3, [1])] } } 3 = true ∧ s.cf 0 0xE008 1 1 = 0 ∧ s.cf 0 0xE008 0 0 ≠ 0 ∧
      Barred supervisor 0 true false 0 0xE060 ∧ Barred supervisor 0 false false 0 0xE018 ∧
      Barred { booted with sealed := true } 0 true false 0 0xE008 := by
  try dsimp only
  and_intros <;> decide +kernel
/-- R540: a key of the drive evicted ends with result 1, and the same key again with result 5. -/
theorem test_key_evict :
    let s := { booted with keys := { media := [⟨0, 7, []⟩, ⟨1, 7, []⟩] } }
    let go := fun (s : State) => after .keyCommandEnd (after (.keyEvict 0 true 0) (s.setCf 0 0xE040 63 32 7))
    (go s).keys.media = [⟨1, 7, []⟩] ∧ (go s).cf 0 0xE050 3 0 = 1 ∧ (go (go s)).cf 0 0xE050 3 0 = 5 ∧
      (go s).sec.key = none := by decide +kernel
theorem witness_tamper_and_records :
    let s := State.reset
    let opened := { s with sec := { act := some { kind := 2, openedAt := 0 } }, now := 800000000 }
    let old := { s with now := 24000000000 }
    let app := { s with sec := { appends := [[1], [2]] } }
    let lost := { s with sec := { noSlot := true } }
    s.down = false ∧ [0, 1, 2, 3, 4, 5, 6].all (fun n => decide (tamperClass s n ≤ 2)) = true ∧
      [0, 1].map (fun n => tamperClass (s.setCf 0 0xE020 13 0 n) 0) = [0, 1] ∧
      16 ≤ (Tbl.at { s with therm := [(0, { cold := 16 })] }.therm 0).cold ∧ dieExists s 0 = true ∧ debugOpen s = false ∧
      debugOpen (s.setCf 0 0xE000 27 26 1) = true ∧ (s.core 0).run = .running ∧
      debugReaches ({ booted with regs := (s.setCf 0 0xE000 27 26 3).regs }) 0 0x10_1000 8 = true ∧
      placeOf booted 0 0x10_1000 8 false = some 0x0100_1000 ∧ s.sealed = false ∧ { s with sealed := true }.sealed = true ∧
      opened.sec.act.map (fun r => r.kind) = some 2 ∧ 2000000000 ≤ opened.time ∧ old.sec.boot.map (fun r => r.kind) = some 1 ∧
      60000000000 ≤ old.time ∧ app.sec.appends = [1] :: [[2]] ∧ (s.core 0).run = .running ∧
      s.sec.boot.map (fun r => r.meas) = some [] ∧ s.stopped = false ∧ lost.sec.noSlot = true ∧ chooseSlot lost = none ∧
      { s with sec := { nonce := [1] } }.sec.nonce ≠ [] := by decide +kernel
/-- R522: the ROM takes the active slot when its image is valid; whether a signature verifies is not the model's to say. -/
theorem witness_slot_chosen (img : List Byte) :
    let s := { State.reset with sec := { slots := [(0, img)] } }
    imageValid s img = true → chooseSlot s = some 0 := by
  intro s h
  have e : slotImage s 0 = img := rfl
  have h0 : imageValid s (slotImage s 0) = true := e ▸ h
  exact List.find?_cons_of_pos (p := fun n => imageValid s (slotImage s n)) (a := 0) (l := [0, 1, 2]) h0
/-- R519: the form of an image of one component of 8 bytes, and of one whose component runs past its end. -/
theorem test_image_form :
    let img := fun (n : Nat) => leBytes 4 0x474D_4953 ++ leBytes 2 1 ++ leBytes 2 1 ++ leBytes 4 296 ++ leBytes 4 5 ++ leBytes 2 1 ++
      leBytes 14 0 ++ List.replicate 192 (0#8) ++ leBytes 2 1 ++ leBytes 2 0 ++ leBytes 4 288 ++ leBytes 4 n ++ List.replicate 52 (0#8) ++
      List.replicate 8 (7#8)
    imageForm (img 8) = true ∧ imageForm (img 9) = false ∧ imageSvn (img 8) = 5 := by decide +kernel
/-- R544: a tamper event of class 2 erases the key store; one of class 1 locks it. -/
theorem test_tamper_classes :
    let s := fun (n : Nat) => { (State.reset.setCf 0 0xE020 13 0 n) with keys := { media := [⟨0, 7, []⟩] } }
    (after .meshTamper (s 2)).keys.media = [] ∧ (after .meshTamper (s 1)).keys.media.length = 1 ∧
      (after .meshTamper (s 1)).keys.locked = true ∧ (after .meshTamper (s 0)).keys.locked = false ∧
      (after .meshTamper (s 0)).cf 0 0xE028 0 0 = 1 := by decide +kernel
/-! The ring and lending (R141, R142, R550 to R579). -/

/-- Package 3 of a ring that it is set to join, in a state of hr.stat, its ring state as given. -/
def ringed (st : Nat) (r : Ring → Ring) : State :=
  { (State.reset.setCf 0 0xF008 2 0 st) with ring := r { cfg := 0x1_0203, map := 0xE } }
/-- A frame of a type from a package to another. -/
def frameOf (type src dst : Nat) (bc : Bool) (data : List Word) : RFrame :=
  { type := type, src := src, dst := dst, bc := bc, ring := 0, hops := 2, seq := 9, data := data }
theorem witness_ring_forms :
    let form := fun (src : Nat) => frameOf 2 src src true (List.replicate 8 0)
    let part := frameOf 3 1 1 true (List.replicate 8 0)
    let parses := fun (f : RFrame) => parseFrame f.blocks = some f
    (ringed 1 id).bypassOpen = true ∧ (ringed 0 id).ringState = 0 ∧ (ringed 0 id).ring.form = none ∧ parses (form 1) ∧ parses (form 3) ∧
      parses (form 511) ∧ (form 1).src < (ringed 1 id).pos ∧ (ringed 1 id).pos < (form 511).src ∧
      (ringed 1 (fun r => { r with form := some (9, 5) })).ring.form = some (9, 5) ∧ (ringed 1 id).pos = 3 ∧ parses part ∧
      part.data.length = 8 ∧ (ringed 1 id).ring.part1 = none ∧
      (ringed 1 (fun r => { r with part1 := some { seq := 9, data := [], at_ := 0 } })).ring.part1.isSome = true ∧
      parses (frameOf 9 1 3 false [0]) ∧ parses (frameOf 9 1 3 false [0, 0]) ∧ parses (frameOf 1 1 1 true [5, 0]) ∧
      (ringed 2 id).formed = true ∧ parses (frameOf 4 1 1 true [1024]) ∧ parses (frameOf 4 1 1 true [0]) ∧
      bitSet ((frameOf 4 1 1 true [1024]).at_ 0) 10 = true ∧ (ringed 2 id).cf 0 0xF008 18 18 = 0 ∧
      parses (frameOf 7 1 200 false [8, 1]) ∧ (frameOf 7 1 200 false [8, 1]).hops < 1022 := by decide +kernel
theorem witness_ring_timers :
    let s := ringed 2 (fun r => { r with part0 := some { seq := 1, data := [], at_ := 0 } })
    let root := (ringed 2 id).setCf 0 0xF008 40 32 3
    let late := { ringed 2 id with now := 3200000 }
    s.ring.part0.map (fun p => p.at_) = some 0 ∧ 0 + s.rot ≤ s.time ∧ root.formed = true ∧ root.cf 0 0xF008 40 32 = root.pos ∧
      root.ring.timeSent = none ∧ late.ring.lastTime + 8000000 ≤ late.time ∧
      ((ringed 3 id).setCf 0 0xF008 19 19 1).cf 0 0xF008 19 19 = 1 ∧ (ringed 2 id).ring.refuse = 0 ∧
      (ringed 1 (fun r => { r with refuse := 2 })).ring.refuse ≠ 0 := by decide +kernel
/-- R557: the root's own FORM returns, and the measured rotation is the time it took. -/
theorem test_form_returns :
    let s := { ringed 1 (fun r => { r with form := some (9, 5) }) with now := 4 }
    let t := after (.formReceived 0 (frameOf 2 3 3 true (0xE :: List.replicate 7 0)).blocks 0) s
    t.ringState = 2 ∧ t.rot = 5 ∧ t.ring.map = 0xE ∧ t.cf 0 0xF008 40 32 = 3 := by decide +kernel
/-- R562: an error above 10 µs steps ring time, and one below it slews. -/
theorem test_time_received :
    let t := fun (n : Word) => after (.timeReceived 0 (frameOf 1 1 1 true [n, 0]).blocks 0) (ringed 2 id)
    (t 10001).toff = 10001 ∧ (t 10001).ring.slew = 0 ∧ (t 10000).toff = 0 ∧ (t 10000).ring.slew = 10000 := by decide +kernel
theorem witness_ring_messages :
    let s := { withArgs 0x10_1000 (8 * 2 ^ 16 + 5) with ring := { cfg := 0x1_0203, map := 0xE } }
    let f := s.setCf 0 0xF008 2 0 2
    let own := (f.modCore 0 (fun k => k.setR 2 (8 * 2 ^ 16 + 3)))
    let full := { f with ring := { f.ring with tx := List.replicate 32 default } }
    let recv := fun (rx : List RingMsg) => { withArgs 0x10_1000 0 with ring := { rx := rx } }
    MayIssue s 0 0x13 0 [⟨0x10_1000, 8, true, false⟩] ∧ MayIssue f 0 0x13 0 [⟨0x10_1000, 8, true, false⟩] ∧
      bitsOf (8 * 2 ^ 16 + 5) 21 16 = 8 ∧ bitsOf (8 * 2 ^ 16 + 5) 15 10 = 0 ∧ 8 * 2 ^ 16 + 5 < 2 ^ 24 ∧ s.formed = false ∧
      f.formed = true ∧ 32 ≤ full.ring.tx.length ∧ placeOf (s.woken 0) 0 0x10_1000 8 false = some 0x0100_1000 ∧
      (readOperand 0 0x0100_1000 8 (s.woken 0)).1 = some (List.replicate 8 0) ∧ MayIssue own 0 0x13 0 [⟨0x10_1000, 8, true, false⟩] ∧
      ((own.core 0).r 2).toNat % 512 = own.pos ∧ MayIssue (recv []) 0 0x14 0 [⟨0x10_1000, 64, false, true⟩] ∧
      placeOf ((recv []).woken 0) 0 0x10_1000 64 true = some 0x0100_1000 ∧ (recv [⟨1, 2, [3]⟩]).ring.rx = [⟨1, 2, [3]⟩] ∧
      MayIssue full 0 0x13 0 [⟨0x10_1000, 8, true, false⟩] ∧ MayIssue (recv [⟨1, 2, [3]⟩]) 0 0x14 0 [⟨0x10_1000, 64, false, true⟩] ∧
      (ringed 1 id).ring.gaveWay = false := by
  try dsimp only
  and_intros <;> first | decide +kernel | exact fetch_done (by decide +kernel)
theorem witness_ring_deliveries :
    let parses := fun (f : RFrame) => parseFrame f.blocks = some f
    let s := ringed 2 id
    parses (frameOf 7 1 3 false [8, 5]) ∧ parses (frameOf 7 1 1 true [8, 5]) ∧ s.bypassOpen = true ∧ s.formed = true ∧
      s.ring.seen = [] ∧ s.ring.rx.length < 32 ∧ parses (frameOf 8 1 3 false [9]) ∧ parses (frameOf 6 1 1 true [0, 0]) ∧
      parses (frameOf 6 1 1 true [1, 100]) ∧ s.snap.ring = none ∧ (frameOf 6 1 1 true [0, 0]).at_ 1 ≤ s.ringTime ∧
      s.ringTime < (frameOf 6 1 1 true [1, 100]).at_ 1 ∧
      (7, 0) ∈ (ringed 2 (fun r => { r with unacked := [(7, 0)] })).ring.unacked ∧ 0 + 4 * s.rot ≤ s.time := by decide +kernel
/-- R574, R575: a message of three bytes is delivered and answered. -/
theorem test_message_delivered :
    let t := after (.msgReceived 0 (frameOf 7 1 3 false [3, 0xCCBBAA]).blocks) (ringed 2 id)
    t.ring.rx = [⟨1, 9, [0xAA, 0xBB, 0xCC]⟩] ∧ t.ring.out.length = 1 := by decide +kernel
/-- A formed package with a supply of its own and ledger entries as given. -/
def lender (loans : Tbl (Option Loan)) : State :=
  (ringed 2 (fun r => { r with loans := loans })).setCf 0 0xC018 15 0 10000
theorem witness_lending :
    let s := lender []
    let out := lender [(0, some { state := 2, peer := 1, rate := 5, num := 7 })]
    let held := lender [(16, some { state := 2, peer := 1, rate := 5, num := 7 })]
    let offer := lender [(0, some { state := 1, peer := 1, rate := 5, num := 7 })]
    let last := lender [(0, some { state := 1, peer := 1, rate := 5, num := 7, tries := 3 })]
    let full := lender ((List.range 16).map (fun i => (i, some { state := 2, peer := 1, rate := 1, num := 1 + i })))
    let loan := fun (step : Nat) => frameOf 5 1 3 false [BitVec.ofNat 64 (step + 7 * 16 + 5 * 2 ^ 20)]
    let parses := fun (f : RFrame) => parseFrame f.blocks = some f
    lendBusy s = false ∧ s.formed = true ∧ s.present 1 = true ∧ 1 ≠ s.pos ∧ s.keepsSupply = true ∧ (1#16).toNat ≤ s.rateSupply ∧
      freeEntry s false = some 0 ∧ freeEntry full false = none ∧ (1#16).toNat ≤ full.rateSupply ∧ (ringed 1 id).formed = false ∧
      findLoan s false (fun l => l.num == 7) = none ∧ (findLoan out false (fun l => l.num == 7)).isSome = true ∧
      (findLoan held true (fun l => l.num == 7 && l.peer == 1)).isSome = true ∧ lendBusy (s.setCf 0 0xF040 0 0 1) = true ∧
      [1, 2, 3, 4, 5].all (fun n => decide (parses (loan n)) && isLoan s n (loan n) && decide ((loan n).loanNum = 7)) = true ∧
      freeEntry s true = some 16 ∧ (ringed 2 id).keepsSupply = false ∧
      (findLoan offer false (fun l => l.num == 7 && l.peer == 1 && (l.state == 1 || l.state == 4))).isSome = true ∧
      parses (frameOf 5 1 3 false [BitVec.ofNat 64 (6 + 2 ^ 13), 7]) ∧ isLoan s 6 (frameOf 5 1 3 false [BitVec.ofNat 64 (6 + 2 ^ 13), 7]) = true ∧
      confirmNums (frameOf 5 1 3 false [BitVec.ofNat 64 (6 + 2 ^ 13), 7]) = [7] ∧ (offer.loan 0).isSome = true ∧
      0 + 8 * offer.rot ≤ offer.time ∧ (last.loan 0).map (fun l => l.tries) = some 3 ∧
      (ringed 2 (fun r => { r with settled := false })).ring.settled = false ∧ s.ring.formedAt + 4 * s.rot ≤ s.time := by
  decide +kernel
/-- R567: an offer is entered before its answer, and its acceptance settles the lender's entry. -/
theorem test_loan_made :
    let s := after (.lend 1 5) (lender [])
    let n := s.cf 0 0xF040 63 48
    let t := after (.loanAcceptReceived 0 (frameOf 5 1 3 false [BitVec.ofNat 64 (2 + n * 16 + 5 * 2 ^ 20)]).blocks) s
    (s.loan 0).map (fun l => (l.state, l.peer, l.rate)) = some (1, 1, 5) ∧ s.ring.out.length = 1 ∧
      (t.loan 0).map (fun l => l.state) = some 2 ∧ t.cf 0 0xF040 0 0 = 0 := by decide +kernel
/-! Resets, the safety sequence, watchdogs and heat (R18 to R36, R489 to R513, R580 to R607). -/

/-- The device with its reset state as given. -/
def resetting (f : ResetSt → ResetSt) : State := { State.reset with rst := f {} }
theorem witness_package_resets :
    let held := fun (n : Nat) => resetting (fun r => { r with held := some n })
    let stopped := supervisor.setCf 0 0x0200 20 20 1
    let low := { stopped with rst := { pinLow := true } }
    let busy := { stopped with safe := [(1, { run := true })] }
    let auto := { (stopped.setCf 0 0x0210 0 0 1) with now := 4000000000 }
    [2, 3, 5, 6].all (fun n => decide ((held n).rst.held = some n)) = true ∧ State.reset.rst.held = none ∧ State.reset.rst.struck = none ∧
      (resetting (fun r => { r with struck := some 0 })).rst.struck.isSome = true ∧ State.reset.down = false ∧
      State.reset.stopped = false ∧ stopped.stopped = true ∧ stopped.down = false ∧ (List.range 4).all (fun k => !(stopped.seq k).run) = true ∧
      (∀ own, MayAccess supervisor 0 .store own false 0 0x0208 false) ∧ (supervisor.core 0).level ≠ .task ∧
      MayAccess task 0 .store true false 0 0x0208 false ∧ (task.core 0).level = .task ∧
      MayAccess { State.reset with cores := [(1, coreAt .supervisor)] } 1 .store false false 0 0x0208 false ∧
      State.reset.aon.vbatLost = false ∧ { State.reset with aon := { vbatLost := true } }.aon.vbatLost = true ∧
      auto.stopped = true ∧ auto.time < 0 + 100000000000 ∧ stopped.rst.pinLow = false ∧ low.rst.pinLow = true ∧
      (busy.seq 1).run = true ∧ 1 < busy.nslices ∧ auto.cf 0 0x0210 0 0 = 1 ∧ auto.rst.stopAt + 10000000000 ≤ auto.time := by
  decide +kernel
/-- R581, R584: rst.ctl with its key resets the package; another key does nothing. -/
theorem test_firmware_reset :
    let s := (withArgs 7 8).poke 0x10_0000_0000 [9]
    let t := after (.firmwareReset 0 true 0xA5C3 true) s
    (t.core 0).level = .boot ∧ (t.core 0).r 1 = 0 ∧ t.cf 0 0x0200 15 0 = 4 ∧ t.flt.boots = s.flt.boots + 1 ∧
      after (.firmwareReset 0 true 0xA5C2 true) s = s := by decide +kernel
theorem witness_safety :
    let s := State.reset
    let run := fun (x : SafetySeq) => { s with safe := [(0, { x with run := true })] }
    let ended := run { parked := true, gatesOff := true }
    let named := { ended with rst := { fdie := [0] } }
    let core := fun (k : Core) => { (withCore k).setCf 0 0x0280 15 0 2 with now := 8000 }
    let sealed := { core (coreAt .supervisor) with sealed := true }
    let later := { run {} with now := 4000000000 }
    let ends := { ended with rst := { endWaits := true }, regs := (s.setCf 0 0x0200 20 20 1).regs }
    0 < s.nslices ∧ ((run {}).seq 0).run = true ∧ (run {}).down = false ∧ seqTime (run {}) 0 < stageDue (run {}) 0 2 ∧
      (later.seq 0).run = true ∧ stageDue later 0 1 ≤ seqTime later 0 ∧ stageDue later 0 2 ≤ seqTime later 0 ∧
      stageDue later 0 3 ≤ seqTime later 0 ∧ (later.seq 0).gatesOff = false ∧ 10000000000 ≤ seqTime later 0 ∧
      (ended.seq 0).parked = true ∧
      (ended.seq 0).gatesOff = true ∧ ended.rst.endWaits = false ∧ named.rst.fdie.contains 0 = true ∧ named.down = false ∧
      ended.rst.fdie.contains 0 = false ∧ ends.rst.endWaits = true ∧ ends.stopped = true ∧ ends.rst.pinLow = false ∧
      ends.rst.fdie = [] ∧ (∀ j < ends.nslices, j ≠ 0 → (ends.seq j).run = false) ∧ s.hasCore 0 = true ∧
      (∀ own, MayAccess supervisor 0 .store own false (0 / 8) 0x02C0 false) ∧ ((core (coreAt .boot)).core 0).run = .running ∧
      ((core (coreAt .boot)).core 0).kickAt + (core (coreAt .boot)).cf 0 0x0280 15 0 * 10000 ≤ (core (coreAt .boot)).time ∧
      sealed.sealed = true ∧ (sealed.core 0).restartAt = none ∧ sealed.stopped = false ∧
      ((core { coreAt .supervisor with restartAt := some 0 }).core 0).restartAt = some 0 ∧ sealed.time < 0 + 1000000 ∧
      ((withCore { coreAt .supervisor with run := .stopped }).core 0).run = .stopped ∧ s.cf 0 0x0210 31 16 = 0 ∧
      (s.setCf 0 0x0210 31 16 1).cf 0 0x0210 31 16 ≠ 0 ∧
      (s.setCf 0 0x0210 31 16 1).rst.wdKick + (s.setCf 0 0x0210 31 16 1).cf 0 0x0210 31 16 * 1000000 ≤ { s with now := 400000 }.time := by
  try dsimp only
  and_intros <;> decide +kernel
/-- R600, R601: a watchdog of 20 µs faults its core, which restarts at its rst.cent. -/
theorem test_core_watchdog :
    let s := { ((withCore (coreAt .supervisor)).setCf 0 0x0280 15 0 2).setCf 0 0x0240 39 2 0x40 with now := 8000, sealed := true }
    let t := after (.coreWatchdogExpiry 0) s
    let u := after (.deckCoreRestart 0) t
    after (.coreWatchdogExpiry 0) { s with now := 7999 } = { s with now := 7999 } ∧ (t.core 0).run = .stopped ∧
      (t.core 0).cause = 0 ∧ (u.core 0).cause = 0x25 ∧ (u.core 0).epc = 0x10_0000 ∧ (u.core 0).pc = 0x100 ∧ (u.core 0).level = .supervisor ∧
      (u.core 0).bar = 0x1FFF_1FFF := by decide +kernel
theorem witness_thermal :
    let s := State.reset
    let hot := { s with therm := [(0, { hw := [200, 200, 200, 200], hwHi := 3 })] }
    let struck := { resetting (fun r => { r with struck := some 0 }) with now := 2000000000 }
    let five := resetting (fun r => { r with held := some 5 })
    let lane := resetting (fun r => { r with lanes := [(0, 0)] })
    s.down = false ∧ dieExists s 7 = true ∧ (s.die 0).evalAt ≤ s.time ∧ s.df 0 0xD000 1 0 ≠ 2 ∧ s.adm.throttle = none ∧
      decide ((thresholds 0).2.2.1 < (thermStep hot 0 (1 / 10000) (heatPower 0 ((hot.die 0).energy.getLastD [])) (hot.die 0).hw).getD 0 0 +
        (hot.die 0).hwOff) = true ∧ 3 ≤ (hot.die 0).hwHi ∧
      decide ((thresholds 0).2.2.1 < (thermStep s 0 (1 / 10000) (heatPower 0 ((s.die 0).energy.getLastD [])) (s.die 0).hw).getD 0 0) = false ∧
      s.rst.held = none ∧ five.rst.held = some 5 ∧ decide ((thresholds 0).2.2.2 ≤ ((5120 : Int) : Rat) / 64) = true ∧
      decide (((5119 : Int) : Rat) / 64 < (thresholds 0).2.2.2) = true ∧ struck.rst.struck = some 0 ∧ 0 + 5000000000 ≤ struck.time ∧
      (resetting (fun r => { r with struck := some 0 })).time < 0 + 5000000000 ∧ (List.range 4).all (fun k => !(struck.seq k).run) = true ∧
      linkExists s 3 = true ∧ 23 ≤ laneCount 3 0 ∧ 3 ≤ laneCount 3 1 ∧ linkExists s 7 = true ∧ s.rst.lanes = [] ∧ (2 * 0 + 0, 0) ∈ lane.rst.lanes ∧
      (2 * 0 + 0, 5) ∉ lane.rst.lanes ∧ lane.stopped = false ∧
      (∀ d < 8, decide ((thermStep struck d (1 / 10) 0 [(struck.die d).hw.getD 2 0, (struck.die d).hw.getD 2 0, (struck.die d).hw.getD 2 0,
        (struck.die d).hw.getD 3 0]).getD 2 0 + (struck.die d).hwOff < (thresholds d).2.2.2) = true) ∧ (s.seq 0).run = false := by decide +kernel
/-- R504, R507: the fourth evaluation of the hardware copy above its shutdown threshold is STRUCK. -/
theorem test_struck :
    let s := { State.reset with therm := [(0, { hw := [200, 200, 200, 200], hwHi := 3 })] }
    let t := after (.hwModelEvaluation 0) s
    t.rst.struck = some 0 ∧ t.cf 0 0xD088 7 0 = 1 ∧ t.cf 0 0xD088 10 8 = 0 ∧ t.cores = [] := by decide +kernel
/-! The host port and the management transports (R424 to R462). -/

/-- A submission entry with an opcode, a namespace and four command words. -/
def sqe (op nsid c10 c11 c12 c13 : Nat) : List Byte :=
  leBytes 2 op ++ leBytes 2 5 ++ leBytes 4 nsid ++ leBytes 32 0 ++ leBytes 4 c10 ++ leBytes 4 c11 ++ leBytes 4 c12 ++
    leBytes 4 c13 ++ leBytes 8 0
/-- The port open with one entry waiting in the admin queue and one in queue 1, and drive 0 loaded. -/
def portOpen : HostPort :=
  { perst := false, linkUp := true, started := true, cc := 0x46_0001, csts := 1
    sqs := [(0, some { size := 4, cqid := 0, tail := 1 }), (1, some { size := 4, cqid := 2, tail := 1 })]
    cqs := [(0, some { size := 4 }), (2, some { size := 4 })] }
def hosted (f : HostPort → HostPort) (m : MapEng) : State :=
  { (State.reset.setCf 0 0x4208 13 0 7200).setCf 0 0x4208 32 32 1 with host := f portOpen, maps := [(0, m)] }
theorem witness_host_port :
    let s := hosted id {}
    let e : Cqe := { cqid := 2, sqid := 1, cid := 5, sqhd := 0, sct := 0, sc := 0, dw0 := 0, dw1 := 0, phase := true }
    let full := hosted (fun h => { h with waiting := [e], cqs := [(2, some { size := 2, tail := 1 })] }) {}
    let off := hosted (fun h => { h with cc := 0, csts := 0 }) {}
    let down := { s with rst := { held := some 3 } }
    Tbl.at s.host.sqs 1 = some { size := 4, cqid := 2, tail := 1 } ∧ s.host.linkUp = true ∧ Tbl.at s.host.cqs 2 = some { size := 4 } ∧
      (∀ w ∈ s.host.waiting, w.cqid ≠ 2) ∧ full.host.waiting = [e] ∧ (1 + 1) % 2 ≠ 1 ∧ s.down = false ∧ off.host.csts = 0 ∧
      off.stopped = false ∧ (0x46_0001#32).getLsbD 0 = true ∧ bitsOf (0x46_0001#32).toNat 19 16 = 6 ∧ bitsOf (0x46_0001#32).toNat 23 20 = 4 ∧
      bitsOf (0x1#32).toNat 19 16 ≠ 6 ∧ s.host.cc.getLsbD 0 = true ∧ s.host.csts.getLsbD 0 = true ∧ s.sec.noSlot = false ∧
      down.down = true ∧ (hosted (fun h => { h with started := false }) {}).host.started = false ∧ s.liveSlots = [] := by decide +kernel
/-- A controlled stop that a host's reset ends, with safety sequences still running or not. -/
theorem witness_stop_ends :
    let s := hosted id {}
    let stop := { s with regs := (s.setCf 0 0x0200 20 20 1).regs }
    let busy := { stop with safe := [(1, { run := true })] }
    let clear := hosted (fun h => { h with linkUp := false, perst := true }) {}
    stop.down = false ∧ stop.stopped = true ∧ stop.rst.pinLow = false ∧ stop.host.linkUp = true ∧ stop.host.cc.getLsbD 0 = true ∧
      (∀ k < stop.nslices, (stop.seq k).run = false) ∧ 1 < busy.nslices ∧ (busy.seq 1).run = true ∧ busy.stopped = true ∧
      clear.down = false ∧ clear.stopped = false ∧ (stop.setCf 0 0x0200 31 24 7).cf 0 0x0200 31 24 = 7 ∧
      (∀ e ∈ s.liveSlots, e.2.job = true) ∧ (∀ k < s.nslices, Tbl.at s.adm.stagedW k = 0) := by decide +kernel
/-- R428: entries of a size other than 64 bytes leave the controller in fatal status. -/
theorem test_controller_enable :
    let s := hosted (fun h => { h with cc := 0, csts := 0, sqs := [], cqs := [] }) {}
    (after (.controllerEnable 0x46_0001 3 3 false) s).host.csts = 1 ∧ (after (.controllerEnable 0x45_0001 3 3 false) s).host.csts = 2 ∧
      Tbl.at (after (.controllerEnable 0x46_0001 3 3 false) s).host.sqs 0 = some { size := 4, cqid := 0 } := by decide +kernel
theorem witness_io_turn :
    let s := hosted id { mstate := 2 }
    HostTurn s 1 { size := 4, cqid := 2, tail := 1 } { size := 4 } ∧ freeSlot s = some 0 ∧ s.ordered (s.classOf 1) = false := by
  decide +kernel
theorem witness_io_checks :
    let s := hosted id { mstate := 2 }
    let ro := hosted id { mstate := 3 }
    let empty := hosted id {}
    let zoned := fun (z : Zone) => { s with host := { s.host with feat := [(0x19 * 0x10000, 1)], zones := [(0, z)] } }
    let done := fun (s : State) (q : List Byte) (v : Nat × Nat × Nat) => match checkIo s 1 q with
      | .done a b c => (a, b, c) == v
      | .accept .. => false
    let at_ := fun (d : Nat) (s : State) (q : List Byte) => match checkIo s 1 q with
      | .done .. => false
      | .accept a _ _ => decide (decide6 s a d = Verdict.accept)
    let ok := at_ 40000000000
    done empty (sqe 2 1 0 0 0 0) (7, 0x83, 8) = true ∧ done s (sqe 2 5 0 0 0 0) (0, 0x0B, 0) = true ∧
      done s (sqe 2 1 0 0 512 0) (0, 2, 0) = true ∧ done s (sqe 2 1 (lbnCount - 1) 0 1 0) (0, 0x80, 0) = true ∧
      done ro (sqe 1 1 0 0 0 0) (0, 0x20, 0) = true ∧ done (zoned { state := .full, wp := 30720 }) (sqe 1 1 0 0 0 0) (1, 0xB9, 0) = true ∧
      done (zoned { state := .explicitOpen, wp := 30 }) (sqe 1 1 0 0 0 0) (1, 0xBC, 0) = true ∧
      done s (sqe 0x80 1 0 0 1 0) (0, 2, 0) = true ∧ done s (sqe 0x7D 1 0 0 0 0) (0, 1, 0) = true ∧
      done (zoned {}) (sqe 0x79 1 0 0 0 2) (0, 2, 0) = true ∧ done (zoned { state := .full }) (sqe 0x79 1 0 0 0 4) (1, 0xBF, 0) = true ∧
      done (zoned { state := .full }) (sqe 0x79 1 0 0 0 3) (1, 0xBF, 0) = true ∧ done (zoned {}) (sqe 0x79 1 0 0 0 1) (1, 0xBF, 0) = true ∧
      ok s (sqe 0 1 0 0 0 0) = true ∧ ok s (sqe 2 1 0 0 0 0) = true ∧ at_ 400000000 s (sqe 2 1 0 0 0 0) = false ∧ ok s (sqe 0x0C 1 0 0 0 0) = true ∧ ok s (sqe 0x80 1 0 0 0 0) = true ∧ ok s (sqe 1 1 0 0 0 0) = true ∧
      ok (zoned {}) (sqe 0x7D 1 0 0 0 0) = true ∧ ok (zoned {}) (sqe 0x79 1 0 0 0 3) = true ∧
      zoneReadOnly ro 0 { state := .closed } = true ∧ zoneReadOnly ro 0 {} = false ∧ (ro.map 0).mstate = 3 ∧
      pointerOk (sqe 2 1 0 0 0 0) = true ∧ pointerOk ((sqe 2 1 0 0 0 0).set 1 0x40 |>.set 39 0x10) = false ∧
      leAt (sqe 2 1 0 0 0 0) 1 1 % 4 = 0 := by decide +kernel
/-- R448, R466: a Read in power mode 3 is refused, all ones for no deadline. -/
theorem test_read_refused :
    let s := (hosted id { mstate := 2 }).setCf 0 0xC000 2 0 3
    let t := after (.read 1 (sqe 2 1 0 0 0 0)) s
    t.host.posted.map (fun e => (e.sct, e.sc, e.dw0)) = [(7, 0x80, 0xFFFF_FFFF)] ∧ t.adm.slots = [] := by decide +kernel
theorem witness_admin :
    let s := hosted id {}
    let bare := hosted (fun h => { h with sqs := h.sqs.take 1, cqs := h.cqs.take 1 }) {}
    let ev := hosted (fun h => { h with events := [⟨1, 2, 3⟩] }) {}
    let aer := hosted (fun h => { h with aers := List.replicate 8 1 }) {}
    let live := { s with adm := { slots := [(0, { phase := .queued, sqid := 1, sqe := sqe 2 1 0 0 0 0 })] } }
    let taken := { s with adm := { slots := [(0, { phase := .taken, sqid := 1, sqe := sqe 2 1 0 0 0 0 })] } }
    let finds := fun (s : State) => (s.liveSlots.find? (fun e => !e.2.job && e.2.sqid == 1 && e.2.cid == 5)).map (fun e => e.2.phase)
    AdminTurn s { size := 4, cqid := 0, tail := 1 } { size := 4 } ∧ Tbl.at s.host.cqs 2 ≠ none ∧ Tbl.at s.host.cqs 1 = none ∧
      Tbl.at s.host.sqs 2 = none ∧ Tbl.at s.host.sqs 1 ≠ none ∧ s.liveSlots = [] ∧ ioQueues s = true ∧ ioQueues bare = false ∧
      AdminTurn bare { size := 4, cqid := 0, tail := 1 } { size := 4 } ∧ ev.host.events = [⟨1, 2, 3⟩] ∧ ev.host.masked = [] ∧
      s.host.events = [] ∧ 8 ≤ aer.host.aers.length ∧ finds live = some .queued ∧ finds taken = some .taken ∧
      (hosted (fun h => { h with cqs := (3, some { size := 4 }) :: h.cqs }) {}).host.sqs.all (fun e => match e.2 with
        | some r => r.cqid != 3
        | none => true) = true ∧ s.adm.nextOrder = 0 ∧ live.liveSlots.length = 1 ∧ knownFeature 3 = false ∧
      classesOk ((List.range 8).flatMap (fun _ => leBytes 4 100 ++ leBytes 12 0) ++ leBytes 128 0) = true := by decide +kernel
/-- R431, R432: a completion queue, a submission queue on it, and a queue on none. -/
theorem test_create_queues :
    let s := after (.createIoCq (sqe 5 0 (0x3_0003) 3 0 0)) (hosted id {})
    let t := after (.createIoSq (sqe 1 0 (0x3_0003) 0x3_0001 0 0)) { s with host := { s.host with sqs := portOpen.sqs } }
    Tbl.at s.host.cqs 3 = some { size := 4, ien := true } ∧ s.host.posted.length = 1 ∧
      Tbl.at t.host.sqs 3 = some { size := 4, cqid := 3 } ∧
      (after (.createIoSq (sqe 1 0 (0x3_0003) 0x9_0001 0 0)) (hosted id {})).host.posted.map (fun e => (e.sct, e.sc)) = [(1, 0)] := by
  decide +kernel
/-- R444, R445: features 0xC1 and 0xC2 take their values, and a value of 3 for the policy is invalid. -/
theorem test_set_features :
    let s := hosted id {}
    let t := after (.setVerifyPolicy (sqe 9 0 0xC2 0x205 0 0)) s
    t.feat 0xC2 5 = 2 ∧ t.feat 0xC2 4 = s.feat 0xC2 4 ∧ (after (.setPowerMode (sqe 9 0 0xC1 2 0 0)) s).modeSet = 2 ∧
      (after (.setVerifyPolicy (sqe 9 0 0xC2 0x305 0 0)) s).host.posted.map (fun e => (e.sct, e.sc)) = [(0, 2)] := by decide +kernel
theorem witness_firmware :
    let part := fun (off : Nat) => ({ off := off, data := List.replicate 4096 0 } : Download)
    let s := hosted (fun h => { h with download := [part 4096] }) {}
    let v : Activation := { t := 0, cid := 5, slot := 0 }
    let act := hosted (fun h => { h with activation := some v }) {}
    let begun := hosted (fun h => { h with activation := some { v with started := true } }) {}
    let later := hosted (fun h => { h with activation := some { v with t := 1 } }) {}
    let waits := fun (n : Nat) => { hosted (fun h => { h with activation := some { v with t := 1, waits := true, upto := n } }) {} with
      adm := { slots := [(0, { phase := .taken, sqid := 1, order := 0 })] } }
    (∃ e ∈ (waits 1).liveSlots, e.2.job = false ∧ e.2.order < 1) ∧ ¬ (∃ e ∈ (waits 0).liveSlots, e.2.job = false ∧ e.2.order < 0) ∧
      (waits 0).time < 1 ∧ (part 4096).off < 4096 + 4096 ∧ 4096 < (part 4096).off + 4096 ∧ ¬ ((part 4096).off < 0 + 4096) ∧ s.host.activation = none ∧
      imageValid s (downloaded s) = false ∧ imageValid s (slotImage s 0) = false ∧ act.host.activation = some v ∧ v.started = false ∧
      v.t ≤ act.time ∧ act.stopped = false ∧ act.down = false ∧ later.time < 1 ∧ v.waits = false ∧
      begun.host.activation = some { v with started := true } ∧ Tbl.at begun.host.cqs 0 = some { size := 4 } := by decide +kernel
/-- R520: a Commit of an image that downloads make whole takes it into the slot; only the signature's check is left open. -/
theorem witness_valid_commit (d : List Byte) :
    let s := hosted (fun h => { h with download := [⟨0, d⟩] }) {}
    imageValid s d = true → imageValid s (downloaded s) = true ∧ s.host.activation = none := fun h => ⟨h, rfl⟩
theorem witness_management :
    let s := hosted id {}
    let c := fun (n : Nat) => hosted (fun h => { h with spdm := [(1, { phase := n })] }) {}
    let ok := fun (r : Except Nat (List Byte)) => match r with
      | .ok _ => true
      | .error _ => false
    let got := fun (r : GetAns) => match r with
      | .ok dw0 _ => dw0 == 100
      | .fail _ _ => false
    s.down = false ∧ [0, 1, 2, 3].map (fun n => ((c n).conn 1).phase) = [0, 1, 2, 3] ∧ (2#16).toNat ≤ 2 ∧ 64 ≤ (64#16).toNat ∧
      (256#16).toNat ≤ 256 ∧ ok (identifyData s (cdw (sqe 6 0 1 0 0 0) 10 % 256) 0 0) = true ∧
      ok (identifyData s 9 0 0) = false ∧ got (getFeature s 4 0 0) = false ∧ (7#8).toNat ≤ 7 := by decide +kernel
/-- R461: capabilities before the version are out of turn, and after it are answered. -/
theorem test_spdm_turns :
    let s := hosted id {}
    let t := after (.getCapabilities 1 [2]) (after (.getVersion 1 [1]) s)
    (after (.getCapabilities 1 [2]) s).host.replies.map (fun r => r.code) = [0x7F] ∧ t.host.replies.map (fun r => r.code) = [4, 0x61] ∧
      (t.conn 1).phase = 2 ∧ (t.conn 0).phase = 0 := by decide +kernel
/-! Formulas of the reference programs. -/

/-- R644: the boundary limits of the ZOA-820 and ZOA-880. -/
theorem test_boundary_limits : [0, 1, 2, 3].map (ambientLimit 1) = [38, 38, 38, 77] ∧
    [0, 1, 2, 3].map (ambientLimit 4) = [38, 55, 67, 79] := by decide +kernel
/-- R279: phase currents at position 43,548, from T[28] and T[228]. -/
theorem test_phase_shares : phaseShares refStep 43548 =
    (-64570, -11204) := by decide +kernel
/-- R232: te_wi of at most 36 for a slope of 1.450 codes per nm. -/
theorem test_te_wi_limit : teWiLimit (1450 / 1000) = 36 := by decide +kernel
/-- R269: the ramp from rest to 7,200 rpm takes 2.9 s. -/
theorem test_ramp_time : rampTakes 7200 3000 6000 (29 / 10) = true := by decide +kernel

/-! The machine as a whole. -/

theorem witness_step :
    let s := { State.reset with pending := [.meshTamper, .vinGlitch] }
    s.pending = .meshTamper :: [.vinGlitch] ∧ State.reset.pending = [] ∧ Memory.wf State.reset.mem := by
  refine ⟨rfl, rfl, List.Pairwise.nil, fun _ h => nomatch h⟩
/-- R34: a step with no command waiting lets one LOOP tick pass. -/
theorem test_idle_tick : (match step State.reset with
    | .next t => (t.now, t.cores == State.reset.cores)
    | _ => (0, false)) = (1, true) := by decide +kernel

/-! The disc's symbols and the package. -/

/-- The example of chapter 4: frame 0x296E_686A lies on track 8, 0.60 µm beyond a groove radius of 49.469 mm, and starts 196/275
of a revolution past the reference; a disc angle of 256.58°. -/
theorem test_frame_place : trackOffset (trackOf 0x296E686A) = 600 ∧ frameAngle 0x296E686A = 196 / 275 ∧
    (frameRadius 0x296E686A).floor = 49469453 := by decide +kernel
/-- R154: the sync is six inverted wobbles and two normal ones; address bit 47 of 0 is normal, normal, inverted, inverted. -/
theorem test_wobble : (List.range 12).map (wobbleInverted 0) =
    [true, true, true, true, true, true, false, false, false, false, true, true] := by decide +kernel
/-- R156: 32 of the 63 symbols of SM1 are L3, and SM2 is its complement. -/
theorem test_sync_marks : ((List.range 64).filter (fun n => sm1Level n = 3)).length = 32 ∧
    (List.range 8).map sm1Level = [3, 0, 0, 0, 0, 0, 3, 0] ∧ sm2Level 63 = 3 := by decide +kernel
/-- R155, R156: symbols 32 and 96 of a frame are the first of SM1 and the first data symbol. -/
theorem test_frame_symbols : (List.range 4).map (frameLevel (fun _ => true)) = [0, 0, 3, 3] ∧
    frameLevel (fun _ => true) 32 = 3 ∧ frameLevel (fun _ => true) 96 = 2 ∧
    frameLevel (fun n => n == 20480) 10400 = 1 := by decide +kernel
/-- R647, R650: 3,249 balls, of which 1,443 carry signals, 1,228 are VSS, 238 VCORE and 46 reserved. -/
theorem test_balls : allBalls.length = 3249 ∧ (regions.map regionSize).sum = 1443 ∧ allBalls.count .vss = 1228 ∧
    allBalls.count (.power "VCORE") = 238 ∧ allBalls.count .reserved = 46 ∧ ballAt 19 16 = .power "VCORE" := by decide +kernel
/-- R647 to R649: the orders fill their regions. -/
theorem test_signal_orders : controlSignals.length = 16 ∧ ringSignals.length = 8 ∧ pcieSignals.length = 35 ∧
    gddrSignals.length = 150 ∧ (fdieRuns.map Prod.snd).sum = 196 ∧ rowName 56 = "BY" := by decide +kernel
/-- R552, R641: four bypasses are within 20 dB, five are not. -/
theorem test_bypasses : ringLossGood 4 = true ∧ ringLossGood 5 = false := by decide

end Sys2Proof.Tests
end

section
/-! SUPPORT. Tables, folds and bit fields. -/

namespace Sys2Proof.Machine.StopLaws

/-- A read of a table from which keys have been taken out. -/
theorem get_filter_key {α : Type} (dflt : Nat → α) (p : Nat → Bool) (t : Tbl α) (j : Nat) :
    Tbl.get dflt (t.filter (fun e => p e.1)) j = if p j then Tbl.get dflt t j else dflt j := by
  induction t with
  | nil => simp [Tbl.get]
  | cons e t ih =>
    by_cases hp : p e.1 = true
    · rw [List.filter_cons, if_pos hp]
      by_cases hj : e.1 = j
      · subst hj; simp [Tbl.get, hp]
      · simp [Tbl.get, hj, ih]
    · rw [List.filter_cons, if_neg hp, ih]
      by_cases hj : e.1 = j
      · subst hj; simp [hp]
      · simp [Tbl.get, hj]

/-- What every operation of a fold leaves alone, the fold leaves alone. -/
theorem foldl_view {β γ : Type} (v : State → γ) (f : State → β → State) (l : List β)
    (hf : ∀ b ∈ l, ∀ s, v (f s b) = v s) (s : State) : v (l.foldl f s) = v s := by
  induction l generalizing s with
  | nil => rfl
  | cons b l ih =>
    rw [List.foldl_cons, ih (fun b hb => hf b (List.mem_cons_of_mem _ hb)), hf b List.mem_cons_self]

theorem upTo_view {γ : Type} (v : State → γ) (n : Nat) (f : Nat → State → State)
    (hf : ∀ i, i < n → ∀ s, v (f i s) = v s) (s : State) : v (upTo n f s) = v s :=
  foldl_view v _ _ (fun i hi => hf i (List.mem_range.1 hi)) s

theorem upTo_succ (n : Nat) (f : Nat → State → State) (s : State) : upTo (n + 1) f s = f n (upTo n f s) := by
  simp [upTo, List.range_succ]

theorem mem_insertBy {α : Type} (before : α → α → Bool) (x y : α) (l : List α) (h : y ∈ insertBy before x l) :
    y = x ∨ y ∈ l := by
  induction l with
  | nil => simpa [insertBy] using h
  | cons z l ih =>
    unfold insertBy at h
    split at h
    · simpa using h
    · rcases List.mem_cons.1 h with h | h
      · exact .inr (h ▸ List.mem_cons_self)
      · exact (ih h).imp_right (List.mem_cons_of_mem _)

theorem mem_of_mem_sortBy {α : Type} (before : α → α → Bool) (l : List α) (x : α) (h : x ∈ sortBy before l) : x ∈ l := by
  have inserted : ∀ (l acc : List α), x ∈ l.foldl (fun acc y => insertBy before y acc) acc → x ∈ acc ∨ x ∈ l := by
    intro l
    induction l with
    | nil => exact fun _ h => .inl h
    | cons y l ih =>
      intro acc h
      rcases ih _ h with h | h
      · rcases mem_insertBy before y x acc h with h | h
        · exact .inr (h ▸ List.mem_cons_self)
        · exact .inl h
      · exact .inr (List.mem_cons_of_mem _ h)
  simpa using inserted l [] h

/-- A number with bits hi to lo replaced, as its part above them, their new value and its part beneath. -/
theorem putBits_eq (v : Nat) {hi lo : Nat} (h : lo ≤ hi + 1) (x : Nat) :
    putBits v hi lo x = v / 2 ^ (hi + 1) * 2 ^ (hi + 1) + x % 2 ^ (hi + 1 - lo) * 2 ^ lo + v % 2 ^ lo := by
  have hpow : 2 ^ lo * 2 ^ (hi + 1 - lo) = 2 ^ (hi + 1) := by rw [← pow_add]; congr 1; omega
  have hlow := Nat.div_add_mod' v (2 ^ lo)
  have hhigh := Nat.div_add_mod' (v / 2 ^ lo) (2 ^ (hi + 1 - lo))
  rw [Nat.div_div_eq_div_mul, hpow] at hhigh
  have hsplit : v / 2 ^ (hi + 1) * 2 ^ (hi + 1) + bitsOf v hi lo * 2 ^ lo + v % 2 ^ lo = v := by
    calc v / 2 ^ (hi + 1) * 2 ^ (hi + 1) + bitsOf v hi lo * 2 ^ lo + v % 2 ^ lo
        = (v / 2 ^ (hi + 1) * 2 ^ (hi + 1 - lo) + bitsOf v hi lo) * 2 ^ lo + v % 2 ^ lo := by
          rw [← hpow]; ring
      _ = v := by rw [bitsOf, hhigh, hlow]
  unfold putBits
  omega

theorem bitsOf_eq_mod_div (v : Nat) {hi lo : Nat} (h : lo ≤ hi + 1) : bitsOf v hi lo = v % 2 ^ (hi + 1) / 2 ^ lo := by
  rw [bitsOf, ← Nat.mod_mul_right_div_self, ← pow_add, Nat.add_sub_cancel' h]

/-- A replaced field, with what stands beneath it, is less than the place of the bit above it. -/
theorem putBits_rest_lt (v : Nat) {hi lo : Nat} (h : lo ≤ hi + 1) (x : Nat) :
    x % 2 ^ (hi + 1 - lo) * 2 ^ lo + v % 2 ^ lo < 2 ^ (hi + 1) := by
  have hx : x % 2 ^ (hi + 1 - lo) + 1 ≤ 2 ^ (hi + 1 - lo) := Nat.mod_lt _ (by positivity)
  have hv : v % 2 ^ lo < 2 ^ lo := Nat.mod_lt _ (by positivity)
  calc x % 2 ^ (hi + 1 - lo) * 2 ^ lo + v % 2 ^ lo < (x % 2 ^ (hi + 1 - lo) + 1) * 2 ^ lo := by rw [add_mul]; omega
    _ ≤ 2 ^ (hi + 1 - lo) * 2 ^ lo := Nat.mul_le_mul_right _ hx
    _ = 2 ^ (hi + 1) := by rw [← pow_add]; congr 1; omega

theorem putBits_div (v : Nat) {hi lo : Nat} (h : lo ≤ hi + 1) (x : Nat) :
    putBits v hi lo x / 2 ^ (hi + 1) = v / 2 ^ (hi + 1) := by
  rw [putBits_eq v h, add_assoc, mul_comm, Nat.mul_add_div (by positivity), Nat.div_eq_of_lt (putBits_rest_lt v h x), add_zero]

theorem putBits_mod (v : Nat) {hi lo : Nat} (h : lo ≤ hi + 1) (x : Nat) : putBits v hi lo x % 2 ^ lo = v % 2 ^ lo := by
  have hd : 2 ^ lo ∣ v / 2 ^ (hi + 1) * 2 ^ (hi + 1) + x % 2 ^ (hi + 1 - lo) * 2 ^ lo :=
    dvd_add (dvd_mul_of_dvd_right (pow_dvd_pow 2 h) _) (dvd_mul_left _ _)
  rw [putBits_eq v h, Nat.add_mod, Nat.mod_eq_zero_of_dvd hd, zero_add, Nat.mod_mod, Nat.mod_mod]

theorem putBits_lt {v hi lo : Nat} (h : lo ≤ hi + 1) (hhi : hi < 64) (hv : v < 2 ^ 64) (x : Nat) :
    putBits v hi lo x < 2 ^ 64 := by
  have hpow : 2 ^ (63 - hi) * 2 ^ (hi + 1) = 2 ^ 64 := by rw [← pow_add]; congr 1; omega
  rw [← hpow] at hv ⊢
  rw [← Nat.div_lt_iff_lt_mul (by positivity)] at hv ⊢
  rwa [putBits_div v h]

theorem toNat_putFld (w : Word) {hi lo : Nat} (h : lo ≤ hi + 1) (hhi : hi < 64) (x : Nat) :
    (putFld w hi lo x).toNat = putBits w.toNat hi lo x := by
  rw [putFld, BitVec.toNat_ofNat, Nat.mod_eq_of_lt (putBits_lt h hhi w.isLt x)]

/-- A field written holds the value, cut to its width. -/
theorem fld_putFld_same (w : Word) {hi lo : Nat} (h : lo ≤ hi + 1) (hhi : hi < 64) (x : Nat) :
    fld (putFld w hi lo x) hi lo = x % 2 ^ (hi + 1 - lo) := by
  rw [fld, toNat_putFld w h hhi, bitsOf_eq_mod_div _ h, putBits_eq _ h, add_assoc, Nat.add_mod, Nat.mul_mod_left, zero_add,
    Nat.mod_mod, Nat.mod_eq_of_lt (putBits_rest_lt _ h x), mul_comm, Nat.mul_add_div (by positivity),
    Nat.div_eq_of_lt (Nat.mod_lt _ (by positivity)), add_zero]

/-- A field beneath the one written stands. -/
theorem fld_putFld_below (w : Word) {hi lo i j : Nat} (h : lo ≤ hi + 1) (hhi : hi < 64) (x : Nat) (hj : j ≤ i + 1) (hi' : i < lo) :
    fld (putFld w hi lo x) i j = fld w i j := by
  have hdvd : 2 ^ (i + 1) ∣ 2 ^ lo := pow_dvd_pow 2 hi'
  rw [fld, fld, toNat_putFld w h hhi, bitsOf_eq_mod_div _ hj, bitsOf_eq_mod_div _ hj, ← Nat.mod_mod_of_dvd _ hdvd,
    putBits_mod _ h, Nat.mod_mod_of_dvd _ hdvd]

/-- A field above the one written stands. -/
theorem fld_putFld_above (w : Word) {hi lo i j : Nat} (h : lo ≤ hi + 1) (hhi : hi < 64) (x : Nat) (hj : hi < j) :
    fld (putFld w hi lo x) i j = fld w i j := by
  have hpow : 2 ^ j = 2 ^ (hi + 1) * 2 ^ (j - (hi + 1)) := by rw [← pow_add]; congr 1; omega
  rw [fld, fld, toNat_putFld w h hhi, bitsOf, bitsOf, hpow, ← Nat.div_div_eq_div_mul, putBits_div _ h, Nat.div_div_eq_div_mul]

end Sys2Proof.Machine.StopLaws
end

section
/-! SUPPORT. The ends of commands, the log and the arbiter: what they keep. -/

namespace Sys2Proof.Machine.StopLaws

/-- A state but for what the host port posts: of the port, whether the link is up and whether it fetches. -/
def offHost (s : State) : State := { s with host := { linkUp := s.host.linkUp, fetching := s.host.fetching } }

theorem postCqe_offHost (c : Cqe) (s : State) : offHost (postCqe c s) = offHost s := by
  unfold postCqe
  split
  · rfl
  · split <;> rfl

theorem pumpEvents_offHost (s : State) : offHost (pumpEvents s) = offHost s := by
  refine foldl_view offHost _ _ (fun e _ s => ?_) s
  dsimp only
  split
  · rfl
  · split
    · rfl
    · exact postCqe_offHost _ _

theorem raiseAsync_offHost (type info log : Nat) (s : State) : offHost (raiseAsync type info log s) = offHost s := by
  unfold raiseAsync
  split
  · rfl
  · exact pumpEvents_offHost _

/-- A record joins the log, and nothing but what the host port posts changes beside. -/
theorem logFault_offHost (code die unit slice core detail : Nat) (s : State) :
    ∃ l : FaultLog, l.head = s.flt.head + 1 ∧
      offHost (logFault code die unit slice core detail s) = offHost { s with flt := l } :=
  ⟨_, rfl, raiseAsync_offHost _ _ _ _⟩

/-- Where a slot's command stands, who has started it, and whether it is being posted: what the arbiter does not set. -/
def part (x : Slot) : Phase × Option Nat × Bool := (x.phase, x.takenBy, x.posting)
/-- A state but for the deck cores, the counter units, the admission unit and what the host port posts; and each slot's part. -/
def outline (s : State) : State × (Nat → Phase × Option Nat × Bool) :=
  ({ offHost s with cores := [], snap := {}, adm := {} }, fun i => part (s.slot i))

theorem outline_of_offHost {s t : State} (h : offHost t = offHost s) : outline t = outline s :=
  congrArg (fun u : State => ({ u with cores := [], snap := {}, adm := {} }, fun i => part (u.slot i))) h

/-- The admission unit shows in the outline by its slots alone. -/
theorem outline_adm (s : State) (a : Adm) (h : a.slots = s.adm.slots) : outline { s with adm := a } = outline s :=
  Prod.ext rfl (funext fun i => congrArg (fun t : Tbl Slot => part (Tbl.at t i)) h)

theorem slot_modSlot (s : State) (i j : Nat) (f : Slot → Slot) :
    (s.modSlot i f).slot j = if j = i then f (s.slot i) else s.slot j :=
  Tbl.at_upd i j (f (s.slot i)) s.adm.slots

/-- An update of a slot shows in the outline as what it does to the slot's part. -/
theorem outline_modSlot (s : State) (i : Nat) (f : Slot → Slot) (g : Phase × Option Nat × Bool → Phase × Option Nat × Bool)
    (hf : ∀ x, part (f x) = g (part x)) :
    outline (s.modSlot i f) = ((outline s).1, Function.update (outline s).2 i (g ((outline s).2 i))) := by
  refine Prod.ext rfl (funext fun j => ?_)
  show part ((s.modSlot i f).slot j) = Function.update (outline s).2 i (g ((outline s).2 i)) j
  rw [slot_modSlot]
  by_cases h : j = i
  · subst h; rw [if_pos rfl, hf, Function.update_self]; rfl
  · rw [if_neg h, Function.update_of_ne h]; rfl

theorem outline_modSlot_same (s : State) (i : Nat) (f : Slot → Slot) (hf : ∀ x, part (f x) = part x) :
    outline (s.modSlot i f) = outline s := by
  rw [outline_modSlot s i f id hf, id, Function.update_eq_self]

theorem setHeld_outline (core tag uj : Nat) (s : State) : outline (setHeld core tag uj s) = outline s := by
  unfold setHeld
  split
  · exact outline_adm s _ rfl
  · split
    · exact outline_modSlot_same s _ _ (fun _ => rfl)
    · rfl

theorem grantTo_outline (core tag count : Nat) (s : State) : outline (grantTo core tag count s) = outline s :=
  (setHeld_outline _ _ _ _).trans (outline_adm s _ rfl)

theorem notice_outline (c code value ident : Nat) (s : State) : outline (notice c code value ident s) = outline s := rfl

theorem reconsider_outline (s : State) : outline (reconsider s) = outline s := by
  refine foldl_view outline _ _ (fun t _ s => ?_) s
  dsimp only
  split
  · exact (notice_outline _ _ _ _ _).trans ((grantTo_outline _ _ _ _).trans (outline_adm s _ rfl))
  · rfl

theorem giveBack_outline (uj : Nat) (s : State) : outline (giveBack uj s) = outline s :=
  (reconsider_outline _).trans (outline_adm s _ rfl)

theorem takeBack_outline (i : Nat) (s : State) : outline (takeBack i s) = outline s := by
  unfold takeBack
  extract_lets tag mine _ t u uj
  have hu : outline u = outline s :=
    (foldl_view outline (fun (s : State) (t : Ticket) => notice t.core 2 0 t.id s) mine (fun _ _ _ => rfl) t).trans
      (outline_adm s _ rfl)
  rw [giveBack_outline, ← hu]
  exact outline_modSlot_same u i _ (fun _ => rfl)

theorem recordOverrun_outline (core : Nat) (r : Overrun) (s : State) : outline (recordOverrun core r s) = outline s :=
  (notice_outline _ _ _ _ _).trans (outline_adm s _ rfl)

theorem recordSpent_outline (i : Nat) (s : State) : outline (recordSpent i s) = outline s := by
  unfold recordSpent
  dsimp only
  split
  · rw [recordOverrun_outline]
    split
    · rfl
    · exact outline_adm s _ rfl
  · rfl

theorem postSlot_outline (x : Slot) (sct sc more dw0 dw1 : Nat) (s : State) :
    outline (postSlot x sct sc more dw0 dw1 s) = outline s := by
  unfold postSlot
  dsimp only
  split
  · rfl
  · exact outline_of_offHost (postCqe_offHost _ _)

theorem releaseOrdered_outline (s : State) : outline (releaseOrdered s) = outline s := by
  refine foldl_view outline _ _ (fun e _ s => ?_) s
  dsimp only
  split
  · rfl
  · exact outline_of_offHost (postCqe_offHost _ _)

/-- The end of a command ends its slot's part and no other's (R122). -/
theorem endCommand_outline (i : Nat) (how : Ended) (sct sc more dw0 dw1 : Nat) (s : State) :
    outline (endCommand i how sct sc more dw0 dw1 s) =
      ((outline s).1, Function.update (outline s).2 i (.ended, ((outline s).2 i).2)) := by
  unfold endCommand
  extract_lets x tag ended posted _ told
  have hended : outline ended = ((outline s).1, Function.update (outline s).2 i (.ended, ((outline s).2 i).2)) := by
    rw [outline_modSlot _ i _ (fun p => (.ended, p.2)) (fun _ => rfl), recordSpent_outline]
  have hposted : outline posted = outline ended := by
    simp only [posted]
    split
    · rfl
    · exact postSlot_outline _ _ _ _ _ _ _
  have htold : outline told = outline posted := by
    simp only [told]
    split
    · rfl
    · exact outline_adm posted _ rfl
  rw [releaseOrdered_outline, takeBack_outline, htold, hposted, hended]

end Sys2Proof.Machine.StopLaws
end

section
/-! SUPPORT. The trigger of a safety sequence (R509), and the end of every live command (R606): what they do and what they keep. -/

namespace Sys2Proof.Machine.StopLaws

/-- The register of rst.stat (R604). -/
abbrev rstStat : Nat := cAddr 0 0x0200

/-- C-die pages lie beneath F-die pages. -/
theorem ne_fAddr {a : Nat} (h : a < 0x1200_0000) (k off : Nat) : a ≠ fAddr k off := by
  unfold fAddr; omega

theorem reg_of_regs {s t : State} (h : t.regs = s.regs) (a : Nat) : t.reg a = s.reg a := by
  unfold State.reg; rw [h]

theorem raiseWi_reg (k h bit : Nat) (s : State) {a : Nat} (ha : a < 0x1200_0000) : (raiseWi k h bit s).reg a = s.reg a := by
  unfold raiseWi inhibitWrites
  dsimp only
  rw [reg_of_regs (State.setQueue_regs _ _ _), State.reg_setFf_ne _ (ne_fAddr ha _ _)]
  split <;> rfl

/-- A state but for what a safety sequence acts on at its trigger: the registers, the channels' queues, the outputs, the sequences
and the counter units. -/
def beneathSafety (s : State) : State :=
  { s with regs := [], chan := [], outs := [], lit := [], safe := [], snap := {} }

theorem setReg_beneath (s : State) (a : Nat) (w : Word) : beneathSafety (s.setReg a w) = beneathSafety s := rfl
theorem setFf_beneath (s : State) (k off hi lo x : Nat) : beneathSafety (s.setFf k off hi lo x) = beneathSafety s :=
  setReg_beneath _ _ _
theorem setQueue_beneath (s : State) (k : Nat) (q : List Chop) : beneathSafety (s.setQueue k q) = beneathSafety s := rfl
theorem setSeq_beneath (s : State) (k : Nat) (x : SafetySeq) : beneathSafety (s.setSeq k x) = beneathSafety s := rfl
theorem count_beneath (s : State) (die u n : Nat) : beneathSafety (s.count die u n) = beneathSafety s := rfl
theorem lasersOff_beneath (s : State) (o : Tbl (Option Word32)) (l : Tbl (Option Nat)) :
    beneathSafety { s with outs := o, lit := l } = beneathSafety s := rfl

theorem lasersOff_regs (s : State) (o : Tbl (Option Word32)) (l : Tbl (Option Nat)) :
    ({ s with outs := o, lit := l } : State).regs = s.regs := rfl
theorem lasersOff_safe (s : State) (o : Tbl (Option Word32)) (l : Tbl (Option Nat)) :
    ({ s with outs := o, lit := l } : State).safe = s.safe := rfl

theorem raiseWi_beneath (k h bit : Nat) (s : State) : beneathSafety (raiseWi k h bit s) = beneathSafety s := by
  unfold raiseWi inhibitWrites
  dsimp only
  rw [setQueue_beneath, setFf_beneath]
  split
  · rfl
  · exact count_beneath _ _ _ _

theorem raiseWi_safe (k h bit : Nat) (s : State) : (raiseWi k h bit s).safe = s.safe := by
  unfold raiseWi inhibitWrites
  dsimp only
  rw [State.setQueue_safe, State.setFf_safe]
  split <;> rfl

theorem seq_setSeq (s : State) (k j : Nat) (x : SafetySeq) : (s.setSeq k x).seq j = if j = k then x else s.seq j :=
  Tbl.at_upd k j x s.safe

theorem seq_of_safe {s t : State} (h : t.safe = s.safe) (k : Nat) : t.seq k = s.seq k := by
  unfold State.seq; rw [h]

theorem triggerSafety_reg (k : Nat) (s : State) {a : Nat} (ha : a < 0x1200_0000) : (triggerSafety k s).reg a = s.reg a := by
  unfold triggerSafety
  split
  · rfl
  · extract_lets raised gates lasers dark
    rw [reg_of_regs (State.count_regs _ _ _ _), reg_of_regs (State.setSeq_regs _ _ _)]
    have hdark : dark.reg a = lasers.reg a := reg_of_regs (lasersOff_regs lasers _ _) a
    simp only [hdark, lasers, gates, raised, State.reg_setFf_ne _ (ne_fAddr ha _ _), raiseWi_reg _ _ _ _ ha]

theorem triggerSafety_beneath (k : Nat) (s : State) : beneathSafety (triggerSafety k s) = beneathSafety s := by
  unfold triggerSafety
  split
  · rfl
  · extract_lets raised gates lasers dark
    rw [count_beneath, setSeq_beneath]
    refine (lasersOff_beneath lasers _ _).trans ?_
    simp only [lasers, gates, raised, setFf_beneath, raiseWi_beneath]

/-- A trigger starts the slice's sequence, or leaves it running, and ends none (R509). -/
theorem triggerSafety_run (k j : Nat) (s : State) :
    ((triggerSafety k s).seq j).run = (decide (j = k) || (s.seq j).run) := by
  unfold triggerSafety
  split
  · next h =>
    by_cases hj : j = k
    · subst hj; simp [h]
    · simp [hj]
  · extract_lets raised gates lasers dark
    have hdark : dark.safe = lasers.safe := lasersOff_safe lasers _ _
    have hsafe : dark.safe = s.safe := by
      simp only [hdark, lasers, gates, raised, State.setFf_safe, raiseWi_safe]
    rw [seq_of_safe (State.count_safe _ _ _ _), seq_setSeq]
    by_cases hj : j = k
    · simp [hj]
    · simp [hj, seq_of_safe hsafe j]

theorem triggerAll_run (n j : Nat) (s : State) : ((upTo n triggerSafety s).seq j).run = (decide (j < n) || (s.seq j).run) := by
  induction n with
  | zero => simp [upTo]
  | succ n ih =>
    rw [upTo_succ, triggerSafety_run, ih, ← Bool.or_assoc, ← Bool.decide_or]
    congr 2
    exact propext ⟨fun h => by omega, fun h => by omega⟩

theorem triggerAll_reg (n : Nat) (s : State) {a : Nat} (ha : a < 0x1200_0000) : (upTo n triggerSafety s).reg a = s.reg a :=
  upTo_view (fun s => s.reg a) n _ (fun k _ s => triggerSafety_reg k s ha) s

theorem triggerAll_beneath (n : Nat) (s : State) : beneathSafety (upTo n triggerSafety s) = beneathSafety s :=
  upTo_view beneathSafety n _ (fun k _ s => triggerSafety_beneath k s) s

/-! The end of every command. -/

theorem endAll_fst (l : List (Nat × Slot)) (s : State) :
    (outline (l.foldl (fun s e => endCommand e.1 .aborted 0 6 0 0 0 s) s)).1 = (outline s).1 :=
  foldl_view (fun s => (outline s).1) _ l (fun e _ s => by rw [endCommand_outline e.1 .aborted 0 6 0 0 0 s]) s

theorem endCommand_phase (i j : Nat) (how : Ended) (sct sc more dw0 dw1 : Nat) (s : State) :
    ((endCommand i how sct sc more dw0 dw1 s).slot j).phase = if j = i then .ended else (s.slot j).phase := by
  have h := congrArg (fun o => (o.2 j).1) (endCommand_outline i how sct sc more dw0 dw1 s)
  refine h.trans ?_
  by_cases hj : j = i
  · subst hj; simp [Function.update_self]
  · simp only [Function.update_of_ne hj, if_neg hj]; rfl

theorem endAll_phase (l : List (Nat × Slot)) (j : Nat) (s : State) :
    ((l.foldl (fun s e => endCommand e.1 .aborted 0 6 0 0 0 s) s).slot j).phase =
      if j ∈ l.map Prod.fst then .ended else (s.slot j).phase := by
  induction l generalizing s with
  | nil => simp
  | cons e l ih =>
    rw [List.foldl_cons, ih, endCommand_phase, List.map_cons]
    by_cases hl : j ∈ l.map Prod.fst
    · rw [if_pos hl, if_pos (List.mem_cons_of_mem _ hl)]
    · simp only [List.mem_cons, hl, or_false, if_false]

/-- What a table reads as is the default or listed. -/
theorem get_default_or_mem {α : Type} (dflt : Nat → α) (t : Tbl α) (k : Nat) :
    Tbl.get dflt t k = dflt k ∨ (k, Tbl.get dflt t k) ∈ t := by
  induction t with
  | nil => exact .inl rfl
  | cons e t ih =>
    unfold Tbl.get
    split
    · next h => exact .inr (h ▸ List.mem_cons_self)
    · exact ih.imp_right (List.mem_cons_of_mem _)

theorem mem_liveSlots {s : State} {i : Nat} (h : (s.slot i).live = true) : (i, s.slot i) ∈ s.liveSlots := by
  rcases get_default_or_mem (fun _ => default) s.adm.slots i with hd | hm
  · rw [State.slot, Tbl.at, hd] at h; exact absurd h (by decide)
  · exact List.mem_filter.2 ⟨hm, h⟩

/-- With every live command ended, none is live. -/
theorem endAll_live (s : State) (i : Nat) :
    ((s.liveSlots.foldl (fun s e => endCommand e.1 .aborted 0 6 0 0 0 s) s).slot i).live = false := by
  have hphase := endAll_phase s.liveSlots i s
  unfold Slot.live
  rw [hphase]
  split
  · rfl
  · next h =>
    by_contra hlive
    exact h (List.mem_map.2 ⟨_, mem_liveSlots (Bool.not_eq_false _ ▸ hlive), rfl⟩)

end Sys2Proof.Machine.StopLaws
end

section
/-! SUPPORT. The controlled stop (R604 to R607). -/

namespace Sys2Proof.Machine.StopLaws

theorem setCf_beneath (s : State) (d off hi lo x : Nat) : beneathSafety (s.setCf d off hi lo x) = beneathSafety s :=
  setReg_beneath _ _ _

theorem cf_setCf_same (s : State) (d off x : Nat) {hi lo : Nat} (h : lo ≤ hi + 1) (hhi : hi < 64) :
    (s.setCf d off hi lo x).cf d off hi lo = x % 2 ^ (hi + 1 - lo) := by
  rw [State.cf, State.setCf, State.reg_setReg_self, fld_putFld_same _ h hhi]
theorem cf_setCf_below (s : State) (d off x : Nat) {hi lo i j : Nat} (h : lo ≤ hi + 1) (hhi : hi < 64) (hj : j ≤ i + 1)
    (hi' : i < lo) : (s.setCf d off hi lo x).cf d off i j = s.cf d off i j := by
  rw [State.cf, State.setCf, State.reg_setReg_self, fld_putFld_below _ h hhi _ hj hi', State.cf]
theorem cf_setCf_above (s : State) (d off x : Nat) {hi lo i j : Nat} (h : lo ≤ hi + 1) (hhi : hi < 64) (hj : hi < j) :
    (s.setCf d off hi lo x).cf d off i j = s.cf d off i j := by
  rw [State.cf, State.setCf, State.reg_setReg_self, fld_putFld_above _ h hhi _ hj, State.cf]
theorem ff_setFf_same (s : State) (k off x : Nat) {hi lo : Nat} (h : lo ≤ hi + 1) (hhi : hi < 64) :
    (s.setFf k off hi lo x).ff k off hi lo = x % 2 ^ (hi + 1 - lo) := by
  rw [State.ff, State.setFf, State.reg_setReg_self, fld_putFld_same _ h hhi]

theorem cf_of_reg {s t : State} {d off : Nat} (h : t.reg (cAddr d off) = s.reg (cAddr d off)) (hi lo : Nat) :
    t.cf d off hi lo = s.cf d off hi lo := by
  unfold State.cf; rw [h]

theorem stopped_iff (s : State) : s.stopped = true ↔ s.cf 0 0x0200 20 20 = 1 := decide_eq_true_iff

theorem csts_fatal (x : BitVec 32) : bitSet (x ||| 2).toNat 1 = true := by
  have h : (x ||| 2).getLsbD 1 = true := by simp
  rwa [BitVec.getLsbD, Nat.testBit_eq_decide_div_mod_eq, ← beq_eq_decide] at h

/-- What a controlled stop with a code leaves, in the state it began in. -/
def StopsWith (s t : State) (code : Nat) : Prop :=
  t.stopped = true ∧ t.cf 0 0x0200 31 24 = code ∧ t.rst.stopAt = s.time ∧
    (∀ k, k < s.nslices → (t.seq k).run = true) ∧ t.host.fetching = false ∧ bitSet t.host.csts.toNat 1 = true ∧
    ∀ i, (t.slot i).live = false

/-- What a controlled stop logs. -/
def stopLogged (code : Nat) (s : State) : State := logFault 0x0002 0xFF 0xFF 0xFF 0xFF code s
/-- A controlled stop in rst.stat, with its sequences started. -/
def stopMarked (code : Nat) (s : State) : State :=
  ((upTo (stopLogged code s).nslices triggerSafety (stopLogged code s)).setCf 0 0x0200 20 20 1).setCf 0 0x0200 31 24 code
/-- The start of a controlled stop, and the host port in it: it fetches no more, and a loss of REFCLK takes its link and its queues
away. -/
def stopPort (code : Nat) (s : State) : State :=
  { s with
    rst := { s.rst with stopAt := s.time, endWaits := false }
    host := if code = 7 then { s.host with linkUp := false, fetching := false, cqs := [] }
      else { s.host with fetching := false } }
/-- Every live command aborted. -/
def endLive (s : State) : State := s.liveSlots.foldl (fun s e => endCommand e.1 .aborted 0 6 0 0 0 s) s
/-- CSTS.CFS set. -/
def fatalStatus (s : State) : State := { s with host := { s.host with csts := s.host.csts ||| 2 } }

theorem controlledStop_eq {s : State} (h : s.stopped = false) (code : Nat) :
    controlledStop code s = fatalStatus (endLive (stopPort code (stopMarked code s))) := by
  unfold controlledStop stopPort stopMarked stopLogged endLive fatalStatus
  rw [if_neg (by simp [h])]
  by_cases hc : code = 7
  · simp only [if_pos hc]
  · simp only [if_neg hc]

theorem fatalStatus_reg (s : State) (a : Nat) : (fatalStatus s).reg a = s.reg a := rfl
theorem fatalStatus_rst (s : State) : (fatalStatus s).rst = s.rst := rfl
theorem stopPort_pinLow (code : Nat) (s : State) : (stopPort code s).rst.pinLow = s.rst.pinLow := rfl
theorem stopPort_regs (code : Nat) (s : State) : (stopPort code s).regs = s.regs := rfl
theorem stopPort_safe (code : Nat) (s : State) : (stopPort code s).safe = s.safe := rfl
theorem stopPort_fetching (code : Nat) (s : State) : (stopPort code s).host.fetching = false := by
  unfold stopPort; dsimp only; split <;> rfl

theorem stopLogged_kept (code : Nat) (s : State) :
    (stopLogged code s).regs = s.regs ∧ (stopLogged code s).now = s.now ∧ (stopLogged code s).part = s.part ∧
      (stopLogged code s).rst = s.rst := by
  obtain ⟨l, -, hl⟩ := logFault_offHost 0x0002 0xFF 0xFF 0xFF 0xFF code s
  have hregs := congrArg State.regs hl
  have hnow := congrArg State.now hl
  have hpart := congrArg State.part hl
  have hrst := congrArg State.rst hl
  exact ⟨hregs, hnow, hpart, hrst⟩

theorem stopMarked_beneath (code : Nat) (s : State) : beneathSafety (stopMarked code s) = beneathSafety (stopLogged code s) := by
  rw [stopMarked, setCf_beneath, setCf_beneath, triggerAll_beneath]

theorem stopMarked_reg_ne (code : Nat) (s : State) {a : Nat} (ha : a < 0x1200_0000) (hne : a ≠ rstStat) :
    (stopMarked code s).reg a = s.reg a := by
  obtain ⟨hregs, -, -, -⟩ := stopLogged_kept code s
  rw [stopMarked, State.reg_setCf_ne _ hne, State.reg_setCf_ne _ hne, triggerAll_reg _ _ ha, reg_of_regs hregs]

theorem stopMarked_stopped (code : Nat) (s : State) : (stopMarked code s).stopped = true := by
  rw [stopped_iff, stopMarked, cf_setCf_below _ _ _ _ (by omega) (by omega) (by omega) (by omega),
    cf_setCf_same _ _ _ _ (by omega) (by omega)]
  rfl

theorem stopMarked_code {code : Nat} (hc : code < 256) (s : State) : (stopMarked code s).cf 0 0x0200 31 24 = code := by
  rw [stopMarked, cf_setCf_same _ _ _ _ (by omega) (by omega)]
  exact Nat.mod_eq_of_lt hc

theorem stopMarked_run (code : Nat) (s : State) {k : Nat} (hk : k < s.nslices) : ((stopMarked code s).seq k).run = true := by
  obtain ⟨-, -, hpart, -⟩ := stopLogged_kept code s
  have hn : (stopLogged code s).nslices = s.nslices := congrArg Part.slices hpart
  rw [stopMarked, seq_of_safe (State.setCf_safe _ _ _ _ _ _), seq_of_safe (State.setCf_safe _ _ _ _ _ _), triggerAll_run, hn]
  simp [hk]

theorem beneathSafety_now (s : State) : (beneathSafety s).now = s.now := rfl
theorem beneathSafety_rst (s : State) : (beneathSafety s).rst = s.rst := rfl

theorem stopMarked_now (code : Nat) (s : State) : (stopMarked code s).now = s.now := by
  obtain ⟨-, hnow, -, -⟩ := stopLogged_kept code s
  rw [← beneathSafety_now, stopMarked_beneath, beneathSafety_now, hnow]

theorem stopMarked_rst (code : Nat) (s : State) : (stopMarked code s).rst = s.rst := by
  obtain ⟨-, -, -, hrst⟩ := stopLogged_kept code s
  rw [← beneathSafety_rst, stopMarked_beneath, beneathSafety_rst, hrst]

/-- Every command ended, registers, sequences and the reset's state stand, and of the host port its link and its fetching. -/
theorem endLive_kept (s : State) :
    (endLive s).regs = s.regs ∧ (endLive s).rst = s.rst ∧ (endLive s).safe = s.safe ∧
      (endLive s).host.linkUp = s.host.linkUp ∧ (endLive s).host.fetching = s.host.fetching := by
  have h := endAll_fst s.liveSlots s
  have hregs := congrArg State.regs h
  have hrst := congrArg State.rst h
  have hsafe := congrArg State.safe h
  have hlink := congrArg (fun s => s.host.linkUp) h
  have hfetch := congrArg (fun s => s.host.fetching) h
  exact ⟨hregs, hrst, hsafe, hlink, hfetch⟩

theorem controlledStop_regs {s : State} (h : s.stopped = false) (code : Nat) (a : Nat) :
    (controlledStop code s).reg a = (stopMarked code s).reg a := by
  obtain ⟨hregs, -, -, -, -⟩ := endLive_kept (stopPort code (stopMarked code s))
  rw [controlledStop_eq h, fatalStatus_reg, reg_of_regs hregs, reg_of_regs (stopPort_regs _ _)]

/-- A controlled stop of a device that runs leaves the code of its cause, every sequence running and every command ended. -/
theorem controlledStop_stops {s : State} (h : s.stopped = false) {code : Nat} (hc : code < 256) :
    StopsWith s (controlledStop code s) code := by
  have hreg := controlledStop_regs h code rstStat
  refine ⟨?_, ?_, ?_⟩
  · rw [stopped_iff, cf_of_reg hreg, ← stopped_iff, stopMarked_stopped]
  · rw [cf_of_reg hreg, stopMarked_code hc]
  have hnow := stopMarked_now code s
  have hrun := fun k (hk : k < s.nslices) => stopMarked_run code s hk
  rw [controlledStop_eq h]
  generalize stopMarked code s = m at hnow hrun
  obtain ⟨-, hrst, hsafe, -, hfetch⟩ := endLive_kept (stopPort code m)
  have hlive := endAll_live (stopPort code m)
  refine ⟨?_, fun k hk => ?_, ?_, csts_fatal _, hlive⟩
  · exact (congrArg ResetSt.stopAt hrst).trans (congrArg (fun n => n * 5 / 2) hnow)
  · exact (congrArg SafetySeq.run (seq_of_safe (hsafe.trans (stopPort_safe code m)) k)).trans (hrun k hk)
  · exact hfetch.trans (stopPort_fetching code m)

/-- It leaves every C-die register but rst.stat. -/
theorem controlledStop_reg_ne {s : State} (h : s.stopped = false) (code : Nat) {a : Nat} (ha : a < 0x1200_0000)
    (hne : a ≠ rstStat) : (controlledStop code s).reg a = s.reg a := by
  rw [controlledStop_regs h, stopMarked_reg_ne code s ha hne]

/-- A loss of REFCLK takes the link down (log entry 9). -/
theorem controlledStop_seven_linkUp {s : State} (h : s.stopped = false) : (controlledStop 7 s).host.linkUp = false := by
  rw [controlledStop_eq h]
  generalize stopMarked 7 s = m
  obtain ⟨-, -, -, hlink, -⟩ := endLive_kept (stopPort 7 m)
  exact hlink

/-- A controlled stop moves no pin. -/
theorem controlledStop_pinLow (code : Nat) (s : State) : (controlledStop code s).rst.pinLow = s.rst.pinLow := by
  cases h : s.stopped with
  | true => rw [controlledStop, if_pos h]
  | false =>
    have hm := stopMarked_rst code s
    rw [controlledStop_eq h, ← hm]
    generalize stopMarked code s = m
    obtain ⟨-, hrst, -, -, -⟩ := endLive_kept (stopPort code m)
    rw [fatalStatus_rst, hrst, stopPort_pinLow]

end Sys2Proof.Machine.StopLaws
end

section
/-! SUPPORT. A deck-core fault after the seal (R600 to R603). -/

namespace Sys2Proof.Machine.StopLaws

/-- The part of a slot that redispatch returns to its queue. -/
abbrev heldBy (c : Nat) : Phase × Option Nat × Bool := (.taken, some c, false)

/-- What redispatch does to a listed slot. -/
def returnSlot (c : Nat) (s : State) (e : Nat × Slot) : State :=
  if e.2.phase = .taken ∧ e.2.takenBy = some c ∧ ¬ e.2.posting then
    s.modSlot e.1 (fun x => { x with phase := .queued, notBefore := 0, service := x.service + (s.time - x.takenAt) })
  else s

theorem redispatch_eq (c : Nat) (s : State) : redispatch c s = s.liveSlots.foldl (returnSlot c) s := rfl

theorem part_eq_heldBy (c : Nat) (x : Slot) :
    part x = heldBy c ↔ x.phase = .taken ∧ x.takenBy = some c ∧ ¬ x.posting := by
  simp [part, heldBy]

theorem returnSlot_outline (c : Nat) (s : State) (e : Nat × Slot) :
    outline (returnSlot c s e) = if part e.2 = heldBy c then
      ((outline s).1, Function.update (outline s).2 e.1 (.queued, ((outline s).2 e.1).2)) else outline s := by
  unfold returnSlot
  simp only [part_eq_heldBy]
  split
  · exact outline_modSlot s e.1 _ (fun p => (.queued, p.2)) (fun _ => rfl)
  · rfl

/-- A slot that is still held after one was returned was held before, and is another. -/
theorem held_of_returnSlot {c i : Nat} {s : State} {e : Nat × Slot} (h : (outline (returnSlot c s e)).2 i = heldBy c) :
    (outline s).2 i = heldBy c ∧ ¬ (e.1 = i ∧ part e.2 = heldBy c) := by
  rw [returnSlot_outline] at h
  split at h
  · dsimp only at h
    by_cases hi : i = e.1
    · subst hi; rw [Function.update_self] at h; exact nomatch (congrArg Prod.fst h : Phase.queued = Phase.taken)
    · rw [Function.update_of_ne hi] at h; exact ⟨h, fun he => hi he.1.symm⟩
  · next hp => exact ⟨h, fun he => hp he.2⟩

theorem held_of_returnAll {c i : Nat} {l : List (Nat × Slot)} {s : State}
    (h : (outline (l.foldl (returnSlot c) s)).2 i = heldBy c) :
    (outline s).2 i = heldBy c ∧ ∀ e ∈ l, ¬ (e.1 = i ∧ part e.2 = heldBy c) := by
  induction l generalizing s with
  | nil => exact ⟨h, by simp⟩
  | cons e l ih =>
    obtain ⟨hrest, hl⟩ := ih h
    obtain ⟨hs, he⟩ := held_of_returnSlot hrest
    exact ⟨hs, List.forall_mem_cons.2 ⟨he, hl⟩⟩

/-- No command that was not being posted stays with the core (R602). -/
theorem redispatch_not_held (c i : Nat) (s : State) : (outline (redispatch c s)).2 i ≠ heldBy c := by
  intro h
  rw [redispatch_eq] at h
  obtain ⟨hs, hl⟩ := held_of_returnAll h
  have hlive : (s.slot i).live = true := by
    have hp : (s.slot i).phase = .taken := congrArg Prod.fst hs
    rw [Slot.live, hp]; rfl
  exact hl _ (mem_liveSlots hlive) ⟨rfl, hs⟩

theorem redispatch_fst (c : Nat) (s : State) : (outline (redispatch c s)).1 = (outline s).1 :=
  foldl_view (fun s => (outline s).1) _ _ (fun e _ s => by
    show (outline (returnSlot c s e)).1 = _
    rw [returnSlot_outline]; split <;> rfl) s

theorem redispatch_cores (c : Nat) (s : State) : (redispatch c s).cores = s.cores :=
  foldl_cores _ (fun s e => by split <;> rfl) _ s

/-! The account of a core that faults. -/

theorem grantTo_account (core tag count : Nat) (s : State) {c : Nat} (h : core ≠ c) :
    Tbl.at (grantTo core tag count s).adm.accounts c = Tbl.at s.adm.accounts c := by
  unfold grantTo setHeld
  split
  · exact Tbl.at_upd_ne (Ne.symm h) _ _
  · split <;> rfl

theorem notice_adm (c code value ident : Nat) (s : State) : (notice c code value ident s).adm = s.adm := rfl

/-- Energy given back goes into the account of no core without a ticket. -/
theorem reconsider_account (s : State) {c : Nat} (h : ∀ t ∈ s.adm.tickets, t.core ≠ c) :
    Tbl.at (reconsider s).adm.accounts c = Tbl.at s.adm.accounts c := by
  refine foldl_view (fun s => Tbl.at s.adm.accounts c) _ _ (fun t ht s => ?_) s
  dsimp only
  split
  · rw [notice_adm, grantTo_account _ _ _ _ (h t (mem_of_mem_sortBy _ _ t ht))]
  · rfl

theorem giveBack_account (uj : Nat) (s : State) {c : Nat} (h : ∀ t ∈ s.adm.tickets, t.core ≠ c) :
    Tbl.at (giveBack uj s).adm.accounts c = Tbl.at s.adm.accounts c := by
  unfold giveBack
  exact reconsider_account (poolAdd uj s) h

theorem giveBack_keeps (uj : Nat) (s : State) : KeepsCores s (giveBack uj s) :=
  KeepsCores.trans (.of_cores rfl) (reconsider_keeps (poolAdd uj s))

/-- The account of core c emptied, and its tickets ended. -/
def dropAccount (c : Nat) (s : State) : State :=
  { s with adm := { s.adm with
    accounts := Tbl.upd c 0 s.adm.accounts
    tickets := s.adm.tickets.filter (fun t => decide (t.core ≠ c)) } }

theorem dropAccount_outline (c : Nat) (s : State) : outline (dropAccount c s) = outline s := outline_adm s _ rfl

/-- What a fault of core c after the seal logs. -/
def coreLogged (c reason : Nat) (s : State) : State :=
  logFault 0x0003 (c / 8) c (c / 8) 0xFF
    (reason + (s.core c).cause.toNat % 256 * 2 ^ 8 + (s.core c).epc.toNat % 2 ^ 40 * 2 ^ 16) s
/-- Core c stopped, with the number of the record. -/
def coreStopped (c reason : Nat) (s : State) : State :=
  (coreLogged c reason s).setCore c { s.core c with run := .stopped, stopSeq := (coreLogged c reason s).flt.head }

theorem deckCoreFault_unsealed {s : State} (h : s.sealed = false) (c reason : Nat) :
    deckCoreFault c reason s = controlledStop 9 (s.setCore c { s.core c with run := .stopped }) := by
  simp [deckCoreFault, h]

theorem deckCoreFault_again {s : State} (h : s.sealed = true) {c r : Nat} (hr : (s.core c).restartAt = some r)
    (hlt : s.time < r + 1000000) (reason : Nat) :
    deckCoreFault c reason s = controlledStop 10 (s.setCore c { s.core c with run := .stopped }) := by
  simp [deckCoreFault, h, hr, hlt]

theorem deckCoreFault_sealed {s : State} (h : s.sealed = true) {c : Nat}
    (hr : ∀ r, (s.core c).restartAt = some r → r + 1000000 ≤ s.time) (reason : Nat) :
    deckCoreFault c reason s = giveBack (Tbl.at (redispatch c (coreStopped c reason s)).adm.accounts c)
      (dropAccount c (redispatch c (coreStopped c reason s))) := by
  unfold deckCoreFault
  dsimp only
  rw [if_neg (by simp [h]), if_neg ?_]
  · rfl
  · cases hk : (s.core c).restartAt with
    | none => simp
    | some r => simpa using hr r hk

theorem coreStopped_core (c reason : Nat) (s : State) : (coreStopped c reason s).core c =
    { s.core c with run := .stopped, stopSeq := (coreLogged c reason s).flt.head } := State.core_setCore _ _ _

theorem coreStopped_outline (c reason : Nat) (s : State) : outline (coreStopped c reason s) = outline (coreLogged c reason s) :=
  rfl

theorem coreLogged_kept (c reason : Nat) (s : State) :
    (coreLogged c reason s).flt.head = s.flt.head + 1 ∧ (coreLogged c reason s).regs = s.regs := by
  obtain ⟨l, hhead, hl⟩ := logFault_offHost 0x0003 (c / 8) c (c / 8) 0xFF
    (reason + (s.core c).cause.toNat % 256 * 2 ^ 8 + (s.core c).epc.toNat % 2 ^ 40 * 2 ^ 16) s
  have hflt := congrArg (fun s => s.flt.head) hl
  have hregs := congrArg State.regs hl
  exact ⟨hflt.trans hhead, hregs⟩

/-- A core that faults after the seal stops with its registers as they are and the number of its record, its account is emptied
and its commands that are not being posted return to their queues (R601, R602). -/
theorem deckCoreFault_stops_core {s : State} (h : s.sealed = true) {c : Nat}
    (hr : ∀ r, (s.core c).restartAt = some r → r + 1000000 ≤ s.time) {reason : Nat} {t : State}
    (ht : deckCoreFault c reason s = t) :
    (t.core c).own = Core.own { s.core c with run := .stopped, stopSeq := s.flt.head + 1 } ∧ t.flt.head = s.flt.head + 1 ∧
      t.regs = s.regs ∧ Tbl.at t.adm.accounts c = 0 ∧ ∀ i, part (t.slot i) ≠ heldBy c := by
  obtain ⟨hhead, hregs⟩ := coreLogged_kept c reason s
  rw [← ht, deckCoreFault_sealed h hr]
  have hstopped := coreStopped_core c reason s
  have hout := coreStopped_outline c reason s
  rw [hhead] at hstopped
  generalize coreStopped c reason s = u at hstopped hout
  generalize coreLogged c reason s = l at hout hhead hregs
  have hpart := fun i => redispatch_not_held c i u
  have hfst := redispatch_fst c u
  have hcores := redispatch_cores c u
  generalize redispatch c u = v at hpart hfst hcores
  have hv : (outline v).1 = (outline l).1 := hfst.trans (congrArg Prod.fst hout)
  generalize Tbl.at v.adm.accounts c = uj
  have hgive : outline (giveBack uj (dropAccount c v)) = outline v :=
    (giveBack_outline _ _).trans (dropAccount_outline c v)
  have hfields := (congrArg Prod.fst hgive).trans hv
  refine ⟨?_, ?_, ?_, ?_, ?_⟩
  · rw [giveBack_keeps uj (dropAccount c v) c]
    have hcore : (dropAccount c v).core c = u.core c := congrArg (fun t => Tbl.at t c) hcores
    rw [hcore, hstopped]
  · exact (congrArg (fun s => s.flt.head) hfields).trans hhead
  · exact (congrArg State.regs hfields).trans hregs
  · rw [giveBack_account uj (dropAccount c v)]
    · exact Tbl.at_upd_self c 0 v.adm.accounts
    · intro t ht
      simpa using (List.mem_filter.1 ht).2
  · intro i
    have := hpart i
    rwa [← hgive] at this

end Sys2Proof.Machine.StopLaws
end

section
/-! SUPPORT. A package reset that is left (R581 to R596): what its restore keeps, and what rst.stat then reads. -/

namespace Sys2Proof.Machine.StopLaws

/-- The reset's state and rst.stat, which no part of the restore writes. -/
def resetView (s : State) : ResetSt × Word := (s.rst, s.reg rstStat)

/-- An offset of a page other than that of rst.stat. -/
theorem cAddr_ne_rstStat (d : Nat) {off : Nat} (h : off % 0x10_0000 ≠ 0x0200) : cAddr d off ≠ rstStat := by
  simp only [rstStat, cAddr]; omega

theorem setReg_resetView (s : State) {a : Nat} (ha : a ≠ rstStat) (w : Word) : resetView (s.setReg a w) = resetView s :=
  Prod.ext rfl (State.reg_setReg_ne s ha.symm w)
theorem setCf_resetView (s : State) (d hi lo x : Nat) {off : Nat} (h : off % 0x10_0000 ≠ 0x0200) :
    resetView (s.setCf d off hi lo x) = resetView s :=
  setReg_resetView s (cAddr_ne_rstStat d h) _
theorem modCore_resetView (s : State) (c : Nat) (f : Core → Core) : resetView (s.modCore c f) = resetView s := rfl
theorem setByte_resetView (s : State) (a : Nat) (b : Byte) : resetView (s.setByte a b) = resetView s := rfl
theorem setAon_resetView (s : State) (x : Aon) : resetView { s with aon := x } = resetView s := rfl
theorem offHost_resetView (s : State) : resetView (offHost s) = resetView s := rfl
theorem setFlt_resetView (s : State) (l : FaultLog) : resetView { s with flt := l } = resetView s := rfl

theorem poke_resetView (bs : List Byte) (a : Nat) (s : State) : resetView (s.poke a bs) = resetView s := by
  induction bs generalizing a s with
  | nil => rfl
  | cons b bs ih => exact (ih _ _).trans (setByte_resetView s a b)

theorem restoreReg_resetView (fdie : Bool) (d v : Nat) (s : State) {off : Nat} (h : off % 0x10_0000 ≠ 0x0200) :
    resetView (restoreReg fdie d off v s) = resetView s := by
  refine setReg_resetView s ?_ _
  split
  · exact (ne_fAddr (by decide) d off).symm
  · exact cAddr_ne_rstStat d h

theorem restoreCal_resetView (k : Nat) (bs : List Byte) (s : State) : resetView (restoreCal k bs s) = resetView s :=
  upTo_view resetView _ _ (fun i hi s => restoreReg_resetView true k _ s (by omega)) s

theorem restoreFdie_resetView (k : Nat) (s : State) : resetView (restoreFdie k s) = resetView s := by
  unfold restoreFdie
  split
  · exact restoreCal_resetView _ _ _
  · rfl

theorem setFeat_resetView (s : State) (f i v : Nat) : resetView (s.setFeat f i v) = resetView s := rfl

theorem restoreClasses_resetView (bs : List Byte) (s : State) : resetView (restoreClasses bs s) = resetView s := by
  unfold restoreClasses
  refine (setFeat_resetView _ _ _ _).trans ((upTo_view resetView _ _ (fun _ _ s => setFeat_resetView s _ _ _) _).trans ?_)
  refine (upTo_view resetView _ _ (fun _ _ s => (setFeat_resetView _ _ _ _).trans (setFeat_resetView s _ _ _)) _).trans ?_
  refine (upTo_view resetView _ _ (fun _ _ s => setFeat_resetView s _ _ _) _).trans ?_
  exact upTo_view resetView _ _ (fun _ _ s => (setFeat_resetView _ _ _ _).trans (setFeat_resetView s _ _ _)) s

theorem restoreSection_resetView (i : Nat) (bs : List Byte) (s : State) : resetView (restoreSection i bs s) = resetView s := by
  unfold restoreSection
  split
  · rw [upTo_view resetView _ _ (fun j hj s => restoreReg_resetView false 0 _ s (by omega)), setCf_resetView _ _ _ _ _ (by decide),
      setCf_resetView _ _ _ _ _ (by decide)]
  split
  · exact restoreReg_resetView false 0 _ s (by decide)
  split
  · exact restoreClasses_resetView bs s
  split
  · exact upTo_view resetView _ _ (fun d _ s => (restoreReg_resetView false d _ _ (by decide)).trans
      (restoreReg_resetView false d _ s (by decide))) s
  split
  · exact upTo_view resetView _ _ (fun d _ s =>
      upTo_view resetView _ _ (fun e he s => restoreReg_resetView false d _ s (by omega)) s) s
  · rfl

theorem finishStaging_resetView (s : State) : resetView (finishStaging s) = resetView s := by
  unfold finishStaging
  split
  · rfl
  · split
    · rfl
    · rw [setAon_resetView, poke_resetView, poke_resetView]

theorem restoreBlock_resetView (trusted : Bool) (dflt : List Byte) (s : State) :
    resetView (restoreBlock trusted dflt s).2 = resetView s := by
  unfold restoreBlock
  dsimp only
  rw [poke_resetView]
  refine foldl_view resetView _ _ (fun e _ s => ?_) s
  split
  · exact (restoreSection_resetView _ _ _).trans (poke_resetView _ _ _)
  · exact poke_resetView _ _ _

theorem logFault_resetView (code die unit slice core detail : Nat) (s : State) :
    resetView (logFault code die unit slice core detail s) = resetView s := by
  obtain ⟨l, -, hl⟩ := logFault_offHost code die unit slice core detail s
  rw [← offHost_resetView, hl, offHost_resetView, setFlt_resetView]

theorem reportSources_resetView (srcs : List Nat) (s : State) : resetView (reportSources srcs s) = resetView s := by
  unfold reportSources
  dsimp only
  split
  · exact setCf_resetView _ _ _ _ _ (by decide)
  · exact (logFault_resetView _ _ _ _ _ _ _).trans (setCf_resetView _ _ _ _ _ (by decide))

theorem restoreNow_resetView (s : State) : resetView (restoreNow s) = resetView s := by
  unfold restoreNow
  dsimp only
  split
  · rw [reportSources_resetView, restoreBlock_resetView, finishStaging_resetView]
  · refine (foldl_view resetView _ _ (fun e _ s => ?_) _).trans (finishStaging_resetView s)
    split
    · exact restoreSection_resetView _ _ _
    · rfl

theorem showRecord_resetView (s : State) : resetView (showRecord s) = resetView s :=
  (setCf_resetView _ _ _ _ _ (by decide)).trans (setCf_resetView _ _ _ _ _ (by decide))
theorem showKeys_resetView (s : State) : resetView (showKeys s) = resetView s := setCf_resetView _ _ _ _ _ (by decide)
theorem struckLimit_resetView (s : State) : resetView (struckLimit s) = resetView s := by
  unfold struckLimit
  split
  · exact setCf_resetView _ _ _ _ _ (by decide)
  · rfl

theorem regReset_rstStat : regReset rstStat = 1 := by decide

/-- After a reset rst.stat keeps scause and takes its reset value beneath (R582). -/
theorem resetRegs_rstStat (fdies : List Nat) (s : State) :
    (resetRegs false fdies s).reg rstStat = BitVec.ofNat 64 (Nat.land (s.reg rstStat).toNat 0xFF00_0000 + 1) := by
  unfold resetRegs keptBits
  dsimp only
  simp only [Bool.false_eq_true, if_false, List.cons_append, List.nil_append, List.foldl_cons, List.foldl_nil]
  rw [State.reg_setReg_ne _ (by decide), State.reg_setReg_ne _ (by decide), State.reg_setReg_ne _ (by decide),
    State.reg_setReg_ne _ (by decide), State.reg_setReg_self, regReset_rstStat]
  rfl

/-- The stop bit of rst.stat lies beneath scause: it reads 0 after such a reset (R582, R604). -/
theorem resetRegs_stopBit (fdies : List Nat) (s : State) : fld ((resetRegs false fdies s).reg rstStat) 20 20 = 0 := by
  have hmod : Nat.land (s.reg rstStat).toNat 0xFF00_0000 % 2 ^ 24 = 0 := by
    show ((s.reg rstStat).toNat &&& 0xFF00_0000) % 2 ^ 24 = 0
    rw [Nat.and_mod_two_pow]
    exact Nat.and_zero _
  have hle : Nat.land (s.reg rstStat).toNat 0xFF00_0000 ≤ 0xFF00_0000 := Nat.and_le_right
  rw [resetRegs_rstStat, fld, bitsOf, BitVec.toNat_ofNat]
  omega

/-- A reset whose state and rst.stat are those of a state that holds none, its kind and fready written over. -/
theorem status_of_resetView {s t : State} {kind ready : Nat} (hk : kind < 65536)
    (h : resetView t = resetView ((s.setCf 0 0x0200 15 0 kind).setCf 0 0x0200 19 16 ready)) (hheld : s.rst.held = none)
    (hstruck : s.rst.struck = none) (hstop : s.cf 0 0x0200 20 20 = 0) :
    t.down = false ∧ t.stopped = false ∧ t.cf 0 0x0200 15 0 = kind := by
  have hrst : t.rst = s.rst := congrArg Prod.fst h
  have hreg := congrArg Prod.snd h
  refine ⟨?_, ?_, ?_⟩
  · rw [State.down, hrst, hheld, hstruck]; rfl
  · rw [State.stopped, cf_of_reg hreg, cf_setCf_above _ _ _ _ (by omega) (by omega) (by omega),
      cf_setCf_above _ _ _ _ (by omega) (by omega) (by omega), hstop]
    rfl
  · rw [cf_of_reg hreg, cf_setCf_below _ _ _ _ (by omega) (by omega) (by omega) (by omega),
      cf_setCf_same _ _ _ _ (by omega) (by omega)]
    exact Nat.mod_eq_of_lt hk

/-- A reset that is left in power leaves the dies up, no stop in force, and its kind in rst.stat (R582, R604). -/
theorem leaveReset_status {kind : Nat} (h : kind ≠ 1) (hk : kind < 65536) (elapsed : Nat) (s : State) :
    (leaveReset kind elapsed s).down = false ∧ (leaveReset kind elapsed s).stopped = false ∧
      (leaveReset kind elapsed s).cf 0 0x0200 15 0 = kind := by
  unfold leaveReset
  extract_lets lost kept waiting gddr rtc mem aon head regs vbat _ _ _ _ fresh ready numbered flagged restored limited fdies acked
  have hlost : lost = false := by simp [lost, h]
  have hstop : fresh.cf 0 0x0200 20 20 = 0 := by
    have hfresh : fresh.reg rstStat = (resetRegs false waiting aon).reg rstStat := by
      rw [← hlost]
      exact reg_of_regs (congrArg State.regs (if_neg h : vbat = regs)) rstStat
    rw [State.cf, hfresh, resetRegs_stopBit]
  have hflagged : resetView flagged = resetView numbered :=
    (setCf_resetView _ _ _ _ _ (by decide)).trans (setCf_resetView _ _ _ _ _ (by decide))
  have hrestored : resetView restored = resetView flagged :=
    (restoreNow_resetView _).trans ((showRecord_resetView _).trans (showKeys_resetView _))
  have hlimited : resetView limited = resetView restored := by
    simp only [limited]
    split
    · exact (struckLimit_resetView _).trans (setCf_resetView _ _ _ _ _ (by decide))
    · rfl
  have hfdies : resetView fdies = resetView limited := by
    refine upTo_view resetView _ _ (fun k _ s => ?_) limited
    split
    · rfl
    · exact restoreFdie_resetView k s
  have hacked : resetView acked = resetView fdies := upTo_view resetView _ _ (fun _ _ s => modCore_resetView s _ _) fdies
  refine status_of_resetView (s := fresh) (ready := ready) hk ?_ rfl rfl hstop
  rw [modCore_resetView, hacked, hfdies, hlimited, hrestored, hflagged]

end Sys2Proof.Machine.StopLaws
end

section
/-! SUPPORT. A package reset that is entered, and the end of a controlled stop (R583, R607, R657): the channels' last
writes move no pin. -/

namespace Sys2Proof.Machine.StopLaws

theorem setEcc_rst (s : State) (a : Nat) (e : Ecc) : (s.setEcc a e).rst = s.rst := rfl
theorem modLine_rst (s : State) (a : Nat) (f : Line → Line) : (s.modLine a f).rst = s.rst := rfl
theorem markDirty_rst (a : Nat) (s : State) : (markDirty a s).rst = s.rst := modLine_rst _ _ _
theorem countBad_rst (a n : Nat) (s : State) : (countBad a n s).rst = s.rst := State.count_rst _ _ _ _

theorem poke_rst (bs : List Byte) (a : Nat) (s : State) : (s.poke a bs).rst = s.rst :=
  congrArg Prod.fst (poke_resetView bs a s)

theorem healWord_rst (s : State) (a : Nat) (e : Ecc) (die u : Nat) : ((s.setEcc a e).count die u 1).rst = s.rst := rfl

theorem healRead_none_rst (a n : Nat) (s : State) : (healRead none a n s).rst = s.rst := by
  refine foldl_view State.rst _ _ (fun w _ s => ?_) s
  split
  · exact healWord_rst s _ _ _ _
  · rfl

theorem injectInto_rst (w : Nat) (s : State) : (injectInto w s).2.rst = s.rst := by
  unfold injectInto
  dsimp only
  split
  · exact State.setCf_rst _ _ _ _ _ _
  · rfl

theorem writeWord_rst (a : Nat) (bs : List Byte) (w : Nat) (s : State) : (writeWord a bs w s).rst = s.rst := by
  unfold writeWord
  extract_lets lo hi whole healed written
  have hhealed : healed.rst = s.rst := by
    simp only [healed]
    split
    · rfl
    · exact healRead_none_rst w 8 s
  have hwritten : written.rst = s.rst := by
    simp only [written, setEcc_rst, poke_rst, hhealed]
  split
  · split
    · exact hwritten
    · rw [setEcc_rst, injectInto_rst, hwritten]
  · rfl

theorem memWrite_rst (a : Nat) (bs : List Byte) (s : State) : (memWrite a bs s).rst = s.rst := by
  unfold memWrite
  split
  · exact (foldl_view State.rst _ _ (fun w _ s => writeWord_rst a bs w s) _).trans
      (foldl_view State.rst _ _ (fun _ _ s => modLine_rst s _ _) s)
  · exact (foldl_view State.rst _ _ (fun _ _ s => setEcc_rst s _ _) _).trans (poke_rst bs a s)

theorem setLines_count_rst (s : State) (l : List Line) (die u n : Nat) : ((s.setLines l).count die u n).rst = s.rst := rfl

theorem settleTags_pinLow (a : Nat) (s : State) : (settleTags a s).rst.pinLow = s.rst.pinLow := by
  unfold settleTags
  dsimp only
  split
  · rfl
  · split
    · rw [controlledStop_pinLow, setLines_count_rst]
    · rw [setLines_count_rst]

theorem dmaWrite_pinLow (a : Nat) (bs : List Byte) (s : State) : (dmaWrite a bs s).rst.pinLow = s.rst.pinLow := by
  unfold dmaWrite
  dsimp only
  rw [memWrite_rst]
  split
  · refine foldl_view (fun s => s.rst.pinLow) _ _ (fun l _ s => ?_) s
    split
    · rw [markDirty_rst, settleTags_pinLow]
    · exact settleTags_pinLow l s
  · rfl

theorem logFault_rst (code die unit slice core detail : Nat) (s : State) :
    (logFault code die unit slice core detail s).rst = s.rst :=
  congrArg Prod.fst (logFault_resetView code die unit slice core detail s)

theorem writeOperand_pinLow (initiator key : Nat) (bs : List Byte) (s : State) :
    (writeOperand initiator key bs s).rst.pinLow = s.rst.pinLow := by
  unfold writeOperand
  split
  · rw [dmaWrite_pinLow, logUncorrectable, logFault_rst, countBad_rst]
  · exact dmaWrite_pinLow _ _ _

theorem brokenStop_rst (o : Chop) (s : State) : (brokenStop o s).2.rst = s.rst := by
  unfold brokenStop
  split
  · rfl
  · split <;> rfl

theorem abortChops_pinLow (s : State) : (abortChops s).rst.pinLow = s.rst.pinLow := by
  refine upTo_view (fun s => s.rst.pinLow) _ _ (fun k _ s => ?_) s
  refine foldl_view (fun s => s.rst.pinLow) _ _ (fun o _ s => ?_) s
  dsimp only
  rw [writeEnd, writeOperand_pinLow, brokenStop_rst]

/-- The reset that ends a controlled stop is entered with the pin as it was. -/
theorem enterReset_six_pinLow (fdies : List Nat) (s : State) : (enterReset 6 fdies s).rst.pinLow = s.rst.pinLow :=
  abortChops_pinLow s

/-- A controlled stop ends, with every sequence ended and SYS_RST_N high, in a reset of kind 6 that is left at once (R607). -/
theorem stopEnd_status {s : State} (h : s.stopped = true) (hrun : ∀ k, k < s.nslices → (s.seq k).run = false)
    (hpin : s.rst.pinLow = false) :
    (stopEnd s).down = false ∧ (stopEnd s).stopped = false ∧ (stopEnd s).cf 0 0x0200 15 0 = 6 := by
  have hany : (List.range s.nslices).any (fun k => (s.seq k).run) = false := by
    rw [List.any_eq_false]
    intro k hk
    rw [hrun k (List.mem_range.1 hk)]
    exact Bool.false_ne_true
  have hlow := (enterReset_six_pinLow [] s).trans hpin
  have hend : stopEnd s = leaveReset 6 0 (enterReset 6 [] s) := by
    simp [stopEnd, h, hany, hlow]
  rw [hend]
  exact leaveReset_status (by decide) (by decide) 0 _

end Sys2Proof.Machine.StopLaws
end

section
/-! SUPPORT. Tamper, and the loss of REFCLK (R36, R544). -/

namespace Sys2Proof.Machine.StopLaws

/-- What a lock or an erasure of the keys leaves alone: the timebase, the part, rst.stat, and the register of tamper sources. -/
def keyView (s : State) : Nat × Part × Word × Word := (s.now, s.part, s.reg rstStat, s.reg (cAddr 0 0xE028))

theorem setReg_keyView (s : State) {a : Nat} (h : a ≠ rstStat) (h' : a ≠ cAddr 0 0xE028) (w : Word) :
    keyView (s.setReg a w) = keyView s := by
  unfold keyView
  rw [State.reg_setReg_ne _ h.symm, State.reg_setReg_ne _ h'.symm]
  rfl
theorem setCf_keyView (s : State) (d off hi lo x : Nat) (h : cAddr d off ≠ rstStat) (h' : cAddr d off ≠ cAddr 0 0xE028) :
    keyView (s.setCf d off hi lo x) = keyView s := setReg_keyView s h h' _
theorem setQueue_keyView (s : State) (k : Nat) (q : List Chop) : keyView (s.setQueue k q) = keyView s := rfl
theorem setSec_keyView (s : State) (x : Secure) : keyView (s.setSec x) = keyView s := rfl
theorem setKeys_keyView (s : State) (x : KeyStore) : keyView { s with keys := x } = keyView s := rfl

theorem stopUserWrites_keyView (s : State) : keyView (stopUserWrites s) = keyView s :=
  upTo_view keyView _ _ (fun _ _ s => setQueue_keyView s _ _) s

theorem showKeys_keyView (s : State) : keyView (showKeys s) = keyView s := setCf_keyView _ _ _ _ _ _ (by decide) (by decide)

theorem endKeyCommand_keyView (result : Nat) (s : State) : keyView (endKeyCommand result s) = keyView s := by
  rw [endKeyCommand, setCf_keyView _ _ _ _ _ _ (by decide) (by decide), setCf_keyView _ _ _ _ _ _ (by decide) (by decide),
    setSec_keyView]

theorem lockKeys_keyView (s : State) : keyView (lockKeys s) = keyView s := by
  unfold lockKeys
  dsimp only
  rw [stopUserWrites_keyView, showKeys_keyView]
  split
  · rw [endKeyCommand_keyView, setKeys_keyView]
  · exact setKeys_keyView _ _

theorem eraseKeys_keyView (s : State) : keyView (eraseKeys s) = keyView s := by
  unfold eraseKeys
  dsimp only
  rw [stopUserWrites_keyView, showKeys_keyView, setCf_keyView _ _ _ _ _ _ (by decide) (by decide), setSec_keyView]
  split
  · rw [endKeyCommand_keyView, setKeys_keyView]
  · exact setKeys_keyView _ _

theorem logFault_keyView (code die unit slice core detail : Nat) (s : State) :
    keyView (logFault code die unit slice core detail s) = keyView s := by
  obtain ⟨l, -, hl⟩ := logFault_offHost code die unit slice core detail s
  have h : ∀ u, keyView (offHost u) = keyView u := fun _ => rfl
  have h' : ∀ (u : State) l, keyView { u with flt := l } = keyView u := fun _ _ => rfl
  rw [← h, hl, h, h']

/-- Tamper source 3 marks its bit, and lets the time and rst.stat stand. -/
theorem tamperEvent_three (s : State) :
    (tamperEvent 3 s).now = s.now ∧ (tamperEvent 3 s).part = s.part ∧ (tamperEvent 3 s).reg rstStat = s.reg rstStat ∧
      (tamperEvent 3 s).cf 0 0xE028 3 3 = 1 := by
  unfold tamperEvent
  rw [if_neg (by decide)]
  extract_lets cls marked logged
  have hlogged : keyView logged = keyView marked := by
    simp only [logged]
    split
    · rfl
    · exact logFault_keyView _ _ _ _ _ _ _
  have hkeys : keyView (if cls = 0 then logged else if cls = 1 then lockKeys logged else eraseKeys logged) = keyView marked := by
    split
    · exact hlogged
    · split
      · exact (lockKeys_keyView _).trans hlogged
      · exact (eraseKeys_keyView _).trans hlogged
  generalize (if cls = 0 then logged else if cls = 1 then lockKeys logged else eraseKeys logged) = t at hkeys
  simp only [keyView, Prod.mk.injEq] at hkeys
  obtain ⟨hnow, hpart, hstat, htamper⟩ := hkeys
  refine ⟨?_, ?_, ?_, ?_⟩
  · rw [hnow]; exact (State.setCf_now _ _ _ _ _ _).trans (State.setCf_now _ _ _ _ _ _)
  · rw [hpart]; exact (State.setCf_part _ _ _ _ _ _).trans (State.setCf_part _ _ _ _ _ _)
  · rw [hstat]; exact (State.reg_setCf_ne _ (by decide)).trans (State.reg_setCf_ne _ (by decide))
  · rw [cf_of_reg htamper, cf_setCf_below _ _ _ _ (by omega) (by omega) (by omega) (by omega),
      cf_setCf_same _ _ _ _ (by omega) (by omega)]
    rfl

theorem beneathSafety_part (s : State) : (beneathSafety s).part = s.part := rfl

/-- What a stop leaves is told by the time it began and the part. -/
theorem StopsWith.of_same {s u t : State} {code : Nat} (h : StopsWith u t code) (hnow : u.now = s.now) (hpart : u.part = s.part) :
    StopsWith s t code := by
  unfold StopsWith State.time State.nslices at h ⊢
  rwa [← hnow, ← hpart]

/-- The loss of REFCLK stops the package with code 7, takes the link down and raises tamper source 3 (R36; log entry 9). -/
theorem execRefclkLoss_stops {s : State} (hdown : s.down = false) (h : s.stopped = false) :
    ∃ t, execRefclkLoss s = .next t ∧ StopsWith s t 7 ∧ t.host.linkUp = false ∧ t.cf 0 0xE028 3 3 = 1 := by
  obtain ⟨hnow, hpart, hstat, htamper⟩ := tamperEvent_three s
  have he : execRefclkLoss s = .next (controlledStop 7 (upTo s.nslices triggerSafety (tamperEvent 3 s))) := by
    rw [execRefclkLoss, whileUp, hdown]; rfl
  refine ⟨_, he, ?_⟩
  generalize tamperEvent 3 s = u at hnow hpart hstat htamper
  have hall := triggerAll_beneath s.nslices u
  have hreg := fun a (ha : a < 0x1200_0000) => triggerAll_reg s.nslices u ha
  generalize upTo s.nslices triggerSafety u = v at hall hreg
  have hv : v.now = s.now := by rw [← beneathSafety_now, hall, beneathSafety_now, hnow]
  have hn : v.part = s.part := by rw [← beneathSafety_part, hall, beneathSafety_part, hpart]
  have hstop : v.stopped = false := by
    rw [← h, State.stopped, State.stopped, cf_of_reg ((hreg _ (by decide)).trans hstat)]
  refine ⟨(controlledStop_stops hstop (by decide)).of_same hv hn, controlledStop_seven_linkUp hstop, ?_⟩
  rw [cf_of_reg (controlledStop_reg_ne hstop 7 (by decide) (by decide)), cf_of_reg (hreg _ (by decide)), htamper]

end Sys2Proof.Machine.StopLaws
end

section
/-! SUPPORT. The stages and the end of a safety sequence (R509, R588). -/

namespace Sys2Proof.Machine.StopLaws

theorem execStage_early {s : State} {k : Nat} (n : Nat) (hdown : s.down = false) (h : seqTime s k < stageDue s k n) :
    execSafetySequenceStage k n s = .next s := by
  simp [execSafetySequenceStage, hdown, h]

/-- A stage is open: the sequence runs, and in a reset or from its time on it may come. -/
theorem execStage_open {s : State} {k n : Nat} (hk : k < s.nslices) (hrun : (s.seq k).run = true)
    (hdue : s.down = true ∨ stageDue s k n ≤ seqTime s k) :
    (!(s.seq k).run || decide (s.nslices ≤ k) || (!s.down && decide (seqTime s k < stageDue s k n))) = false := by
  rcases hdue with h | h <;> simp [hrun, hk, h]

theorem execStage_brake {s : State} {k : Nat} (hk : k < s.nslices) (hrun : (s.seq k).run = true)
    (hdue : s.down = true ∨ stageDue s k 1 ≤ seqTime s k) :
    ∃ t, execSafetySequenceStage k 1 s = .next t ∧ (t.seq k).braking = (!(s.seq k).coast && !(s.seq k).gatesOff) ∧
      t.regs = s.regs := by
  refine ⟨s.setSeq k { s.seq k with braking := !(s.seq k).coast && !(s.seq k).gatesOff }, ?_, ?_, rfl⟩
  · simp [execSafetySequenceStage, execStage_open hk hrun hdue]
  · rw [State.seq_setSeq]

theorem execStage_coils {s : State} {k : Nat} (hk : k < s.nslices) (hrun : (s.seq k).run = true)
    (hdue : s.down = true ∨ stageDue s k 2 ≤ seqTime s k) :
    ∃ t, execSafetySequenceStage k 2 s = .next t ∧ (t.seq k).coilsDown = true ∧ t.ff k 0x2020 5 0 = 0 := by
  refine ⟨(s.setSeq k { s.seq k with coilsDown := true }).setFf k 0x2020 5 0 0, ?_, ?_, ?_⟩
  · simp [execSafetySequenceStage, execStage_open hk hrun hdue]
  · rw [seq_of_safe (State.setFf_safe _ _ _ _ _ _), State.seq_setSeq]
  · rw [ff_setFf_same _ _ _ _ (by omega) (by omega)]; rfl

theorem execStage_parked {s : State} {k : Nat} (hk : k < s.nslices) (hrun : (s.seq k).run = true)
    (hdue : s.down = true ∨ stageDue s k 3 ≤ seqTime s k) :
    ∃ t, execSafetySequenceStage k 3 s = .next t ∧ (t.seq k).parked = true ∧ t.ff k 0x2020 11 8 = 0 := by
  refine ⟨(s.setSeq k { s.seq k with parked := true }).setFf k 0x2020 11 8 0, ?_, ?_, ?_⟩
  · simp [execSafetySequenceStage, execStage_open hk hrun hdue]
  · rw [seq_of_safe (State.setFf_safe _ _ _ _ _ _), State.seq_setSeq]
  · rw [ff_setFf_same _ _ _ _ (by omega) (by omega)]; rfl

/-- The last stage comes when the spindle is slow, at any time. -/
theorem execStage_gatesOff {s : State} {k : Nat} (hk : k < s.nslices) (hrun : (s.seq k).run = true) :
    ∃ t, execSafetySequenceStage k 4 s = .next t ∧ (t.seq k).gatesOff = true ∧ (t.seq k).braking = false := by
  have hdue : stageDue s k 4 ≤ seqTime s k := by simp [stageDue]
  refine ⟨s.setSeq k { s.seq k with gatesOff := true, braking := false }, ?_, ?_⟩
  · simp [execSafetySequenceStage, execStage_open hk hrun (.inr hdue)]
  · rw [State.seq_setSeq]; exact ⟨rfl, rfl⟩

/-- A sequence whose spindle has not slowed within 10 s: gates off, and recorded in the AON. -/
def timedOut (k : Nat) (s : State) : State :=
  { s.setSeq k { s.seq k with gatesOff := true, braking := false } with aon := { s.aon with spinTimeout := true } }

theorem timedOut_seq (k : Nat) (s : State) : (timedOut k s).seq k = { s.seq k with gatesOff := true, braking := false } :=
  State.seq_setSeq _ _ _
theorem timedOut_spinTimeout (k : Nat) (s : State) : (timedOut k s).aon.spinTimeout = true := rfl

/-- The end of the 10 s turns the gates off and is recorded; a STRUCK in force takes cause 2 (R509, R516). -/
theorem execSpindleTimeout_leaves {s : State} {k : Nat} (hk : k < s.nslices) (hrun : (s.seq k).run = true)
    (hgates : (s.seq k).gatesOff = false) (hdue : s.down = true ∨ 10000000000 ≤ seqTime s k) :
    ∃ t, execSafetySpindleTimeout k s = .next t ∧ (t.seq k).gatesOff = true ∧ (t.seq k).braking = false ∧
      t.aon.spinTimeout = true ∧ (s.rst.struck.isSome = true → t.cf 0 0xD088 7 0 = 2) := by
  have hopen : (!(s.seq k).run || (s.seq k).gatesOff || decide (s.nslices ≤ k) ||
      (!s.down && decide (seqTime s k < 10000000000))) = false := by
    rcases hdue with h | h <;> simp [hrun, hgates, hk, h]
  have he : execSafetySpindleTimeout k s =
      .next (if s.rst.struck.isSome then (timedOut k s).setCf 0 0xD088 7 0 2 else timedOut k s) := by
    simp only [execSafetySpindleTimeout, hopen, Bool.false_eq_true, if_false]
    rfl
  refine ⟨_, he, ?_⟩
  have hseq := timedOut_seq k s
  have haon := timedOut_spinTimeout k s
  generalize timedOut k s = u at hseq haon
  split
  · refine ⟨?_, ?_, ?_, fun _ => ?_⟩
    · rw [seq_of_safe (State.setCf_safe _ _ _ _ _ _), hseq]
    · rw [seq_of_safe (State.setCf_safe _ _ _ _ _ _), hseq]
    · rw [State.setCf_aon, haon]
    · rw [cf_setCf_same _ _ _ _ (by omega) (by omega)]; rfl
  · next h => rw [hseq]; exact ⟨rfl, rfl, haon, fun hs => absurd hs h⟩

/-! The end of the sequence. -/

/-- Slice k's sequence ended, with its outputs in their reset states. -/
def sequenceEnded (k : Nat) (s : State) : State :=
  { s.setSeq k { s.seq k with run := false, ended := true } with
    outs := s.outs.filter (fun e => e.1 / 256 != k || decide (0xC0 ≤ e.1 % 256)) }

theorem sequenceEnded_seq (k j : Nat) (s : State) :
    (sequenceEnded k s).seq j = if j = k then { s.seq k with run := false, ended := true } else s.seq j :=
  seq_setSeq s k j _

/-- An output of slice k is in its reset state where no value of it is listed. -/
theorem out_of_filter (k : Nat) (o : Tbl (Option Word32)) {ch : Nat} (h : ch < 0xC0) :
    Tbl.at (o.filter (fun e => e.1 / 256 != k || decide (0xC0 ≤ e.1 % 256))) (256 * k + ch) = none := by
  have hkey : ((256 * k + ch) / 256 != k || decide (0xC0 ≤ (256 * k + ch) % 256)) = false := by
    have hdiv : (256 * k + ch) / 256 = k := by omega
    rw [hdiv, decide_eq_false (by omega), bne_self_eq_false, Bool.or_self]
  rw [Tbl.at, get_filter_key (fun _ => default) (fun n => n / 256 != k || decide (0xC0 ≤ n % 256)), hkey]
  rfl

theorem sequenceEnded_rst (k : Nat) (s : State) : (sequenceEnded k s).rst = s.rst := rfl

theorem sequenceEnded_out (k : Nat) (s : State) {ch : Nat} (h : ch < 0xC0) : (sequenceEnded k s).out k ch = none :=
  out_of_filter k s.outs h

/-- A parked sequence whose gates are off ends: the F-die that waits resets, and a stop that waits ends. -/
theorem execSequenceEnd_eq {s : State} {k : Nat} (hrun : (s.seq k).run = true) (hparked : (s.seq k).parked = true)
    (hgates : (s.seq k).gatesOff = true) :
    execSafetySequenceEnd k s =
      .next (let t := if (sequenceEnded k s).rst.fdie.contains k then fdieReset k (sequenceEnded k s) else sequenceEnded k s
        if t.rst.endWaits then stopEnd t else t) := by
  unfold execSafetySequenceEnd
  extract_lets q
  rw [if_neg (by simp [q, hrun, hparked, hgates])]
  rfl

/-- The last sequence of a stop that waits ends the stop (R607). -/
theorem execSequenceEnd_endsStop {s : State} {k : Nat} (hrun : (s.seq k).run = true) (hparked : (s.seq k).parked = true)
    (hgates : (s.seq k).gatesOff = true) (hwaits : s.rst.endWaits = true) (hstop : s.stopped = true)
    (hpin : s.rst.pinLow = false) (hfdie : s.rst.fdie = []) (hothers : ∀ j, j < s.nslices → j ≠ k → (s.seq j).run = false) :
    ∃ t, execSafetySequenceEnd k s = .next t ∧ t.down = false ∧ t.stopped = false ∧ t.cf 0 0x0200 15 0 = 6 := by
  have he : execSafetySequenceEnd k s = .next (stopEnd (sequenceEnded k s)) := by
    simp [execSequenceEnd_eq hrun hparked hgates, sequenceEnded_rst, hfdie, hwaits]
  refine ⟨_, he, stopEnd_status hstop (fun j hj => ?_) hpin⟩
  rw [sequenceEnded_seq]
  split
  · rfl
  · next hne => exact hothers j hj hne

/-- F-die k in reset: its page, its outputs and its sequence cleared, and no reset of it waited for (R588). -/
def fdieCleared (k : Nat) (s : State) : State :=
  { s with
    regs := s.regs.filter (fun e => !(decide (fAddr k 0 ≤ e.1) && decide (e.1 < fAddr (k + 1) 0)))
    outs := s.outs.filter (fun e => e.1 / 256 != k || decide (0xC0 ≤ e.1 % 256))
    safe := s.safe.filter (fun e => e.1 != k)
    shock := s.shock.filter (fun e => e.1 / 2 != k), tripped := s.tripped.filter (fun e => e.1 / 16 != k)
    polls := s.polls.filter (fun e => e.1 != k), lit := s.lit.filter (fun e => e.1 / 24 != k)
    trims := s.trims.filter (fun e => !(decide (fAddr k 0 ≤ e.1) && decide (e.1 < fAddr (k + 1) 0)))
    rst := { s.rst with fdie := s.rst.fdie.filter (fun x => x != k) } }

theorem fdieReset_eq (k : Nat) (s : State) :
    fdieReset k s =
      let t := (fdieCleared k s).setFf k 0x2040 1 0 (s.ff k 0x2040 1 0)
      if t.down then t else (restoreFdie k t).setCf 0 0x0200 (16 + k) (16 + k) 1 := rfl

/-- What of a state the restore of an F-die's page leaves alone: the sequences, the outputs and the reset's state. -/
def dieView (s : State) : Tbl SafetySeq × Tbl (Option Word32) × ResetSt := (s.safe, s.outs, s.rst)

theorem setReg_dieView (s : State) (a : Nat) (w : Word) : dieView (s.setReg a w) = dieView s := rfl
theorem setCf_dieView (s : State) (d off hi lo x : Nat) : dieView (s.setCf d off hi lo x) = dieView s := setReg_dieView _ _ _
theorem setFf_dieView (s : State) (k off hi lo x : Nat) : dieView (s.setFf k off hi lo x) = dieView s := setReg_dieView _ _ _
theorem restoreReg_dieView (fdie : Bool) (d off v : Nat) (s : State) : dieView (restoreReg fdie d off v s) = dieView s :=
  setReg_dieView _ _ _

theorem restoreFdie_dieView (k : Nat) (s : State) : dieView (restoreFdie k s) = dieView s := by
  unfold restoreFdie
  split
  · exact upTo_view dieView _ _ (fun _ _ s => restoreReg_dieView _ _ _ _ s) s
  · rfl

theorem fdieReset_dieView (k : Nat) (s : State) : dieView (fdieReset k s) = dieView (fdieCleared k s) := by
  rw [fdieReset_eq]
  dsimp only
  split
  · exact setFf_dieView _ _ _ _ _ _
  · rw [setCf_dieView, restoreFdie_dieView, setFf_dieView]

/-- An F-die's reset starts its sequence and its outputs again, and sets its bit of fready while the dies are up (R588). -/
theorem fdieReset_leaves (k : Nat) (s : State) :
    ((fdieReset k s).seq k).run = false ∧ (∀ ch, ch < 0xC0 → (fdieReset k s).out k ch = none) ∧
      (fdieReset k s).rst.endWaits = s.rst.endWaits ∧
      (k < 48 → s.down = false → (fdieReset k s).cf 0 0x0200 (16 + k) (16 + k) = 1) := by
  have hview := fdieReset_dieView k s
  simp only [dieView, Prod.mk.injEq] at hview
  obtain ⟨hsafe, houts, hrst⟩ := hview
  refine ⟨?_, fun ch hch => ?_, ?_, fun hk hdown => ?_⟩
  · have hseq : (fdieCleared k s).seq k = {} := by
      show Tbl.at (s.safe.filter (fun e => e.1 != k)) k = {}
      rw [Tbl.at, get_filter_key (fun _ => default) (fun n => n != k)]
      simp
      rfl
    rw [seq_of_safe hsafe, hseq]
  · rw [State.out, houts]; exact out_of_filter k s.outs hch
  · rw [hrst]; rfl
  · have hup : ((fdieCleared k s).setFf k 0x2040 1 0 (s.ff k 0x2040 1 0)).down = false := by
      rw [← hdown, State.down, State.setFf_rst]; rfl
    rw [fdieReset_eq]
    dsimp only
    rw [hup, if_neg Bool.false_ne_true, cf_setCf_same _ _ _ _ (by omega) (by omega)]
    simp

/-- A sequence that ends with no stop waiting runs no more, its outputs in their reset states, and its F-die leaves its reset
where it waited for one (R509, R588). -/
theorem execSequenceEnd_leaves {s : State} {k : Nat} (hk : k < s.nslices) (hrun : (s.seq k).run = true)
    (hparked : (s.seq k).parked = true) (hgates : (s.seq k).gatesOff = true) (hwaits : s.rst.endWaits = false) :
    ∃ t, execSafetySequenceEnd k s = .next t ∧ (t.seq k).run = false ∧ (∀ ch, ch < 0xC0 → t.out k ch = none) ∧
      (s.rst.fdie.contains k = true → s.down = false → t.cf 0 0x0200 (16 + k) (16 + k) = 1) ∧
      (s.rst.fdie.contains k = false → (t.seq k).ended = true ∧ t.regs = s.regs) := by
  cases hdie : s.rst.fdie.contains k with
  | true =>
    obtain ⟨hseq, hout, hend, hready⟩ := fdieReset_leaves k (sequenceEnded k s)
    have hnone : (fdieReset k (sequenceEnded k s)).rst.endWaits = false := hend.trans hwaits
    refine ⟨fdieReset k (sequenceEnded k s), ?_, hseq, hout, fun _ hdown => hready ?_ hdown,
      fun h => absurd h.symm Bool.false_ne_true⟩
    · simp only [execSequenceEnd_eq hrun hparked hgates, sequenceEnded_rst, hdie, if_true, hnone, Bool.false_eq_true, if_false]
    · have : s.nslices ≤ 4 := by unfold State.nslices Part.slices; split <;> omega
      omega
  | false =>
    refine ⟨sequenceEnded k s, ?_, ?_, fun ch hch => sequenceEnded_out k s hch, fun h _ => absurd h Bool.false_ne_true,
      fun _ => ⟨?_, rfl⟩⟩
    · simp only [execSequenceEnd_eq hrun hparked hgates, sequenceEnded_rst, hdie, hwaits, Bool.false_eq_true, if_false]
    · rw [sequenceEnded_seq, if_pos rfl]
    · rw [sequenceEnded_seq, if_pos rfl]

end Sys2Proof.Machine.StopLaws
end

section
/-! SUPPORT. The watchdogs and the restart of a core (R600 to R605). -/

namespace Sys2Proof.Machine.StopLaws

/-- A register access that raises no event does its part on the core that has begun (R88). -/
theorem regAccess_ok {s : State} {c d off : Nat} {kind : Kind} {own fdie : Bool}
    (h : MayAccess s c kind own fdie d off false) (f : State → State) :
    regAccess c kind own fdie d off false f s = f (s.started c) := by
  obtain ⟨hawake, hsound, hfault, -⟩ := h
  unfold regAccess
  rw [if_neg (by simp [hawake]), if_neg (by simp [hsound])]
  change (match accessFault (s.started c) c kind (regAt own c fdie d off) 8 with
    | some e => syncEvent c false e (s.started c)
    | none => f (s.started c)) = _
  rw [hfault]

/-- The watchdog of core c: whether it runs out. -/
abbrev watchdogOut (s : State) (c : Nat) : Bool :=
  s.hasCore c && !s.down && !s.stopped && ((s.core c).run == .running || (s.core c).run == .wfe) &&
    s.cf (c / 8) (0x0280 + 8 * (c % 8)) 15 0 != 0 &&
    decide ((s.core c).kickAt + s.cf (c / 8) (0x0280 + 8 * (c % 8)) 15 0 * 10000 ≤ s.time)

theorem execCoreWatchdogExpiry_eq (c : Nat) (s : State) :
    execCoreWatchdogExpiry c s = .next (if watchdogOut s c then deckCoreFault c 2 s else s) := rfl

/-- A watchdog that is off, or whose period has not passed, does nothing (R600). -/
theorem execCoreWatchdogExpiry_early {s : State} {c : Nat} (h : s.cf (c / 8) (0x0280 + 8 * (c % 8)) 15 0 = 0 ∨
    s.time < (s.core c).kickAt + s.cf (c / 8) (0x0280 + 8 * (c % 8)) 15 0 * 10000) :
    execCoreWatchdogExpiry c s = .next s := by
  have hout : watchdogOut s c = false := by
    rcases h with h | h
    · simp [watchdogOut, h]
    · simp only [watchdogOut, decide_eq_false (Nat.not_le.2 h), Bool.and_false]
  rw [execCoreWatchdogExpiry_eq, hout]
  rfl

/-- A watchdog whose period has passed while its core executes faults the core (R600). -/
theorem execCoreWatchdogExpiry_late {s : State} {c : Nat} (hc : s.hasCore c = true) (hdown : s.down = false)
    (hstop : s.stopped = false) (hrun : (s.core c).run = .running ∨ (s.core c).run = .wfe)
    (hper : s.cf (c / 8) (0x0280 + 8 * (c % 8)) 15 0 ≠ 0)
    (hdue : (s.core c).kickAt + s.cf (c / 8) (0x0280 + 8 * (c % 8)) 15 0 * 10000 ≤ s.time) :
    execCoreWatchdogExpiry c s = .next (deckCoreFault c 2 s) := by
  have hexec : ((s.core c).run == .running || (s.core c).run == .wfe) = true := by
    rcases hrun with h | h <;> rw [h] <;> rfl
  have hout : watchdogOut s c = true := by
    simp only [watchdogOut, hc, hdown, hstop, hexec, bne_iff_ne.2 hper, decide_eq_true hdue, Bool.not_false, Bool.and_self]
  rw [execCoreWatchdogExpiry_eq, hout]
  rfl

/-- Registers and state of a core are its own. -/
theorem fields_of_own {k j : Core} (h : k.own = j.own) :
    k.run = j.run ∧ k.epc = j.epc ∧ k.cause = j.cause ∧ k.eaddr = j.eaddr ∧ k.einfo = j.einfo ∧ k.pc = j.pc ∧
      k.status = j.status ∧ k.g = j.g ∧ k.stopSeq = j.stopSeq := by
  simp only [Core.own, Core.mk.injEq] at h
  simp [h]

/-- A stop that a fault of core c brings leaves the core stopped, and the device as any stop does. -/
theorem faultStop_leaves {s : State} (h : s.stopped = false) (c : Nat) {code : Nat} (hc : code < 256) :
    StopsWith s (controlledStop code (s.setCore c { s.core c with run := .stopped })) code ∧
      ((controlledStop code (s.setCore c { s.core c with run := .stopped })).core c).run = .stopped := by
  refine ⟨controlledStop_stops (s := s.setCore c { s.core c with run := .stopped }) h hc, ?_⟩
  have hown := controlledStop_keeps code (s.setCore c { s.core c with run := .stopped }) c
  rw [State.core_setCore] at hown
  obtain ⟨hrun, -⟩ := fields_of_own hown
  exact hrun

/-- What an expired watchdog of a core leaves after the seal, the core not restarted within the last ms (R601, R602). -/
theorem coreFault_leaves {s : State} (hsealed : s.sealed = true) (hstop : s.stopped = false) {c : Nat}
    (hr : ∀ r, (s.core c).restartAt = some r → r + 1000000 ≤ s.time) {reason : Nat} {t : State}
    (ht : deckCoreFault c reason s = t) :
    (t.core c).run = .stopped ∧ (t.core c).epc = (s.core c).epc ∧
      (t.core c).cause = (s.core c).cause ∧ (t.core c).eaddr = (s.core c).eaddr ∧ (t.core c).einfo = (s.core c).einfo ∧
      (t.core c).pc = (s.core c).pc ∧ (t.core c).status = (s.core c).status ∧ (t.core c).g = (s.core c).g ∧
      (t.core c).stopSeq = t.flt.head ∧ t.flt.head = s.flt.head + 1 ∧ t.stopped = false ∧ Tbl.at t.adm.accounts c = 0 ∧
      ∀ i, (t.slot i).phase = .taken → (t.slot i).takenBy = some c → (t.slot i).posting = true := by
  obtain ⟨hown, hhead, hregs, haccount, hheld⟩ := deckCoreFault_stops_core hsealed hr ht
  obtain ⟨hrun, hepc, hcause, headdr, heinfo, hpc, hstatus, hg, hseq⟩ := fields_of_own hown
  refine ⟨hrun, hepc, hcause, headdr, heinfo, hpc, hstatus, hg, hseq.trans hhead.symm, hhead, ?_, haccount, fun i hp ht => ?_⟩
  · rw [← hstop, State.stopped, State.stopped, cf_of_reg (reg_of_regs hregs _)]
  · by_contra hposting
    exact hheld i ((part_eq_heldBy c _).2 ⟨hp, ht, hposting⟩)

/-- Core c as DECK_CORE_RESTART leaves it (R601). -/
def restarted (s : State) (c : Nat) (k : Core) : Core :=
  { k with
    run := .running, level := .supervisor, g := Vector.replicate 32 0, p := 1, status := 0, evmask := 0
    epc := k.pc, eaddr := 0, cause := 0x25, einfo := BitVec.ofNat 64 k.stopSeq
    estatus := BitVec.ofNat 64 (k.level.code + k.status.toNat % 4 * 4)
    pc := BitVec.ofNat 64 (s.cf (c / 8) (0x0240 + 8 * (c % 8)) 39 2 * 4)
    restartAt := some s.time, kickAt := s.time, broken := false }

theorem execDeckCoreRestart_eq (c : Nat) (s : State) :
    execDeckCoreRestart c s =
      .next (if s.hasCore c && !s.down && !s.stopped && s.sealed && (s.core c).run == .stopped then
        (s.dropIcache c).modCore c (restarted s c) else s) := rfl

theorem restarted_r (s : State) (c : Nat) (k : Core) (i : BitVec 5) : (restarted s c k).r i = 0 := by
  simp [restarted, Core.r]

/-- A stopped core restarts at Supervisor level at rst.cent, with its fault reported in its event registers (R601). -/
theorem execDeckCoreRestart_leaves {s : State} {c : Nat} (hc : s.hasCore c = true) (hdown : s.down = false)
    (hstop : s.stopped = false) (hsealed : s.sealed = true) (hrun : (s.core c).run = .stopped) :
    ∃ t, execDeckCoreRestart c s = .next t ∧ t.core c = restarted s c (s.core c) ∧ t.icacheOf c = [] := by
  refine ⟨(s.dropIcache c).modCore c (restarted s c), ?_, ?_, ?_⟩
  · simp [execDeckCoreRestart_eq, hc, hdown, hstop, hsealed, hrun]
  · rw [State.core_modCore, State.core_dropIcache]
  · exact State.icacheOf_dropIcache s c

theorem execPackageWatchdogExpiry_stops {s : State} (hdown : s.down = false) (hstop : s.stopped = false)
    (hper : s.cf 0 0x0210 31 16 ≠ 0) (hdue : s.rst.wdKick + s.cf 0 0x0210 31 16 * 1000000 ≤ s.time) :
    ∃ t, execPackageWatchdogExpiry s = .next t ∧ StopsWith s t 8 := by
  refine ⟨controlledStop 8 s, ?_, controlledStop_stops hstop (by decide)⟩
  simp only [execPackageWatchdogExpiry, whileUp, hdown, Bool.false_eq_true, if_false]
  rw [if_pos ⟨hper, hdue⟩]

end Sys2Proof.Machine.StopLaws
end

section
/-! SUPPORT. One LOOP tick with no command waiting (R34, R108). -/

namespace Sys2Proof.Machine.StopLaws

/-- What a tick's work leaves beside the timebase. -/
def tickView (s : State) : Nat × Tbl Byte × Tbl Core × Tbl Engine × List Instr :=
  (s.now, s.mem, s.cores, s.engines, s.pending)

theorem offHost_tickView (s : State) : tickView (offHost s) = tickView s := rfl
theorem setReg_tickView (s : State) (a : Nat) (w : Word) : tickView (s.setReg a w) = tickView s := rfl
theorem setRing_tickView (s : State) (r : Ring) : tickView (s.setRing r) = tickView s := rfl

theorem sendOn_tickView (ring type dst : Nat) (bc : Bool) (seq : Nat) (data : List Nat) (s : State) :
    tickView (sendOn ring type dst bc seq data s) = tickView s := rfl

theorem slewTick_tickView (s : State) : tickView (slewTick s) = tickView s := by
  unfold slewTick
  split
  · exact (setRing_tickView _ _).trans (setReg_tickView _ _ _)
  · rfl

theorem pumpRing_tickView (s : State) : tickView (pumpRing s) = tickView s := by
  unfold pumpRing
  extract_lets ready
  split
  · split
    · rw [sendOn_tickView, setRing_tickView]
    · rfl
  · rfl

theorem raiseAsync_tickView (type info log : Nat) (s : State) : tickView (raiseAsync type info log s) = tickView s := by
  rw [← offHost_tickView, raiseAsync_offHost, offHost_tickView]

theorem setHost_tickView (s : State) (h : HostPort) : tickView { s with host := h } = tickView s := rfl

theorem healthEvents_tickView (s : State) : tickView (healthEvents s) = tickView s := by
  unfold healthEvents
  extract_lets w new _ warned first
  have hfirst : tickView first = tickView s := by
    simp only [first]
    split
    · rw [raiseAsync_tickView, setHost_tickView]
    · exact setHost_tickView _ _
  split
  · rw [raiseAsync_tickView, hfirst]
  · exact hfirst

theorem shutdownTest_tickView (s : State) : tickView (shutdownTest s) = tickView s := by
  unfold shutdownTest
  split <;> rfl

/-- A tick moves the timebase by 2.5 ns, and memory, cores, engines and the queue stand. -/
theorem idle_tickView (s : State) : tickView s.idle = tickView { s with now := s.now + 1 } := by
  rw [State.idle, shutdownTest_tickView, healthEvents_tickView, pumpRing_tickView, slewTick_tickView]

end Sys2Proof.Machine.StopLaws
end

section
/-! The obligations of the safety sequences, watchdogs and stops, and of the step. -/

namespace Sys2Proof.Machine

open StopLaws

/-- Settles O57: with a command waiting by the definition of the step; an empty queue lets one tick pass, whose work touches the
host port and the ring alone. -/
theorem aStepTakesTheFrontCommand : Obligations.a_step_takes_the_front_command := by
  intro s
  refine ⟨fun i rest h => ?_, fun h => ⟨s.idle, ?_, ?_⟩⟩
  · rw [step, h]
  · rw [step, h]
  · have hview := idle_tickView s
    simp only [tickView, Prod.mk.injEq] at hview
    obtain ⟨hnow, hmem, hcores, hengines, hpending⟩ := hview
    exact ⟨hnow, hmem, hcores, hengines, hpending.trans h⟩

/-- Settles O48, clause by clause: each stage and the end of a sequence by what its command leaves, the stops by what every
controlled stop leaves, and the reset that ends a stop by its restore, which writes no rst.stat. -/
theorem safetySequencesWatchdogsAndStops : Obligations.safety_sequences_watchdogs_and_stops := by
  intro s stops
  refine ⟨fun k hk hrun => ⟨fun n hdown h => execStage_early n hdown h, execStage_brake hk hrun, execStage_coils hk hrun,
      execStage_parked hk hrun, execStage_gatesOff hk hrun, execSpindleTimeout_leaves hk hrun, ?_, ?_⟩, ?_, ?_, ?_⟩
  · exact fun hparked hgates hwaits hstop hpin hfdie hothers =>
      execSequenceEnd_endsStop hrun hparked hgates hwaits hstop hpin hfdie hothers
  · exact execSequenceEnd_leaves hk hrun
  · exact fun c own h => congrArg Host.Outcome.next (regAccess_ok h _)
  · intro c hc hdown hstop k per
    refine ⟨fun h => execCoreWatchdogExpiry_early h, fun hrun hper hdue => ?_, fun hsealed hrun => ?_⟩
    · have he := execCoreWatchdogExpiry_late hc hdown hstop hrun hper hdue
      refine ⟨fun hsealed => ?_, fun r hsealed hr hlt => ?_, fun hsealed hr => ?_⟩
      · obtain ⟨hstops, hcore⟩ := faultStop_leaves hstop c (code := 9) (by decide)
        exact ⟨_, he.trans (congrArg _ (deckCoreFault_unsealed hsealed c 2)), hstops, hcore⟩
      · obtain ⟨hstops, -⟩ := faultStop_leaves hstop c (code := 10) (by decide)
        exact ⟨_, he.trans (congrArg _ (deckCoreFault_again hsealed hr hlt 2)), hstops⟩
      · exact ⟨_, he, coreFault_leaves hsealed hstop hr rfl⟩
    · obtain ⟨t, ht, hcore, hcache⟩ := execDeckCoreRestart_leaves hc hdown hstop hsealed hrun
      refine ⟨t, ht, ?_⟩
      rw [hcore]
      exact ⟨rfl, rfl, restarted_r _ _ _, rfl, congrArg (BitVec.ofNat 64) (Nat.mul_comm _ _), rfl, rfl, rfl,
        rfl, rfl, rfl, hcache, rfl, rfl, rfl⟩
  · intro hdown
    refine ⟨?_, fun hstop hper hdue => execPackageWatchdogExpiry_stops hdown hstop hper hdue,
      fun hstop => execRefclkLoss_stops hdown hstop⟩
    show execPackageWatchdogKick s = _
    rw [execPackageWatchdogKick, whileUp, hdown]; rfl

end Sys2Proof.Machine
end
